-- ==== Sys2Proof/Word.lean ====
section
/-! DEFINITION. The plain words of the TK512: 32-bit registers (R7), bytes, and the two byte orders (R7, R8). -/

namespace Sys2Proof

/-- A register word (R7). -/
abbrev Word := BitVec 32

/-- A byte of a packet or of a memory. -/
abbrev Byte := BitVec 8

/-- Serial-number arithmetic over `w` bits: `a` precedes `b` (R60, R308, R413). -/
def serialBefore {w : Nat} (a b : BitVec w) : Bool :=
  let d := (b - a).toNat
  decide (1 ≤ d) && decide (d < 2 ^ (w - 1))

/-- `n` bytes of a number, most significant first (R8). -/
def beBytes : Nat → Nat → List Byte
  | 0, _ => []
  | n + 1, v => BitVec.ofNat 8 (v / 256 ^ n) :: beBytes n v

/-- `n` bytes of a number, least significant first (R7). -/
def leBytes : Nat → Nat → List Byte
  | 0, _ => []
  | n + 1, v => BitVec.ofNat 8 v :: leBytes n (v / 256)

/-- The number that big-endian bytes spell. -/
def beNat (bs : List Byte) : Nat := bs.foldl (fun a b => a * 256 + b.toNat) 0

/-- The number that little-endian bytes spell. -/
def leNat : List Byte → Nat
  | [] => 0
  | b :: bs => b.toNat + 256 * leNat bs

end Sys2Proof
end

