-- ==== Sys2Proof/Syntax.lean ====
section
/-! DEFINITION. The commands of the TK512: one constructor of `Instr` for each row of spec/opcode_table.json,
and the data their operands are made of. -/

namespace Sys2Proof

/-- The two lane dies (R39). -/
inductive LaneId where
  | a
  | b
deriving DecidableEq, Repr

/-- The other lane. -/
def LaneId.other : LaneId → LaneId
  | .a => .b
  | .b => .a

/-- Lane number as registers show it (R39): 0 lane A, 1 lane B. -/
def LaneId.num : LaneId → Nat
  | .a => 0
  | .b => 1

/-- The transport a packet arrives on (Table 09-1). -/
inductive Via where
  | estate
  | floor
  | service
deriving DecidableEq, Repr

/-- Who accesses a register of a lane (R441): an application core, the lane manager, or the service port's interpreter. -/
inductive Reader where
  | core (n : Nat)
  | manager
  | service
deriving DecidableEq, Repr

/-- The nine mailboxes (R441). -/
inductive MbxId where
  | sysWide
  | laneDigest
  | hedSnap
  | loopBank
  | nrgAcc
  | rtcTime
  | keySlot
  | keyMeas
  | recWin
deriving DecidableEq, Repr

/-- The PW registers of the RTC block, in ascending offset order (R481). -/
inductive PwReg where
  | setGo
  | trim
  | chg
  | alm (n : Nat)
  | almCtl (n : Nat)
deriving DecidableEq, Repr

/-- Where a packet came from: what a reply is sent to (Table 09-1, R388). -/
structure Source where
  mac : BitVec 48
  ip : List Byte
  port : BitVec 16
  vlan : Bool := false
deriving DecidableEq, Repr

/-- The header of a command as it stands at execution (Table 09-3), with what intake and the layout check found. -/
structure Hdr where
  /-- transport the command arrived on -/
  via : Via
  /-- PART: `some p` for 0 to 15, `none` for 0xFF -/
  sender : Option Nat
  enc : Bool
  fast : Bool
  /-- no reserved FLAGS bit is set (R332) -/
  flagsOk : Bool
  seq : Word
  /-- PICK: lowest pick to execute at (R345) -/
  pick : Word
  credit : BitVec 16
  /-- the STATUS field is 0 (R332) -/
  statusZero : Bool
  /-- LEN matches the layout (step 10 of Table 09-5) -/
  lenOk : Bool
  /-- every reserved byte and bit of the parameters is 0 (R353) -/
  reservedOk : Bool
  /-- load generation stamped at intake; `none` for an unprotected packet or one whose key was not held (R334, R335) -/
  keyGen : Option Word
  src : Source
  /-- the bytes of the header and of the parameters, where the fields above and the operation do not tell them all (R339) -/
  rest : List Byte := []
deriving DecidableEq, Repr

/-- One item of CONFIG_UNITS (Table 09-9). -/
structure UnitItem where
  point : Nat
  setOwner : Bool
  owner : Nat
  cfg : Word
  param : Word
  safe : Word
deriving DecidableEq, Repr

/-- Parameters of LOOP_PATTERN_CTL (Table 09-10). -/
structure PatternArgs where
  loop : Nat
  offset : Nat
  count : Nat
  transfer : Nat
  samples : List (BitVec 16)
deriving DecidableEq, Repr

/-- One item of METER_CONFIG (Table 09-11). -/
structure MeterItem where
  item : Nat
  index : Nat
  value : Nat
deriving DecidableEq, Repr

/-- Parameters of NET_CONFIG (Table 09-16). -/
structure NetArgs where
  moduleId : Word
  pair : Nat
  speed : Nat
  vlan : BitVec 16
  mac : BitVec 48
  prefixLen : Nat
  ipv4 : Word
  ipv6 : BitVec 128
deriving DecidableEq, Repr

/-- Parameters of FILTER_SET (Table 09-16). -/
structure FilterArgs where
  port : Nat
  filter : Nat
  en : Nat
  action : Nat
  ring : Nat
  pcpMask : Nat
  vid : Nat
  vidMask : Nat
  etherType : Nat
deriving DecidableEq, Repr

/-- Parameters of CAN_CONFIG (Table 09-16). -/
structure CanArgs where
  bus : Nat
  mode : Nat
  nbrp : Nat
  ntseg1 : Nat
  ntseg2 : Nat
  nsjw : Nat
  dbrp : Nat
  dtseg1 : Nat
  dtseg2 : Nat
  dsjw : Nat
  tdco : Nat
deriving DecidableEq, Repr

/-- Parameters of CAN_MAILBOX_SET (Table 09-16). -/
structure MailboxArgs where
  bus : Nat
  dir : Nat
  mailbox : Nat
  type : Nat
  id : Word
  mask : Word
  en : Nat
deriving DecidableEq, Repr

/-- One item of MODULE_SET (Table 09-16). -/
structure SettingItem where
  item : Nat
  index : Nat
  value : Nat
deriving DecidableEq, Repr

/-- A date and time of TIME_SET (Table 09-13). -/
structure DateTime where
  year : Nat
  month : Nat
  day : Nat
  hour : Nat
  minute : Nat
  second : Nat
deriving DecidableEq, Repr

/-- Parameters of FORCE_SET (Table 09-9). -/
structure ForceArgs where
  kind : Nat
  targetPart : Nat
  target : Nat
  value : BitVec 64
deriving DecidableEq, Repr

/-- The operation that a command packet asks for: one constructor per opcode layout of Tables 09-8 to 09-16. -/
inductive Op where
  | nop
  | echo (bytes : List Byte)
  | identify
  | getMeasurement (nonce : List Byte)
  | pick
  | subStart (kinds : Nat) (ackSeq : Word)
  | subStop (kinds : Nat) (ackSeq : Word)
  | subAck (kinds : Nat) (ackSeq : Word)
  | readPoints (first count : Nat)
  | writePoints (items : List (Nat × Word))
  | forceSet (f : ForceArgs)
  | forceClear (mode : Nat) (f : ForceArgs)
  | forceList (start max : Nat)
  | configUnits (items : List UnitItem)
  | heddleLoad (region offset : Nat) (data : List Byte)
  | heddleCommit (region : Nat) (crc : Word)
  | loopConfigLoop (index owner : Nat) (words : List Word)
  | loopConfigGroup (index period phase en : Nat)
  | loopBankWrite (loop : Nat) (words : List Word)
  | loopBankSwap (loop : Nat) (bumpless : Bool) (gen : BitVec 16)
  | loopStatus (first count : Nat)
  | patternClear (p : PatternArgs)
  | patternRead (p : PatternArgs)
  | patternWrite (p : PatternArgs)
  | patternSave (p : PatternArgs)
  | meterConfig (items : List MeterItem)
  | meterRead (set first count : Nat)
  | meterReset (circuit : Nat)
  | meterLoss (first count : Nat)
  | programLoad (part length transfer : Nat)
  | programExchange (part : Nat) (retainMatch : Bool) (gen : BitVec 16)
  | restart (part mode : Nat) (mask : BitVec 16)
  | cycleStatus (part : Nat)
  | retainSave (part : Nat)
  | recFreeze
  | recRead (start max : Nat)
  | recThaw
  | timeGet
  | timeSet (d : DateTime)
  | timeTrim (trim : Int)
  | keyLoad (slot : Nat) (blob : List Byte)
  | escrowRestore (blob : List Byte)
  | keyUnload (slot : Nat) (erase : Bool)
  | kekGenerate
  | kekWrap (key attrs : List Byte)
  | lifecycleGet
  | lifecycleAdvance (target : Nat) (confirm : Word)
  | netConfig (n : NetArgs)
  | filterSet (f : FilterArgs)
  | canConfig (c : CanArgs)
  | mailboxSet (m : MailboxArgs)
  | faultStatus (first count : Nat)
  | faultAck (scope index : Nat)
  | laneStatus
  | lanePrefer (prefer holdoff : Nat)
  | policyGet (item first count : Nat)
  | policyPin (item index : Nat) (value : Word)
  | policyUnpin (item index : Nat) (value : Word)
  | moduleSet (items : List SettingItem)
  | moduleGet (item index : Nat)
  /-- a known opcode whose selector names no layout (R349) -/
  | badSelector (opcode : Nat) (params : List Byte)
  /-- an opcode outside Tables 09-8 to 09-16 -/
  | unknown (opcode : Nat)
deriving DecidableEq, Repr

/-- What an IP datagram carries (Table 10-3). -/
inductive L4 where
  /-- UDP: ports, checksum (0 good, 1 zero, otherwise bad), payload -/
  | udp (sport dport : BitVec 16) (sum : Nat) (payload : List Byte)
  | echo (ident seqno : Nat) (data : List Byte)
  | solicit (target : BitVec 128) (hopLimit : Nat)
  | other (proto : Nat)
deriving DecidableEq, Repr

/-- What a received frame carries after its tags (R383 to R387). -/
inductive FrameBody where
  | pause (opcode quanta : Nat)
  | ipv4 (version ihl : Nat) (fragment checksumOk lenOk : Bool) (src dst : Word) (l4 : L4)
  | ipv6 (extension lenOk : Bool) (src dst : BitVec 128) (l4 : L4)
  | arp (request : Bool) (target sender : Word)
  | other (bytes : List Byte)
deriving DecidableEq, Repr

/-- A received frame (R383 to R391). -/
structure Frame where
  dst : BitVec 48
  src : BitVec 48
  fcsOk : Bool
  /-- bytes of MAC client data -/
  clientLen : Nat
  /-- VLAN tags, each (VID, PCP), outermost first -/
  tags : List (Nat × Nat)
  etherType : Nat
  /-- PRP sequence number when the frame carries a valid PRP trailer (R383) -/
  prp : Option (BitVec 16)
  body : FrameBody
deriving DecidableEq, Repr

/-- A received or queued CAN frame (Table 11-4). -/
structure CanFrame where
  fd : Bool
  brs : Bool
  xtd : Bool
  id : BitVec 29
  dlc : Nat
  esi : Bool
  remote : Bool := false
  data : List Byte
deriving DecidableEq, Repr

/-- What one unit's conversions and readback gave during a frame (R204). -/
structure UnitSample where
  /-- region-local unit, 0 to 63 -/
  unit : Nat
  /-- converted values in word units, one per 40 µs round (AI, AO readback, PWM duty); for DI, CNT and DO, terminal level 1 or 0 -/
  conv : List Int
  openWire : Bool := false
  short : Bool := false
deriving DecidableEq, Repr

/-- What one test slot found (Table 06-3). -/
structure SlotResult where
  /-- cluster within the region, 0 to 7 -/
  cluster : Nat
  /-- the injected step and both comparator sweeps were good -/
  injectOk : Bool
  /-- the dark pulse, sense current or AO readback of the output stage was good -/
  stageOk : Bool
  openLoad : Bool := false
  short : Bool := false
deriving DecidableEq, Repr

/-- What the detector of a field supply reports (R216, bits +1, +2, +3 and +7 of Table 14-1). -/
inductive FieldSupply where
  | low
  | high
  | load8
  | load96
deriving DecidableEq, Repr

/-- The tamper sources (Table 16-4). -/
inductive TamperSource where
  | encl
  | mesh
  | volt
  | temp
  | glitch
deriving DecidableEq, Repr

/-- One command of the block: a row of spec/opcode_table.json. The steps that happen at an instant carry `beat`,
the module beat count at which they happen. -/
inductive Instr where
  -- Skelkan commands (chapter 09)
  | nop (h : Hdr)
  | echo (h : Hdr) (bytes : List Byte)
  | identify (h : Hdr)
  | getMeasurement (h : Hdr) (nonce : List Byte)
  | pick (h : Hdr)
  | eventSubscribeStart (h : Hdr) (kinds : Nat) (ackSeq : Word)
  | eventSubscribeStop (h : Hdr) (kinds : Nat) (ackSeq : Word)
  | eventSubscribeAck (h : Hdr) (kinds : Nat) (ackSeq : Word)
  | readPoints (h : Hdr) (first count : Nat)
  | writePoints (h : Hdr) (items : List (Nat × Word))
  | forceSet (h : Hdr) (f : ForceArgs)
  | forceClear (h : Hdr) (mode : Nat) (f : ForceArgs)
  | forceList (h : Hdr) (start max : Nat)
  | configUnits (h : Hdr) (items : List UnitItem)
  | heddleLoad (h : Hdr) (region offset : Nat) (data : List Byte)
  | heddleCommit (h : Hdr) (region : Nat) (crc : Word)
  | loopConfigLoop (h : Hdr) (index owner : Nat) (words : List Word)
  | loopConfigGroup (h : Hdr) (index period phase en : Nat)
  | loopBankWrite (h : Hdr) (loop : Nat) (words : List Word)
  | loopBankSwap (h : Hdr) (loop : Nat) (bumpless : Bool) (gen : BitVec 16)
  | loopStatus (h : Hdr) (first count : Nat)
  | patternClear (h : Hdr) (p : PatternArgs)
  | patternRead (h : Hdr) (p : PatternArgs)
  | patternWrite (h : Hdr) (p : PatternArgs)
  | patternSave (h : Hdr) (p : PatternArgs)
  | meterConfig (h : Hdr) (items : List MeterItem)
  | meterRead (h : Hdr) (set first count : Nat)
  | meterResetAccum (h : Hdr) (circuit : Nat)
  | meterLossReport (h : Hdr) (first count : Nat)
  | programLoad (h : Hdr) (part length transfer : Nat)
  | programExchange (h : Hdr) (part : Nat) (retainMatch : Bool) (gen : BitVec 16)
  | restart (h : Hdr) (part mode : Nat) (mask : BitVec 16)
  | cycleStatus (h : Hdr) (part : Nat)
  | retainSave (h : Hdr) (part : Nat)
  | recFreeze (h : Hdr)
  | recRead (h : Hdr) (start max : Nat)
  | recThaw (h : Hdr)
  | timeGet (h : Hdr)
  | timeSet (h : Hdr) (d : DateTime)
  | timeTrim (h : Hdr) (trim : Int)
  | keyLoadBlob (h : Hdr) (slot : Nat) (blob : List Byte)
  | kekEscrowRestore (h : Hdr) (blob : List Byte)
  | keyUnload (h : Hdr) (slot : Nat) (erase : Bool)
  | provisionKekGenerate (h : Hdr)
  | provisionKekWrap (h : Hdr) (key attrs : List Byte)
  | lifecycleGet (h : Hdr)
  | lifecycleAdvance (h : Hdr) (target : Nat) (confirm : Word)
  | netConfig (h : Hdr) (n : NetArgs)
  | filterSet (h : Hdr) (f : FilterArgs)
  | canConfig (h : Hdr) (c : CanArgs)
  | canMailboxSet (h : Hdr) (m : MailboxArgs)
  | faultStatus (h : Hdr) (first count : Nat)
  | faultAck (h : Hdr) (scope index : Nat)
  | laneStatus (h : Hdr)
  | lanePrefer (h : Hdr) (prefer holdoff : Nat)
  | policyGet (h : Hdr) (item first count : Nat)
  | policyPin (h : Hdr) (item index : Nat) (value : Word)
  | policyUnpin (h : Hdr) (item index : Nat) (value : Word)
  | moduleSet (h : Hdr) (items : List SettingItem)
  | moduleGet (h : Hdr) (item index : Nat)
  | pendingReply (l : LaneId) (sender : Option Nat) (seq : Word) (beat : Nat)
  -- application cores (chapter 04)
  | instruction (l : LaneId) (core : Nat)
  | ecallPick (l : LaneId) (core : Nat)
  | ringPost (l : LaneId) (core : Nat)
  | ringTake (l : LaneId) (core : Nat)
  | restartCause (l : LaneId) (core : Nat)
  | cycleInfo (l : LaneId) (core : Nat)
  -- registers (chapters 02 and 12)
  | pickReq (l : LaneId) (core : Nat)
  | sysWideMbx (l : LaneId) (r : Reader) (v : Word)
  | laneDigestMbx (l : LaneId) (r : Reader) (v : Word)
  | hedSnapMbx (l : LaneId) (r : Reader) (v : Word)
  | loopBankMbx (l : LaneId) (r : Reader) (v : Word)
  | nrgAccMbx (l : LaneId) (r : Reader) (v : Word)
  | rtcTimeMbx (l : LaneId) (r : Reader) (v : Word)
  | keySlotMbx (l : LaneId) (r : Reader) (v : Word)
  | keyMeasMbx (l : LaneId) (r : Reader) (v : Word)
  | recWinMbx (l : LaneId) (r : Reader) (v : Word)
  | mailboxCaptureDone (l : LaneId) (r : Reader) (m : MbxId)
  | rtcTime0Read (l : LaneId) (r : Reader) (beat : Nat)
  | rtcTime4Read (l : LaneId) (r : Reader)
  | rtcFreezeTimeout (l : LaneId) (r : Reader) (beat : Nat)
  | rtcTick
  | ringDoorbellPost (l : LaneId) (ring n : Nat)
  | ringDoorbellTake (l : LaneId) (ring n : Nat)
  | fltAck (l : LaneId) (v : Word)
  | rtcSetGo (l : LaneId) (v : Word)
  | recover (l : LaneId) (bus : Nat) (v : Word)
  | recCtlFreeze (l : LaneId)
  | recCtlThaw (l : LaneId)
  | postedWrite (l : LaneId) (r : PwReg) (v : Word)
  | postedWriteTaken (l : LaneId) (r : PwReg)
  | registerWrite (l : LaneId) (r : Reader) (addr v : Word)
  -- picks (chapter 02)
  | pickRequestAccept
  | pickClose (beat : Nat)
  | closeReceived (l : LaneId)
  | epochExchange (l : LaneId)
  | epochRelease (l : LaneId) (beat : Nat)
  | soloRelease (l : LaneId) (beat : Nat)
  | agreementTimeout (l : LaneId) (beat : Nat)
  | cycleExecutivePick (l : LaneId) (beat : Nat)
  -- cycles (chapters 03 to 05)
  | ready (l : LaneId) (part beat : Nat)
  | readyReceived (l : LaneId) (part : Nat)
  | readyLate (l : LaneId) (part beat : Nat)
  | lateReadinessWindow (l : LaneId) (part beat : Nat)
  | cycleRunStart (l : LaneId) (part beat : Nat)
  | coreReturn (l : LaneId) (core beat : Nat)
  | watchdogOverrun (part beat : Nat)
  | overrunNotice (l : LaneId) (part : Nat)
  | partitionStarting (l : LaneId) (part : Nat)
  | exchangeStaged (l : LaneId) (part : Nat) (digestOk : Bool)
  | planDigest (l : LaneId) (part : Nat)
  | install (l : LaneId) (part : Nat)
  | exchangeTimeout (l : LaneId) (part beat : Nat)
  | savePeriodExpiry (beat : Nat)
  | saveComplete (l : LaneId)
  | writeRetry (l : LaneId) (readBackOk : Bool)
  -- frames, updates and digests between the lanes (chapter 03)
  | sampleFrame (l : LaneId) (region : Nat) (linkOk : Bool)
  | frameCheck (l : LaneId) (region : Nat) (resentOk : Bool)
  | outputUpdate (l : LaneId) (region beat : Nat)
  | regionUpdateTimer (l : LaneId) (region beat : Nat)
  | updateTimeout (l : LaneId) (region beat : Nat)
  | disagreementWindow (region beat : Nat)
  | commitDigest (l : LaneId) (part beat : Nat)
  | digestWindow (l : LaneId) (beat : Nat)
  | keepalive (l : LaneId) (sub beat : Nat)
  | subLinkLoss (l : LaneId) (sub beat : Nat)
  | heartbeatToggle (l : LaneId) (beat : Nat)
  | heartbeatMissing (l : LaneId) (beat : Nat)
  | faultLine (l : LaneId) (beat : Nat)
  | faultNotice (l : LaneId) (beat : Nat)
  | rejoinReset (l : LaneId)
  | rejoinSelfTest (l : LaneId) (passed : Bool) (beat : Nat)
  | rejoinKeys (l : LaneId) (beat : Nat)
  | rejoinPreCopy (l : LaneId)
  | rejoinFinalCopy (l : LaneId) (part : Nat)
  | rejoinEngineState (l : LaneId) (group : Nat)
  | rejoinJoin (l : LaneId) (beat : Nat)
  -- points and the heddle matrix (chapter 06)
  | regionFrame (region : Nat) (samples : List UnitSample)
  | testSlot (region ms beat : Nat) (results : List SlotResult)
  | overcurrent (point beat : Nat)
  | fieldSupplyFault (region : Nat) (f : FieldSupply)
  | thresholdCrossing (point : Nat) (codeA codeB : Nat)
  | literalVector (l : LaneId) (region beat : Nat)
  | vectorRefresh (region beat : Nat)
  | vectorTimeout (l : LaneId) (region beat : Nat)
  | inhibitMessage (l : LaneId) (region : Nat)
  | crcCheck (region : Nat) (crcA crcB : Word)
  | crossRegionCrcCheck (l : LaneId) (region : Nat) (crc : Word) (beat : Nat)
  | walkingVector (region : Nat) (passed : Bool)
  | heddlePersist (l : LaneId) (region : Nat)
  | heddleVerify (l : LaneId) (region : Nat) (reported : Word)
  | heddleSwitchOverlapEnd (region : Nat)
  | heddleMark (l : LaneId) (region beat : Nat)
  -- loop engine (chapter 07)
  | sampleInstant (group beat : Nat)
  | sampleMessage (l : LaneId) (group : Nat)
  | sampleComputation (l : LaneId) (group beat : Nat)
  | onTimeJudgement (group : Nat) (complete : Nat) (beat : Nat)
  | judgementMessage (l : LaneId) (group : Nat)
  | outputPhase (l : LaneId) (group beat : Nat)
  | lateSample (l : LaneId) (group beat : Nat)
  | lateSampleWindow (l : LaneId) (group beat : Nat)
  -- metering (chapter 08)
  | blockCrc (l : LaneId) (beat : Nat)
  | windowEnd (beat : Nat)
  | windowMessage (l : LaneId)
  | pulseStart (output beat : Nat)
  | pulseEnd (output beat : Nat)
  -- network ports (chapter 10)
  | netFrameReceived (l : LaneId) (port : Nat) (f : Frame) (beat : Nat)
  | pauseTimerExpiry (l : LaneId) (port beat : Nat)
  | pauseRepeat (l : LaneId) (port beat : Nat)
  | pauseLong (l : LaneId) (port beat : Nat)
  | pauseCapped (l : LaneId) (port beat : Nat)
  | arpRequest (l : LaneId)
  | neighbourSolicitation (l : LaneId)
  | echoRequest (l : LaneId)
  | intakeInterval (beat : Nat)
  | prpSourceAgeout (l : LaneId) (pair : Nat) (mac : BitVec 48) (beat : Nat)
  | txFrameStart (l : LaneId) (port beat : Nat)
  | txUnderrun (l : LaneId) (port beat : Nat)
  | sfHoldEnd (l : LaneId) (port beat : Nat)
  | txAgedDrop (l : LaneId) (port beat : Nat)
  | prpSupervisionTimer (l : LaneId) (beat : Nat)
  | linkLoss (l : LaneId) (port : Nat)
  | speedDecision (l : LaneId) (port : Nat) (raise : Bool) (beat : Nat)
  | renegotiationTimeout (l : LaneId) (port beat : Nat)
  | lowerSuspendedEnd (l : LaneId) (port beat : Nat)
  | bulkSegment (l : LaneId)
  | bulkTimeout (l : LaneId) (part : Nat) (transfer : Nat) (beat : Nat)
  | eventResend (l : LaneId) (part beat : Nat)
  | subscriptionEnd (l : LaneId) (part beat : Nat)
  | spWrite (bytes : List Byte) (length : Nat) (complete : Bool)
  | spRead (complete : Bool)
  | spStatus
  -- field buses (chapter 11)
  | canFrameCapture (l : LaneId) (bus : Nat) (f : CanFrame) (sof : Nat)
  | canIntake (l : LaneId) (bus : Nat)
  | canTxTake (l : LaneId) (beat : Nat)
  | canTxComplete (l : LaneId) (bus mailbox : Nat)
  | canTxAged (l : LaneId) (bus beat : Nat)
  | busOff (l : LaneId) (bus beat : Nat)
  | busOffRecovery (l : LaneId) (bus : Nat)
  | recoveryWaitEnd (l : LaneId) (bus beat : Nat)
  | stuckDom (l : LaneId) (bus : Nat)
  -- calendar and keys (chapters 13 and 16)
  | rtcAlarm (n : Nat)
  | epochWrap
  | cellLow (millivolts : Nat)
  | kekRemask (mask : BitVec 256)
  | domainPowerOnReset
  | tamper (src : TamperSource)
  -- detectors (chapters 01 and 14)
  | completionDetection (l : LaneId) (group beat : Nat)
  | stallDetected (l : LaneId) (group beat : Nat)
  | testToken (l : LaneId) (group beat : Nat)
  | marginAlarm (l : LaneId) (domain beat : Nat)
  | clockLoss (l : LaneId) (island beat : Nat)
  | makerTestPin
  | eccError (l : LaneId) (bank : Nat) (uncorrectable : Bool) (passUs beat : Nat)
  | supervisorSelfTest (sup : Nat) (passed : Bool) (beat : Nat)
  | collectorDisagree (l : LaneId) (beat : Nat)
  | frontEndHeartbeatLoss (region beat : Nat)
  -- power and start (chapter 17)
  | coreSupplyStep (l : LaneId) (beat : Nat)
  | supplyWarning (beat : Nat)
  | finalSaveDone (l : LaneId) (beat : Nat)
  | warningCleared (beat : Nat)
  | vrstReset
  /-- the operand is the beat count at module start, which R245 makes 0 -/
  | resetRelease (beat : Nat)
  | bootComplete (l : LaneId) (slotVerified : Bool) (version : Nat) (stages : List (List Byte))
  | startupSelfTest (l : LaneId) (passed : Bool) (beat : Nat)
  | laneAnnouncement (l : LaneId) (beat : Nat)
  | pairingTimeout (l : LaneId) (beat : Nat)
  | startupConfiguration (l : LaneId)
  | startupFrontEnds (l : LaneId) (beat : Nat)
  | linkUp (l : LaneId) (port beat : Nat)
  | t3ClockRestored
  | decimatorBlock (l : LaneId) (vin iin : List Nat)
  | readbackFault (point beat : Nat)
  | frontEndRestart (region : Nat)
  | fieldSupplyRestored (region : Nat)
  | laneSupplyFault (l : LaneId) (beat : Nat)
  | canBusError (l : LaneId) (bus tec rec : Nat)
  | stuckDomCleared (l : LaneId) (bus : Nat)
  | flashWriteComplete (l : LaneId) (beat : Nat)
  | makerSessionOpen (signatureOk : Bool)
deriving DecidableEq, Repr

end Sys2Proof
end

