-- ==== Sys2Proof/Config.lean ====
section
/-! DEFINITION. What the spec leaves open and what other standards compute: constants without a body, so that no proof can
see their values. A statement about them holds for every value they may have. -/

namespace Sys2Proof.Config

/-- Key-stream byte `i` of AES-256-GCM under a key and nonce (R333; the algorithm is a published standard). -/
opaque gcmStream (key nonce : List Byte) (i : Nat) : Byte

/-- The AES-256-GCM tag over the additional data and the ciphertext (R333). -/
opaque gcmTag (key nonce aad text : List Byte) : BitVec 128

/-- AES-256 key wrap of a 40-byte content under the KEK (R517). -/
opaque kwWrap (kek : BitVec 256) (content : List Byte) : List Byte

/-- AES-256 key unwrap: the 40-byte content, or none when the integrity check fails (R517). -/
opaque kwUnwrap (kek : BitVec 256) (blob : List Byte) : Option (List Byte)

/-- The escrow key, derived from the fused device secret and LC_GEN (R515); the secret is a constant of the module. -/
opaque escrowKey (lcGen : BitVec 16) : BitVec 256


/-- The ECDSA P-384 signature of a digest by the identity key, deterministic as RFC 6979 makes it (R535). -/
opaque ecdsaSign (digest : BitVec 384) : BitVec 768

/-- The CREDIT field of a reply that no key protects: R343 gives it no value. -/
opaque unprotectedCredit : BitVec 16

/-- Draw `n` of the hardware random source, 256 bits (R518, R520). -/
opaque random (n : Nat) : BitVec 256

/-- The 64-bit digest of a value that the two lanes compare: commit, state and plan digests (R104, R105, R176). -/
opaque digest {α : Type} (x : α) : BitVec 64

/-- The value to which R251 scales a word when LO equals HI, which LOOP_CONFIG refuses and only a loop that was never
configured has. -/
opaque scaleDegenerate (word lo : Int) : Int

/-- The CRC-32 of a sample frame (R93) and of a shuttle message (R87): the spec gives neither a byte layout; assumption 21. -/
opaque frameCrc {α : Type} (x : α) : Word
opaque linkCrc {α : Type} (x : α) : Word

/-- Whether message `seq` that lane `from_` sends over sub-link `sub` arrives with a good CRC (R87): noise on the link, which no row
commands. -/
opaque linkGood (from_ sub : Nat) (seq : Word) : Bool

/-- The share of replicated state that a pre-copy has copied at a beat, 0 to 100 (Table 03-10); assumption 124. -/
opaque copyShare (beat : Nat) : Nat

/-- Draw `n` of a truth value that the spec leaves open. -/
opaque freeBool (n : Nat) : Bool

/-- The return address of the cycle executive, which ra holds at entry (R134): the spec gives it no value. -/
opaque execReturn : Word

/-- The instruction word of a fault record when the fetch itself fails at an address (R132, R133): the spec gives it no value. -/
opaque unfetched (pc : Word) : Word

/-- Byte `i` after the EtherType of a frame, where a received frame as the model holds it does not say (Table 12-7). -/
opaque frameByte {α : Type} (f : α) (i : Nat) : Byte

/-- The PICK field of the record that reports what the ring has overwritten (R509): the spec gives it no value. -/
opaque overrunPick (start : Nat) : Word

/-- The PICK field of the start record (R513), which no release writes: the spec gives it no value. -/
opaque startPick : Word

/-- PWR_VBUS: VBUS in mV as sampled in the given millisecond of the module beat count (Table 17-7); assumption 122. -/
opaque vbusMv (ms : Nat) : BitVec 16

/-- RTC_STAT.ON_BACKUP: whether the backup source feeds the always-on domain at the given calendar instant (R476);
assumption 122. -/
opaque backupFeeds (ms : Nat) : Bool

/-- What METER_LOSS_REPORT gives where R319 and R320 state no value: index 0 DT_MS, index 1 UNMETERED_MS, without a stamp or a
section; index 2 + c the LOSS of a circuit that is not enabled. -/
opaque lossOpen (index : Nat) : Nat

/-- The high-pass filter of a metering input (stage 1 of R294): first order, so its output follows from the sample before, the output
before and the sample; the spec gives its corner and not its arithmetic. -/
opaque highPass (xPrev yPrev x : Int) : Int

/-- A current sample shifted by a fraction of a sample, or to an earlier time (stage 3 of R294): the spec gives the shift `phase` in
1 / 4,096 sample and not the interpolation between the samples around it. -/
opaque phaseShift (phase : Int) (around : List Int) : Int

/-- Coefficient `j` of the 255-tap shifter of Table 08-3, in units of 2^-30: the spec gives the delay of 90° and not the taps. -/
opaque shifterTap (j : Nat) : Int

/-- Which of the values that Table 08-4 admits a metering quantity takes, given its exact value `num / den`; `kind` tells the quantity. -/
opaque meterValue (kind : Nat) (num den : Int) : Int

/-- BACKLOG of a pulse output whose ledger entry has no valid copy in either lane (Table 08-7): the metering section does not hold it. -/
opaque lostBacklog (output : Nat) : Word

/-- The value to which an exact quotient rounds where the spec does not name the rounding. -/
opaque roundChoice (num den : Int) : Bool

end Sys2Proof.Config
end

