-- ==== Sys2Proof/Machine/State.lean ====
section
/-! DEFINITION. The state of the TK512: the package (front-end dies, always-on domain, fuses, transport ports) and the two
lanes, each with its own copy of the replicated state of Table 03-1 and with its lane-local state. Plain data throughout.
A table with many equal entries is a `Tab`: index and value, indexes rising, no entry equal to the table's default. -/

namespace Sys2Proof.Machine

/-- A sparse table: index and value, indexes strictly rising, no value equal to the default its reader names. -/
abbrev Tab (α : Type) := List (Nat × α)

/-- A memory: bytes that are not 0, addresses strictly rising (an unlisted address reads as 0, assumption 2). -/
abbrev Mem := List Host.Cell

/-- Who requests a pick (R54). -/
inductive Requester where
  | core (n : Nat)
  | executive (part : Nat)
  | command (part : Nat) (seq : Word)
deriving DecidableEq, Repr

/-- A pick request on its way to the active lane (R53, R54). -/
structure PickReq where
  who : Requester
  count : Nat
  lane : LaneId
deriving DecidableEq, Repr

/-- What an event carries (Table 09-17, Table 11-5, Table 12-7). -/
inductive EventBody where
  | overflow (epoch : Word) (dropped : Nat)
  | point (point frame : Nat) (word stat : Word)
  | can (f : CanFrame) (stamp : Word) (pairB : Bool)
  /-- a network frame or service-port packet: LAN code of Table 12-7, frame if any, intake ring, UDP payload, the load
  generation stamped at intake, its source, and the beat at which it entered its stream -/
  | net (lan : Nat) (frame : Option Frame) (ring : Nat) (payload : List Byte) (keyGen : Option Word) (src : Source)
      (beat : Nat)
  | timer (symbol cycle : Nat)
  | loop (loop code : Nat) (sample : Word) (value : Word)
  | meter (subjType subj code : Nat) (window value : Word)
  | rtc (alarm ms : Nat)
  | fault (lane : LaneId) (cls bit scope index : Nat)
deriving DecidableEq, Repr

/-- An event of one of the 46 streams (R45, R49, Table 02-2). -/
structure Event where
  kind : Nat
  stream : Nat
  /-- partition concerned (Table 12-7, word 0) -/
  part : Nat
  /-- stream sequence number; 0 for kinds 2 and 3 -/
  seq : Word
  /-- lane whose entry point it passed, and its arrival index there -/
  lane : LaneId
  arrival : Nat
  body : EventBody
deriving DecidableEq, Repr

/-- What CLOSE(n) carries (R288, R355, R504). -/
structure CloseInfo where
  n : Word
  beat : Nat
  /-- newest agreed frame number of each region -/
  frames : List Nat
  /-- last committed cycle of each partition -/
  cycles : List Nat
  /-- module detail records the active lane has produced -/
  details : Nat
  /-- requests that this pick coalesced (R55) -/
  coalesced : Nat
deriving DecidableEq, Repr

/-- An epoch that is closed and not yet released in a lane (Table 02-3). -/
structure ClosedEpoch where
  info : CloseInfo
  events : List Event
  sent : Bool
  theirs : Option (List Event)
deriving DecidableEq, Repr

/-- A CAN identity in the discard memory and the lanes that have supplied it (R411). -/
structure CanIdentity where
  bus : Nat
  f : CanFrame
  byA : Bool
  byB : Bool
deriving DecidableEq, Repr

/-- A PRP source in the discard memory of a pair (R383). -/
structure PrpSource where
  mac : BitVec 48
  newest : BitVec 16
  seen : List (BitVec 16)
  lastBeat : Nat
deriving DecidableEq, Repr

/-- The PICK block and the pick state of a lane (Table 02-4, R61 to R67). -/
structure PickBlk where
  opened : Word := 1
  released : Word := 0
  latMax : Word := 0
  coalesced : Word := 0
  dup : Word := 0
  held : Word := 0
  solo : Word := 0
  holding : Bool := false
  /-- PICK_STAT.SOLO stays 1 from a join to the next pick (step 7 of Table 03-6) -/
  soloHold : Bool := false
deriving DecidableEq, Repr

/-- Force entry (Table 05-5); `state` (ACTIVE or HELD) is computed (R194). -/
structure Force where
  kind : Nat
  setter : Nat
  part : Nat
  target : Nat
  value : BitVec 64
  setPick : Word
deriving DecidableEq, Repr

/-- The word and status one unit had in an agreed frame (R205). -/
structure UnitView where
  word : Word := 0
  stat : Word := 0
  /-- the word that programs and loops see, and the word of the newest agreed frame before the unit went to its safe value: formed
  when a lane agrees the frame, so that both lanes see the same (R82, Table 06-5) -/
  seen : Word := 0
  good : Word := 0
deriving DecidableEq, Repr

/-- A sample frame (R93): number, the 64 units' words and status, and its CRC-32. -/
structure SFrame where
  number : Nat
  units : Tab UnitView
  crc : Word
deriving DecidableEq, Repr

/-- The PNT block of a lane (Table 06-13). -/
structure PntBlk where
  owner : Tab Nat := []
  scanDiv : Tab Nat := []
  /-- LIVE changes waiting for the region's next frame: point, cfg, param, safe (R237) -/
  pendingUnits : List (Nat × Word × Word × Word) := []
  pendingScan : Tab Nat := []
  pendingOwner : Tab Nat := []
  cfg : Tab Word := []
  param : Tab Word := []
  safe : Tab Word := []
  /-- units whose TYPE changed, with the frames their terminals stay high-impedance (R202) -/
  retyped : Tab Nat := []
  /-- newest agreed frame of each region, and the seven before it (R355) -/
  frames : Tab (List SFrame) := []
  testRuns : Word := 0
  testFails : Word := 0
  wres : Word := 0
deriving DecidableEq, Repr

/-- A literal record of a region configuration image (Table 06-7). -/
structure Literal where
  t : Nat := 0
  h : Nat := 0
  en : Bool := false
  pol : Bool := false
  faultValue : Bool := false
deriving DecidableEq, Repr

/-- A target record of a region configuration image (Table 06-7). -/
structure Target where
  localEn : Bool := false
  crossEn : Bool := false
  inhState : Bool := false
deriving DecidableEq, Repr

/-- A region configuration image (Table 06-7), with its CRC. -/
structure HedImage where
  format : Nat
  region : Nat
  literals : Tab Literal
  targets : Tab Target
  /-- local terms: term to its products (P, N) -/
  terms : Tab (List (BitVec 64 × BitVec 64))
  /-- cross-region terms: term to its products, each a list of (point, negated) -/
  cross : Tab (List (List (Nat × Bool)))
  crc : Word
  /-- the 8,976 bytes of the image -/
  raw : Mem := []
deriving DecidableEq, Repr

/-- A heddle commit in progress in a lane (Table 06-12). -/
structure HedCommit where
  image : HedImage
  expected : Word
  /-- step that goes on: 1 the comparison of the staged CRCs, 2 the write to flash, 3 the transfer, 4 verified, 5 switched -/
  step : Nat
  hdr : Hdr
  epoch : Word
  beat : Nat
deriving DecidableEq, Repr

/-- The HED block of a lane (Table 06-15). -/
structure HedBlk where
  staging : Tab (List (Nat × Byte)) := []
  staged : List Nat := []
  commit : Tab HedCommit := []
  image : Tab HedImage := []
  /-- the old image during the 2 µs overlap of step 5 -/
  old : Tab HedImage := []
  crc : Tab Word := []
  commits : Word := 0
  checks : Word := 0
  xmsg : Word := 0
  /-- newest literal vector of each region: number, plane A, plane B; absent after R227's timeout -/
  vectors : Tab (Nat × BitVec 64 × BitVec 64 × Nat) := []
  /-- terms last sent to each region -/
  sent : Tab (BitVec 64) := []
deriving DecidableEq, Repr

/-- A section's state (R254). -/
structure Section where
  i : Int := 0
  d : Int := 0
  x : Int := 0
deriving DecidableEq, Repr

/-- A change to a loop or group that waits for its sample (R248). -/
inductive LoopChange where
  | record (words : List Word) (owner : Nat)
  | cmd (v : Word)
  | sp (v : Word)
  | man (v : Word)
  | swap (bumpless : Bool)
  | clear (offset count : Nat)
  | write (offset : Nat) (samples : List (BitVec 16))
  | adapt (kl bm : Word) (cm : BitVec 16)
  | pin (item : Nat) (value : Option Word)
  | leave
  | group (period phase en : Nat)
  | pinDelay (v : Bool)
deriving DecidableEq, Repr

/-- What names a waiting change: a pick, or a cycle of a partition after one of its starts (R248). -/
inductive ChangeName where
  | pick (n : Word)
  | cycle (part start n : Nat)
deriving DecidableEq, Repr

/-- One loop of a lane: registers (Table 07-6) and engine state. -/
structure LoopSt where
  owner : Nat := 0
  /-- LOOP_REC as last written, and as in force (R248) -/
  recWords : List Word := []
  recNow : List Word := []
  bank0 : List Word := []
  bank1 : List Word := []
  active : Nat := 0
  gen : BitVec 16 := 0
  pending : Bool := false
  /-- the inactive bank has been written since the last swap -/
  written : Bool := false
  /-- LOOP_CMD, LOOP_SP and LOOP_MAN as last written -/
  cmd : Word := 0
  sp : Word := 0
  man : Word := 0
  /-- mode (0 OFF, 1 MANUAL, 2 AUTO), LEARN, setpoint and manual output in force -/
  mode : Nat := 0
  learnEn : Bool := false
  spNow : Int := 0
  manNow : Int := 0
  /-- mode at the last sample -/
  lastMode : Nat := 0
  out : Int := 0
  fbv : Int := 0
  res : Int := 0
  lstat : Word := 0
  s1 : Section := {}
  s2 : Section := {}
  clampHi : Bool := false
  clampLo : Bool := false
  yhat : Int := 0
  /-- driven words converted back, newest first (R272) -/
  history : List Int := []
  resCount : Nat := 0
  okCount : Nat := 0
  /-- causes of the plausibility and of the input fault present -/
  plaus : Bool := false
  inFault : Bool := false
  phase : Nat := 0
  takePhase : Bool := true
  learning : Bool := false
  /-- the bank that a swap at the present sample left, empty otherwise (R271) -/
  swapOld : List Word := []
  swapBumpless : Bool := false
  klEff : Word := 0
  bmEff : Word := 0
  cmEff : BitVec 16 := 0
  /-- sums of e² for the present and the last pattern period, and whether they are compared (R558) -/
  esum : Nat := 0
  esumLast : Option Nat := none
  skipCompare : Bool := true
  periodDone : Option (Nat × Nat) := none
  /-- sums over the present block of 64 samples: count, residual, product, disturbed (R559) -/
  blkCount : Nat := 0
  blkRes : Int := 0
  blkProd : Int := 0
  blkBad : Bool := false
  blkDone : Option (Int × Int) := none
  lastDriven : Int := 0
  safe : Bool := false
  reanchor : Bool := true
  wasTracking : Bool := false
  /-- a FAULT_ACK has cleared the loop's bits; it leaves its safe value at the next sample (R276) -/
  leaveSafe : Bool := false
  /-- a cluster move sets the loop to OFF after the sample that the lane has still to compute (R277) -/
  offDue : Bool := false
  devAlarm : Bool := false
  /-- START_OUT, until the first sample of a loop that starts in AUTO (R286) -/
  start : Option Int := none
  /-- word the loop writes to its OUT unit, once it has written one (R260) -/
  outWord : Option Word := none
  changes : List (ChangeName × LoopChange) := []
  lastSave : Option Nat := none
  pinKl : Option Word := none
  pinModel : Option Word := none
  /-- LOOP_STATUS records after the last samples: instant and 36 bytes, newest first (R288) -/
  shots : List (Nat × List Byte) := []
  /-- the pattern memory before each sample that changed the pattern: instant, PAT_BASE and contents, newest first (R288) -/
  past : List (Nat × Nat × Tab (BitVec 16)) := []
deriving DecidableEq, Repr

/-- The learning rate and the model parameters that the lane manager set for a loop at a pick (Table 07-1). -/
structure Adaptation where
  loop : Nat
  pick : Word
  kl : Word
  bm : Word
  cm : BitVec 16
deriving DecidableEq, Repr

/-- A sample message (Table 07-1). -/
structure SampleMsg where
  group : Nat
  sample : Nat
  instant : Nat
  frames : List Nat
  pick : Word
  /-- for each partition, its start and the last cycle committed since -/
  cycles : List (Nat × Nat)
  seconds : Nat
  weekday : Nat
  timeValid : Bool
  adapt : List Adaptation
deriving DecidableEq, Repr

/-- One loop group of a lane (R244, R281). -/
structure GroupSt where
  period : Nat := 1000
  /-- PHASE, EN and PIN_DELAY as last written, and as in force (R248) -/
  phase : Nat := 100
  en : Bool := false
  pinDelay : Bool := false
  phaseNow : Nat := 100
  enNow : Bool := false
  pinNow : Bool := false
  delayed : Bool := false
  onTime : Nat := 0
  fallbacks : Word := 0
  sample : Nat := 0
  instant : Nat := 0
  /-- the sample of the last instant is not computed in this lane -/
  awaiting : Bool := false
  /-- sample messages received and not computed -/
  msgs : List SampleMsg := []
  judged : Option Bool := none
  /-- the beat at which the judged sample's computation is complete (R283) -/
  complete : Nat := 0
  late : Option Nat := none
  /-- frames named by the previous sample -/
  frames : Option (List Nat) := none
  changes : List (ChangeName × LoopChange) := []
  /-- slack of each judged sample of the last 1,000 ms: the sample's instant and value, newest first (R285) -/
  slacks : List (Nat × Int) := []
deriving DecidableEq, Repr

/-- The LOOP block of a lane. -/
structure LoopBlk where
  en : Bool := false
  wres : Word := 0
  loops : Tab LoopSt := []
  groups : Tab GroupSt := []
  pattern : Tab (BitVec 16) := []
  /-- outputs computed and waiting for their phase: loop to u -/
  waiting : Tab Int := []
deriving DecidableEq, Repr

/-- One agreed block of an input: its number, its eight processed samples (stages 1 and 2 of R294), and which conditions of Table 08-2
its samples met. -/
structure MBlock where
  n : Nat
  ys : List Int
  stuck : Bool
  clip : Bool
deriving DecidableEq, Repr

/-- A sinc3 decimator (R292): three integrators and three combs, modulo 2^32. -/
structure Sinc3 where
  i1 : Word := 0
  i2 : Word := 0
  i3 : Word := 0
  c1 : Word := 0
  c2 : Word := 0
  c3 : Word := 0
deriving DecidableEq, Repr

/-- One metering input (R294, R295). -/
structure MInput where
  fs : Word := 0
  trim : Word := 0
  stuck : Bool := false
  clip : Bool := false
  freqRange : Bool := false
  /-- consecutive agreed samples at positive and at negative full scale, and clipped (Table 08-2) -/
  runHi : Nat := 0
  runLo : Nat := 0
  runClip : Nat := 0
  /-- the filter's last sample in and out (stage 1 of R294) -/
  xPrev : Int := 0
  yPrev : Int := 0
  /-- the last agreed blocks, oldest first -/
  blocks : List MBlock := []
deriving DecidableEq, Repr

/-- The quantities of one window (Table 08-3); `power` is P in units of 10 mW / 2^24, from which energy accumulates. -/
structure Quantities where
  power : Int := 0
  vrms : Int := 0
  irms : Int := 0
  p : Int := 0
  q : Int := 0
  s : Int := 0
  pf : Int := 0
  f : Int := 0
deriving DecidableEq, Repr

/-- One metering circuit (R296 to R308). -/
structure Circuit where
  cfg : Word := 0
  noload : Word := 0
  owner : Nat := 0
  weight : Nat := 0
  acc : Int := 0
  frac : Nat := 0
  exp : Nat := 0
  expFrac : Nat := 0
  wrap : Bool := false
  isNoload : Bool := false
  inputFault : Bool := false
  computing : Bool := false
  unmeasured : Nat := 0
  quant : Quantities := {}
  impIssued : Word := 0
  impReleased : Word := 0
  expIssued : Word := 0
  expReleased : Word := 0
  started : Bool := false
deriving DecidableEq, Repr

/-- One physical pulse output (R310 to R314). -/
structure PulseOut where
  cfg : Word := 0
  backlog : Nat := 0
  saturated : Bool := false
  on : Bool := false
  onBeat : Nat := 0
  offBeat : Option Nat := none
deriving DecidableEq, Repr

/-- What a METER_CONFIG or METER_RESET_ACCUM leaves for step 4 of R301. -/
inductive MeterChange where
  | item (i : MeterItem)
  | reset (circuit : Nat) (hdr : Hdr) (epoch : Word)
  | enable (en : Bool)
deriving DecidableEq, Repr

/-- The NRG block of a lane (Table 08-10). -/
structure NrgBlk where
  en : Bool := false
  wres : Word := 0
  window : Nat := 0
  mismatch : Word := 0
  vin : Tab MInput := []
  iin : Tab MInput := []
  circuits : Tab Circuit := []
  pulses : Tab PulseOut := []
  /-- last written values that wait for step 4 -/
  changes : List (Word × MeterChange) := []
  pendingOwner : Tab Nat := []
  blockNo : Nat := 0
  /-- own blocks that wait for their comparison, oldest first -/
  blocks : List (Nat × List (List Int) × List (List Int)) := []
  mismatches : List Nat := []
  /-- circuits as they stood after each of the last 32 windows, newest first -/
  history : List (Nat × Tab Circuit) := []
  lossDt : Nat := 0
  unmeteredMs : Nat := 0
  lossFinal : Bool := false
  /-- per circuit: |P| in 10 mW, loss in µWh (none: unknown), import set to 0, export set to 0, exports -/
  loss : Tab (Nat × Option Nat × Bool × Bool × Bool) := []
  stampMs : Option Nat := none
deriving DecidableEq, Repr

/-- The configuration of one PRP pair (R404). -/
structure PairCfg where
  mac : BitVec 48 := 0
  vlan : Word := 0
  ipv4 : Word := 0
  ipv6 : BitVec 128 := 0
  prefixLen : Nat := 0
  speed : Nat := 0
deriving DecidableEq, Repr

/-- A frame or bulk segment posted to a transmit ring (R373, R374). -/
structure TxEntry where
  ring : Nat
  beat : Nat
  prpSeq : BitVec 16
  ipId : BitVec 16
  dst : Source
  /-- UDP source port, or 0 for a frame that is no UDP datagram -/
  sport : Nat
  payload : List Byte
  resend : Bool := false
  /-- the pair's configuration when the entry was posted (R404) -/
  cfg : PairCfg := {}
  /-- the frame as it left a port, from its destination address to its FCS; empty until then (R371, R380, R381) -/
  wire : List Byte := []
deriving DecidableEq, Repr

/-- One network port of a lane (Table 10-5). -/
structure PortSt where
  /-- NET_CTL.EN and the pair's configuration, as in force at the port since its last frame boundary -/
  en : Bool := false
  pair : PairCfg := {}
  ctl : Word := 0x00324B0E#32
  pendingCtl : Option Word := none
  link : Bool := false
  speed10 : Bool := false
  reneg : Option (Nat × Bool) := none
  speedBeat : Nat := 0
  lowerSuspended : Option Nat := none
  sfHold : Option Nat := none
  underruns : List Nat := []
  paused : Option Nat := none
  pausedSince : Option Nat := none
  pauseLong : Bool := false
  pausing : Bool := false
  pauseSent : Option Nat := none
  pauseFirst : Option Nat := none
  pauseCapped : Bool := false
  /-- pause_time of the PAUSE frames that the port has sent, newest first -/
  pauseOut : List Nat := []
  pin : Option Nat := none
  lowServed : Nat := 0
  sending : Option TxEntry := none
  unprotected : Nat := 0
  arpCount : Nat := 0
  icmpCount : Nat := 0
  rxFrames : Word := 0
  rxFcsErr : Word := 0
  rxSizeErr : Word := 0
  rxFilterDrop : Word := 0
  rxHdrDrop : Word := 0
  rxRingDrop : Word := 0
  rxSkelkanDrop : Word := 0
  rxPause : Word := 0
  rxSupervision : Word := 0
  txFrames : Word := 0
  txUnderrun : Word := 0
  txAgedDrop : Word := 0
  txLinkDrop : Word := 0
  txPause : Word := 0
  prpEvict : Word := 0
  speedChanges : Word := 0
deriving DecidableEq, Repr

/-- The NET block of a lane. -/
structure NetBlk where
  ctl : Word := 0
  port0 : PortSt := {}
  port1 : PortSt := {}
  estate : PairCfg := {}
  floor : PairCfg := {}
  filtVlan : Tab Word := []
  filtAct : Tab Word := []
  prpSeq0 : BitVec 16 := 0
  prpSeq1 : BitVec 16 := 0
  ipId0 : BitVec 16 := 0
  ipId1 : BitVec 16 := 0
  supSeq0 : BitVec 16 := 0
  supSeq1 : BitVec 16 := 0
  supNext : Nat := 200000000
  /-- 2 s boundary whose supervision frames the next pick posts (R382) -/
  supDue : Option Nat := none
deriving DecidableEq, Repr

/-- A frame held in a receive mailbox, shadow or FIFO (Table 11-4). -/
structure CanHeld where
  f : CanFrame
  index : BitVec 24
  stamp : Word
deriving DecidableEq, Repr

/-- A receive mailbox (R413 to R416). -/
structure RxMailbox where
  id : Word := 0
  mask : Word := 0
  content : Option CanHeld := none
  shadow : Option CanHeld := none
  locked : Bool := false
deriving DecidableEq, Repr

/-- A transmit mailbox (R423). -/
structure TxMailbox where
  id : Word := 0
  mask : Word := 0
  content : Option (CanFrame × Nat) := none
deriving DecidableEq, Repr

/-- One bus of a lane's CAN block (Table 11-7). -/
structure BusSt where
  ctl : Word := 0
  nbt : Word := 0
  dbt : Word := 0
  tdc : Word := 0
  /-- CAN_PAIR_STAT.STATE -/
  state : Nat := 3
  recovering : Bool := false
  stuck : Bool := false
  /-- receive index of the frame that waits at the entry point of the stream and is counted as held back (R67, R418) -/
  heldIndex : Option (BitVec 24) := none
  tec : Nat := 0
  recCnt : Nat := 0
  seq : BitVec 8 := 0
  offBeats : List Nat := []
  waitUntil : Option Nat := none
  nextIndex : BitVec 24 := 0
  rx : Tab RxMailbox := []
  tx : Tab TxMailbox := []
  fifo : List CanHeld := []
  /-- taken frames and the beat at which each was posted to ring 61 -/
  queue : List (CanFrame × Nat) := []
  rxFrames : Word := 0
  rxNoMatch : Word := 0
  rxFifoDrop : Word := 0
  rxOverwrite : Word := 0
  txFrames : Word := 0
  txBad : Word := 0
  txQfullDrop : Word := 0
  txAgedDrop : Word := 0
  txOffDrop : Word := 0
  busoff : Word := 0
deriving DecidableEq, Repr

/-- The CAN block of a lane. -/
structure CanBlk where
  wres : Word := 0
  bus : Tab BusSt := []
deriving DecidableEq, Repr

/-- The fault collector of a lane (Table 14-12). `sticky` and `cause` list bit numbers, rising. -/
structure FltBlk where
  sticky : List Nat := []
  cause : List Nat := []
  nevEn : Bool := true
  pendingNev : Option Bool := none
  nCount : Word := 0
  lCount : Word := 0
  sCount : Word := 0
  corrCount : Word := 0
  scrubMax : Word := 0
  tokenMax : Word := 0
  halted : Bool := false
  dupOk : Bool := true
deriving DecidableEq, Repr

/-- A record of the recorder (Table 15-1). -/
structure RecRecord where
  seq : Nat
  pick : Word
  source : Nat
  part : Nat
  all : Bool
  kind : Nat
  payload : List Byte
deriving DecidableEq, Repr

/-- A module detail record or recorder note that waits to be written (R504). -/
structure PendingRec where
  source : Nat
  part : Nat
  kind : Nat
  cycle : Nat := 0
  payload : List Byte
deriving DecidableEq, Repr

/-- The recorder of a lane (chapter 15). -/
structure RecBlk where
  records : List RecRecord := []
  next : Nat := 1
  frozen : Bool := false
  autoThawed : Bool := false
  frozenLost : Nat := 0
  firstLost : Option Word := none
  lastLost : Word := 0
  freezeBeat : Nat := 0
  gaps : Word := 0
  wres : Word := 0
  /-- REC_CTL.FREEZE as last written, until the next pick release -/
  pendingFreeze : Option Bool := none
  notes : List PendingRec := []
  details : List PendingRec := []
  detailsMade : Nat := 0
  detailsWritten : Nat := 0
deriving DecidableEq, Repr

/-- A key slot (R521, R522). -/
structure Slot where
  /-- key, USE, PART, KEY_ID, KEK generation at the load -/
  key : Option (List Byte × Nat × Nat × Word × Word) := none
  loadGen : Word := 0
deriving DecidableEq, Repr

/-- The KEY block of a lane. -/
structure KeyBlk where
  wres : Word := 0
  enclEn : Bool := false
  pendingEncl : Option Bool := none
  slots : Tab Slot := []
  loads : Word := 0
  authFails : Word := 0
  remasks : Word := 0
  /-- MEAS[0] to MEAS[7]; an absent entry is 48 zero bytes (R532) -/
  meas : Tab (List Byte) := []
  signed : List Nat := []
deriving DecidableEq, Repr

/-- The PWR block of a lane (Table 17-6). -/
structure PwrBlk where
  warn : Bool := false
  saving : Bool := false
  finalDone : Bool := false
  firstSaveDone : Bool := false
  sup0Ok : Bool := false
  sup1Ok : Bool := false
  wres : Word := 0
  vwarn : Nat := 180
  pendingVwarn : Option Nat := none
  core : Nat := 900
  floor : Nat := 900
  pinEn : Bool := false
  pinMv : Nat := 900
  pendingPin : Option (Bool × Nat) := none
  resetCause : Nat := 0
  lastSaveUs : Word := 0
  startMs : Word := 0
  warns : Word := 0
  finalSaves : Word := 0
  finalSkipped : Word := 0
  coreSteps : Word := 0
  savePeriod : Nat := 1000
  stepBeat : Nat := 0
  /-- beats of the last occurrence that asks for a higher supply, and of the last that forbids a lower one (R555) -/
  hotBeat : Option Nat := none
  warmBeat : Option Nat := none
  marginBeat : Option Nat := none
deriving DecidableEq, Repr

/-- LANE_ROLE.STATE (Table 03-10). -/
inductive Role where
  | off
  | selftest
  | transfer
  | standby
  | active
  | halted
deriving DecidableEq, Repr

/-- The LANE block of a lane (Table 03-9). -/
structure LaneBlk where
  role : Role := .off
  /-- in HALTED: whether the lane was the active one (R493) -/
  haltedActive : Bool := false
  prefer : Nat := 0
  holdoff : Nat := 60
  pendingPrefer : Option (Nat × Nat) := none
  preferCount : Nat := 0
  holdElapsed : Nat := 0
  holdBeat : Option Nat := none
  sub0 : Bool := false
  sub1 : Bool := false
  sub0Beat : Nat := 0
  sub1Beat : Nat := 0
  barred : Bool := false
  imgMismatch : Word := 0
  imgUnresolved : Word := 0
  outDisagree : Word := 0
  digestMismatch : Word := 0
  switchovers : Word := 0
  takebacks : Word := 0
  rejoinFails : Word := 0
  lastCause : Word := 0
  /-- state digest of the newest cycle start of partition 0, and that start's number (R105) -/
  digest : BitVec 64 := 0
  digestNo : Nat := 0
  /-- the lane's state digest of the last comparison (R125) -/
  compared : BitVec 64 := 0
  /-- step of Table 03-6 in progress, 0 for none -/
  rejoinStep : Nat := 0
  rejoinFailBeats : List Nat := []
  percent : Nat := 0
  heartbeat : Bool := false
  hbBeat : Nat := 0
  gatesClosed : Bool := true
  linkErrBeats : List Nat := []
  unresolvedBeats : List Nat := []
  lBeat : Option Nat := none
  digestDiff : Option Nat := none
  /-- the partner has been in service since the lane last acted on its departure -/
  paired : Bool := false
  /-- partitions whose final copy, and groups whose engine state, has arrived (steps 5 and 6) -/
  copiedParts : List Nat := []
  copiedGroups : List Nat := []
deriving DecidableEq, Repr

/-- An entry of a ring: its bytes, whether it is visible, and the epoch it belongs to. -/
structure RingEntry where
  bytes : List Byte
  epoch : Word := 0
  visible : Bool := true
  /-- beat at which a CAN transmit entry was posted (R424) -/
  posted : Nat := 0
deriving DecidableEq, Repr

/-- One ring (R449, Table 12-10). -/
structure Ring where
  entries : List RingEntry := []
  /-- slots consumed by the lane manager and not yet returned (R453) -/
  consumed : List Nat := []
  posted : Word := 0
  taken : Word := 0
  drop : Word := 0
  dropping : Bool := false
  /-- pending overflow marker: first epoch and count (R76) -/
  marker : Option (Word × Nat) := none
deriving DecidableEq, Repr

/-- One instance of a mailbox (R441). -/
structure Mbx where
  sel : Word := 0
  selHi : Word := 0
  valid : Bool := false
  frozen : Option Nat := none
  capture : Option (List Word) := none
  data : List Word := []
deriving DecidableEq, Repr

/-- The blocks of a lane that registers show. -/
structure Blocks where
  pick : PickBlk := {}
  pnt : PntBlk := {}
  hed : HedBlk := {}
  loop : LoopBlk := {}
  nrg : NrgBlk := {}
  net : NetBlk := {}
  can : CanBlk := {}
  flt : FltBlk := {}
  recd : RecBlk := {}
  key : KeyBlk := {}
  pwr : PwrBlk := {}
  lane : LaneBlk := {}
  rings : Tab Ring := []
deriving DecidableEq, Repr

/-- The calendar (R460). -/
structure Calendar where
  date : DateTime := ⟨2000, 1, 1, 0, 0, 0⟩
  sub : Nat := 0
deriving DecidableEq, Repr

/-- An alarm of the always-on domain (R473). -/
structure Alarm where
  minute : Nat := 0
  en : Bool := false
  rep : Nat := 0
  missed : Bool := false
deriving DecidableEq, Repr

/-- A write posted into the calendar's island (R438): the lane that posted it, the words it carries (two for a time set), and
the command that asked for it. -/
structure Post where
  lane : LaneId
  reg : PwReg
  words : List Word
  hdr : Option Hdr := none
  /-- a committed write of an application core, which leaves WRES as it is (R440, R475) -/
  core : Bool := false
deriving DecidableEq, Repr

/-- The always-on domain (chapters 13 and 16). -/
structure Domain where
  cal : Calendar := {}
  timeValid : Bool := false
  timeLost : Bool := false
  kekLost : Bool := false
  epochWrap : Bool := false
  t3Lost : Bool := false
  cellLow : Bool := false
  trim : Int := 0
  /-- trim in force in the present window -/
  trimNow : Int := 0
  trimPos : Nat := 0
  chg : Word := 0
  alarms : Tab Alarm := []
  /-- the two shares of the KEK (R516): M and KEK xor M -/
  kek : Option (BitVec 256 × BitVec 256) := none
  bank : Nat := 0
  kekGen : Word := 0
  latched : Bool := false
  tamperSrc : Word := 0
  /-- sources tripped now -/
  tripped : List TamperSource := []
  /-- power-fail stamp in ms since 2000; `none` is void -/
  stamp : Option Nat := none
  busy : List Post := []
  enclOhm : Nat := 1000
deriving DecidableEq, Repr

/-- Ordering codes (Table 00-1). -/
inductive Order where
  | m00
  | m32
  | m96
deriving DecidableEq, Repr

/-- A consistent set of register values of one lane: what its READY carries for the cores of a partition (R79, R82, R139), and
what the lane manager's own reads see. -/
structure Snap where
  blk : Blocks
  dom : Domain
  beat : Nat
  serial : BitVec 64
  order : Order
  /-- SYS_MODULE_ID, SYS_ORDER, SYS_LIFECYCLE, SYS_FW_VERSION and SYS_STAT -/
  sys : List Word
  /-- PICK_STAT, LANE_ROLE, LANE_LINK, LANE_BUS_REACH, LANE_XFER and KEY_STAT -/
  shown : List Word
  /-- literals, local terms and cross-region terms of each region (R242) -/
  hed : List (BitVec 64 × BitVec 64 × BitVec 64)
  /-- running image digests of the partitions -/
  digests : List (List Byte)
  /-- RTC_BUSY, RTC_WRES, RTC_SET_0 and RTC_SET_1 -/
  rtc : List Word
  /-- NET_PORT_STAT, NET_PAUSE_LEFT and NET_RING_FILL of ports 0 and 1 -/
  ports : List Word
  /-- free slots of each ring -/
  free : List Nat
  /-- a pattern is being written to flash -/
  saving : Bool
  halted : Bool
deriving DecidableEq, Repr

/-- A symbol of a program image (Table 04-14). -/
structure Symbol where
  id : Nat
  sig : Word
  kind : Nat
  region : Nat
  offset : Nat
deriving DecidableEq, Repr

/-- A program image (Table 04-13). -/
structure Image where
  gen : BitVec 16
  part : Nat
  requiresTime : Bool
  warm : Bool
  entry : Nat
  minCycle : Nat
  watchdog : Nat
  code : List Byte
  data : List Byte
  zeroSize : Nat
  stackSize : Nat
  retainSize : Nat
  retainSig : Word
  retainInit : List Byte
  symbols : List Symbol
  digest : List Byte
deriving DecidableEq, Repr

/-- Partition states (Table 04-10). -/
inductive PartState where
  | noProgram
  | stopped
  | waitTime
  | starting
  | running
  | safe
deriving DecidableEq, Repr

/-- What a core is doing. -/
inductive CoreRun where
  | idle
  | running
  | returned
  /-- wrote PICK_REQ.REQ = 1, and the active lane has not accepted its request yet (R80) -/
  | asking
  /-- inside a PICK call that made the request with this count (R135) -/
  | waiting (count : Nat)
deriving DecidableEq, Repr

/-- One application core of a lane. -/
structure Core where
  run : CoreRun := .idle
  pc : Word := 0
  regs : Tab Word := []
  mem : Mem := []
  /-- write buffer: word address to value (R147) -/
  wbuf : Tab Word := []
  ticket : Word := 0
  count : Nat := 0
  pickCalls : Nat := 0
  waitStart : Nat := 0
  waited : Nat := 0
deriving DecidableEq, Repr

/-- A restart that waits for its cycle boundary (R164): mode 0 configured, 1 cold, 2 warm; mask 0 keeps the grant; cause 0
for a RESTART command, else the cause code of Table 04-12. -/
structure RestartReq where
  mode : Nat
  mask : BitVec 16
  cause : Nat
deriving DecidableEq, Repr

/-- An on-line exchange in progress (Table 05-2). `installed`: the partition runs the new image, which becomes the running image at
the commit of cycle m. -/
structure Exchange where
  hdr : Hdr
  epoch : Word
  beat : Nat
  image : Image
  staged : Bool := false
  theirs : Option (BitVec 64) := none
  boundary : Option Nat := none
  installed : Bool := false
  retainDiscarded : Bool := false
  mismatches : Nat := 0
  dropped : Nat := 0
deriving DecidableEq, Repr

/-- What a periodic or final save holds of one partition (Tables 04-9 and 04-17). -/
structure SavedPart where
  state : PartState
  gen : BitVec 16
  retainSig : Word
  cycle : Nat
  grant : BitVec 16
  warm : Bool
  held : Mem
  hasProgram : Bool
deriving DecidableEq, Repr

/-- What a partition's restart restores: its descriptor, held region addressed from 0, the RTC time of the capture if that is
valid, and whether the final area's pages were overlaid. -/
structure Restored where
  desc : SavedPart
  held : Mem
  ms : Option Nat
  final : Bool
deriving DecidableEq, Repr

/-- Where a partition stands in its cycle (Table 04-4). -/
inductive Phase where
  /-- between cycles -/
  | idle
  /-- READY sent for the next cycle -/
  | ready
  /-- joint start done, the request for the cycle's pick sent -/
  | asked
  /-- the cycle's ticket is known -/
  | pick
  /-- step 5 -/
  | run
deriving DecidableEq, Repr

/-- What a lane's READY carries: the partition's restarts so far, cycle, start stamp in µs, previous run time in µs, and the register
values (R79, R90, R139). `started`: the stamp is that of the sender's joint start. -/
structure ReadyInfo where
  starts : Nat
  cycle : Nat
  stamp : Nat
  started : Bool
  run : Nat
  snap : Snap
deriving DecidableEq, Repr

/-- One partition of a lane (chapter 04). -/
structure Part where
  state : PartState := .noProgram
  grant : BitVec 16 := 0
  current : Option Image := none
  loaded : Option Image := none
  /-- number of the last committed cycle since the last restart -/
  cycle : Nat := 0
  phase : Phase := .idle
  readyBeat : Nat := 0
  own : Option ReadyInfo := none
  theirs : Option ReadyInfo := none
  /-- restarts that have taken effect -/
  starts : Nat := 0
  /-- the partner's stamp of the present cycle's start has still to come (R139) -/
  stampDue : Bool := false
  /-- beat at which the partner was found late (R91) -/
  late : Option Nat := none
  /-- requests of the cycle executive (R54), the ticket of the cycle's pick and the visible epoch (R137) -/
  execCount : Nat := 0
  ticket : Word := 0
  visible : Word := 0
  startBeat : Nat := 0
  startStamp : Nat := 0
  prevStamp : Nat := 0
  runBeat : Nat := 0
  /-- own run time of step 5 of the last cycle, in µs -/
  ownRun : Nat := 0
  lastCycle : Nat := 0
  maxCycle : Nat := 0
  lastRun : Nat := 0
  maxRun : Nat := 0
  overruns : Nat := 0
  faults : Nat := 0
  cause : Nat := 0
  flags : Nat := 0
  saveAge : Word := 0
  /-- the present or next cycle is the first after a restart -/
  first : Bool := false
  /-- it was in SAFE since its last restart -/
  wasSafe : Bool := false
  /-- the restart kept a capture: its RTC time in ms, if that is valid -/
  captureMs : Option (Option Nat) := none
  /-- shared window and held region, addressed from 0 -/
  shared : Mem := []
  /-- the executive's writes to the held region in this cycle: offset and byte (R155, R192) -/
  overlay : List (Nat × Byte) := []
  /-- the fresh-edge map is to be cleared at the next commit (R185) -/
  freshSet : Bool := false
  /-- input words of the cycle's snapshot, forces applied -/
  inputs : Tab Word := []
  /-- PNT_UNIT_STAT as the frames of the cycle's snapshot carried it (R205) -/
  inStat : Tab Word := []
  /-- frame numbers of the last snapshot, with its cycle (R96) -/
  snapFrames : Option (Nat × List Nat) := none
  posts : List (List Byte) := []
  freeAtStart : Nat := 0
  timerEvents : List Nat := []
  snap : Option Snap := none
  /-- forces that apply to the cycle: those in the table when its step-2 pick was released (R191) -/
  forces : List Force := []
  restart : Option RestartReq := none
  exch : Option Exchange := none
  digest : BitVec 64 := 0
  /-- the capture that start-up restored for a partition that waits for the time (R160, R165) -/
  boot : Option Restored := none
deriving DecidableEq, Repr

/-- A kept reply of the replay cache (R339): the command and its reply bytes. -/
structure Kept where
  seq : Word
  hdr : Hdr
  op : Op
  reply : Option (List Byte)
deriving DecidableEq, Repr

/-- An operation that answers later (R348). -/
inductive Waiting where
  /-- the epoch that the PICK field names (R345) -/
  | epoch
  /-- a PICK command whose request the active lane has not accepted, and one that has its ticket (R54, R57) -/
  | pickTicket
  | ticket (n : Word)
  | saveDone (save : Nat)
  | partStart (part : Nat)
  | exchange (part : Nat)
  | heddle (region : Nat)
  | meter (circuit : Nat)
  | transfer (part id : Nat)
  | flash
  | timeSet
  /-- the partner's capture or named value (R322, R347, R466), and a window that the lane has still to complete (R322) -/
  | capture
  | window (w : Nat)
  | swap (loop : Nat)
deriving DecidableEq, Repr

/-- An accepted command that has no final reply yet. -/
structure Outstanding where
  hdr : Hdr
  op : Op
  epoch : Word
  beat : Nat
  why : Waiting
  pendingSent : Bool := false
  /-- the beat of acceptance: the release of the epoch that carried it (R344) -/
  accepted : Nat := 0
deriving DecidableEq, Repr

/-- An event packet that is not yet acknowledged (R364). -/
structure EventPacket where
  seq : Word
  bytes : List Byte
  first : Nat
  last : Nat
deriving DecidableEq, Repr

/-- A subscription (R362). -/
structure Subscription where
  via : Via
  src : Source
  enc : Bool := true
  kinds : Nat
  unacked : List EventPacket := []
  unsent : List (Word × List Byte) := []
  dropped : Nat := 0
  dropEpoch : Word := 0
deriving DecidableEq, Repr

/-- A bulk transfer into the module (R366). -/
structure Transfer where
  id : Nat
  total : Nat
  /-- the bytes that have arrived, by offset -/
  bytes : Tab Byte
  opened : Nat
  last : Nat
  hdr : Hdr
  op : Op
  epoch : Word
deriving DecidableEq, Repr

/-- What a partition's senders hold in the module (chapter 09). -/
structure Sender where
  high : Word := 0
  /-- SEQ values from H − 63 to H that are marked -/
  marked : List Nat := []
  kept : List Kept := []
  credit : Nat := 0
  sub : Option Subscription := none
  eventSeq : Word := 1
  bulkSeq : Word := 1
  bulkHigh : Word := 0
  bulkMarked : List Nat := []
  transfers : List Transfer := []
deriving DecidableEq, Repr

/-- The metering section of a save (Table 08-6): the state after window `window`, and the CRC-32 that was written with it. -/
structure MeterSection where
  window : Nat
  timeMs : Nat
  valid : Bool
  order : Order
  circuits : Tab Circuit
  crc : Word
deriving DecidableEq, Repr

/-- A record that MRAM keeps in two alternating copies, each with its CRC-32 (R316, R340, R506). -/
structure Twin (α : Type) where
  copy0 : α
  crc0 : Word
  copy1 : α
  crc1 : Word
  /-- copy 1 is the one written last -/
  second : Bool := false
deriving DecidableEq, Repr

/-- The pulse numbers of a circuit in the ledger (R316). -/
structure PulseNos where
  impIssued : Word := 0
  impReleased : Word := 0
  expIssued : Word := 0
  expReleased : Word := 0
deriving DecidableEq, Repr

/-- The sequence reservation of a partition (R340): the command high-water mark H, the next event and the next bulk-out SEQ. -/
structure SeqRes where
  high : Nat := 0
  event : Nat := 0
  bulk : Nat := 0
deriving DecidableEq, Repr

/-- A save in MRAM (R156). -/
structure Save where
  number : Nat
  base : Nat := 0
  timeMs : Nat
  valid : Bool
  parts : Tab SavedPart
  /-- held pages in a final save: (partition, page) -/
  pages : List (Nat × Nat) := []
  program : Bool := true
  section_ : Option MeterSection
  tail : List RecRecord := []
  frozen : Bool := false
  frozenLost : Nat := 0
  complete : Bool
deriving DecidableEq, Repr

/-- The MRAM of a lane (Table 04-8). -/
structure Mram where
  area0 : Option Save := none
  area1 : Option Save := none
  final : Option Save := none
  /-- the pulse ledger: numbers by circuit, BACKLOG by output; an entry not listed is as the maker wrote it, all 0 -/
  ledger : List (Nat × Twin PulseNos) := []
  backlog : List (Nat × Twin Nat) := []
  /-- sequence reservations by partition, and the recorder's -/
  seqs : List (Nat × Twin SeqRes) := []
  recNext : Option (Twin Nat) := none
deriving DecidableEq, Repr

/-- A wrapped blob stored in flash with the USE and PART it gave (R358). -/
structure StoredBlob where
  blob : List Byte
  use : Nat
  part : Nat
deriving DecidableEq, Repr

/-- What a loop's configuration is in flash (R286). -/
structure LoopCfg where
  recWords : List Word
  owner : Nat
  bank0 : List Word
  bank1 : List Word
  active : Nat
  gen : BitVec 16
deriving DecidableEq, Repr

/-- A saved pattern (R268). -/
structure SavedPattern where
  len : Nat
  period : Nat
  anchor : Nat
  samples : List (BitVec 16)
deriving DecidableEq, Repr

/-- A heddle record in flash (R233, R551). -/
structure HedRecord where
  image : HedImage
  version : Nat
  valid : Bool
deriving DecidableEq, Repr

/-- A stored program image with its digest record (R167). -/
structure StoredImage where
  image : Image
  /-- the image's bytes, and its digest record: SHA-384 digest and the identity key's signature of it -/
  bytes : List Byte
  record : List Byte
  signature : List Byte
deriving DecidableEq, Repr

/-- The stored metering configuration (R325): full scale and trim of each input; circuit fields, no-load threshold, weight and
owner of each circuit; pulse output fields. -/
structure MeterStore where
  vin : Tab (Word × Word) := []
  iin : Tab (Word × Word) := []
  circuits : Tab (Word × Word × Nat × Nat) := []
  pulses : Tab Word := []
deriving DecidableEq, Repr

/-- The stored configuration of a bus: control and timing words, and the ID and mask words of its mailboxes (R431). -/
structure CanStore where
  ctl : Word := 0
  nbt : Word := 0
  dbt : Word := 0
  tdc : Word := 0
  rx : Tab (Word × Word) := []
  tx : Tab (Word × Word) := []
deriving DecidableEq, Repr

/-- The flash of a lane. -/
structure Flash where
  moduleId : Word := 0
  vwarn : Option Nat := none
  savePeriod : Option Nat := none
  chg : Option Word := none
  enclEn : Option Bool := none
  portCtl0 : Option Word := none
  portCtl1 : Option Word := none
  nevEn : Option Bool := none
  trim : Option Int := none
  alarms : Tab Alarm := []
  prefer : Option (Nat × Nat × Nat) := none
  owner : Tab Nat := []
  cfg : Tab Word := []
  param : Tab Word := []
  safe : Tab Word := []
  heddle : Tab (List HedRecord) := []
  loops : Tab LoopCfg := []
  groups : Tab (Nat × Nat × Bool) := []
  patterns : Tab SavedPattern := []
  meter : MeterStore := {}
  estate : PairCfg := {}
  floor : PairCfg := {}
  /-- NET_FILT_VLAN and NET_FILT_ACT of both ports, once they are stored (R393, R405) -/
  filters : Option (Tab Word × Tab Word) := none
  can : Tab CanStore := []
  blobs : Tab StoredBlob := []
  running : Tab StoredImage := []
  loaded : Tab StoredImage := []
  tables : Tab (List (BitVec 16 × List Symbol)) := []
  pins : List (Nat × Nat × Word) := []
  kekGenMax : Nat := 0
deriving DecidableEq, Repr

/-- A checked image on its way to a load slot, and the PROGRAM_LOAD that brought it (R534). -/
structure NewImage where
  part : Nat
  image : Image
  bytes : List Byte
  hdr : Hdr
deriving DecidableEq, Repr

/-- A flash or MRAM write of the lane manager that is in progress (R498). -/
inductive FlashJob where
  /-- the configuration as it then stands -/
  | config
  | pattern (loop : Nat)
  | image (i : NewImage)
  | blob (slot : Nat) (b : Option StoredBlob)
deriving DecidableEq, Repr

/-- A save in progress (R120). -/
structure SaveJob where
  save : Save
  area : Nat
  started : Nat
deriving DecidableEq, Repr

/-- The lane manager of a lane: command, retain and save state (Table 03-1). -/
structure Manager where
  senders : Tab Sender := []
  outstanding : List Outstanding := []
  forces : Tab Force := []
  outImage : Tab Word := []
  /-- output forces in effect since a commit or loop output write: point and word (R191, R192) -/
  forced : Tab Word := []
  /-- pick whose cycle or loop output write last settled whether a point is forced (R191) -/
  forcedAt : Tab Word := []
  /-- output forces that apply to loop output writes: those set before the last released pick (R191) -/
  loopForces : Tab Word := []
  /-- clusters whose output words have been committed since power-on (Table 04-10, R239) -/
  committed : List Nat := []
  /-- WRITE_POINTS that wait for a cycle of the owner partition: epoch, point, word (R354) -/
  pointWrites : List (Word × Nat × Word) := []
  /-- WRITE_POINTS that wait for the next pick release, the owner not being in RUNNING (R354) -/
  pointsNext : List (Word × Nat × Word) := []
  seqNext : Tab Word := []
  /-- highest released stream sequence number per stream (Table 02-2) -/
  discard : Tab Word := []
  canDiscard : List CanIdentity := []
  prpEstate : List PrpSource := []
  prpFloor : List PrpSource := []
  saveNumber : Nat := 0
  /-- epoch at whose release the next save starts, as the active lane chose it (R157) -/
  saveAt : Option Word := none
  saveJob : Option SaveJob := none
  lastSave : Nat := 0
  newestPeriodic : Nat := 0
  newestFinal : Nat := 0
  lastEvent : Tab Word := []
  updateNo : Tab Nat := []
  /-- pinned policy items: item, index, value (R560) -/
  pins : List (Nat × Nat × Word) := []
  /-- the module's ID, and one that the next pick release brings (R40, R404) -/
  moduleId : Word := 0
  pendingId : Option Word := none
deriving DecidableEq, Repr

/-- An output update on its way to a front-end die (R99). -/
structure Update where
  region : Nat
  number : Nat
  /-- how often the lane's timer has repeated the update of that number (R99) -/
  again : Nat
  /-- words of the region's units, and the units at their safe value -/
  words : Tab Word
  safe : List Nat
  cross : BitVec 64
  beat : Nat
deriving DecidableEq, Repr

/-- An inhibit message on its way to a front-end die (R227). -/
structure Inhibit where
  region : Nat
  source : Nat
  vector : Nat
  cross : BitVec 64
deriving DecidableEq, Repr

/-- Messages on the shuttle link (Table 03-2). -/
inductive Msg where
  | close (i : CloseInfo)
  | epoch (n : Word) (events : List Event)
  /-- READY of a partition (R90, R139) -/
  | ready (part : Nat) (i : ReadyInfo)
  /-- state digest of the cycle start of partition 0 with a number (R105) -/
  | stateDigest (start : Nat) (d : BitVec 64)
  | frame (region : Nat) (f : SFrame) (ok : Bool)
  | commitDigest (part cycle : Nat) (d : BitVec 64)
  | planDigest (part : Nat) (d : BitVec 64)
  | install (part m : Nat)
  | overrun (part cycle : Nat)
  | sample (m : SampleMsg)
  | judgement (group sample : Nat) (onTime : Bool) (slack : Int)
  | block (no : Nat) (vin iin : List (List Int)) (crc : Word)
  | window (w : Nat) (pick : Word)
  | announce (meas : List (List Byte)) (version prefer holdoff count : Nat)
  | notice (bit : Nat)
deriving DecidableEq, Repr

/-- What every shuttle message carries beside its body, and the sub-link that delivered it (R87). -/
structure LinkHead where
  seq : Word
  crc : Word
  sub : Nat
deriving DecidableEq, Repr

/-- One lane. -/
structure Lane where
  blk : Blocks := {}
  man : Manager := {}
  parts : Tab Part := []
  cores : Tab Core := []
  mbx : Tab Mbx := []
  flash : Flash := {}
  mram : Mram := {}
  job : List (FlashJob × Nat) := []
  /-- images written in this lane whose write goes on in the partner (R534) -/
  imgWait : List NewImage := []
  rtcSet0 : Word := 0
  rtcSet1 : Word := 0x000107D0#32
  rtcWres : Word := 0
  /-- posted writes of the lane manager that wait for BUSY to return to 0 (R440, R475) -/
  rtcPosts : List Post := []
  -- lane-local state before agreement
  open_ : List Event := []
  openBytes : Nat := 0
  held : List Event := []
  arrivals : Nat := 0
  closed : List ClosedEpoch := []
  /-- what CLOSE carried for the last released epoch -/
  lastInfo : Option CloseInfo := none
  intake : List Event := []
  inbox : List Msg := []
  /-- sequence number of the lane's next shuttle message, and the head of the last one that reached it (R87) -/
  linkSeq : Word := 0
  linkIn : Option LinkHead := none
  /-- the decimators of the lane's voltage and current inputs (R292) -/
  decV : Tab Sinc3 := []
  decI : Tab Sinc3 := []
  frameIn : List (Nat × SFrame × Bool) := []
  ownFrame : Tab (SFrame × Bool) := []
  updates : List Update := []
  lastUpdate : Tab Nat := []
  /-- per region, the timer's repetitions of the newest update (R99) -/
  repeats : Tab Nat := []
  vectorIn : List (Nat × Nat × BitVec 64 × BitVec 64) := []
  inhibits : List Inhibit := []
  txRings : List TxEntry := []
  supplyFault : Bool := false
  version : Nat := 0
  booted : Bool := false
  tested : Bool := false
  announced : Bool := false
  announceBeat : Nat := 0
  configured : Bool := false
  /-- start-up has reached step 8 of Table 17-4 in the lane, or the lane has joined: its epochs run (R61) -/
  started : Bool := false
  token : Tab Nat := []
  finalJob : Option Save := none
  /-- beat at which the final save in progress began -/
  finalBeat : Nat := 0
  /-- the lane reached STANDBY in the present epoch by a rejoin (R412) -/
  joining : Bool := false
  /-- ring 62: bulk segments of released epochs: pair, packet, load generation, epoch -/
  bulkRing : List (Nat × List Byte × Option Word × Word) := []
  /-- released ARP, neighbour solicitation and echo frames that wait for their answer: pair and frame (R388) -/
  netQueue : List (Nat × Frame) := []
  /-- timing islands whose clock is lost in the lane, and the beat of the loss (R27, R33, R34) -/
  lostClocks : Tab Nat := []
deriving DecidableEq, Repr

/-- A front-end die (chapter 06). -/
structure FrontEnd where
  frameNo : Nat := 0
  /-- the last four frames, newest first (Table 03-3) -/
  frames : List SFrame := []
  /-- debounced state and pending level with its age in rounds, per DI or CNT unit -/
  level : Tab Nat := []
  pendLevel : Tab (Nat × Nat) := []
  count : Tab Word := []
  openWire : List Nat := []
  short : List Nat := []
  overRange : List Nat := []
  underRange : List Nat := []
  testFail : List Nat := []
  stageFault : List Nat := []
  overcurrent : List Nat := []
  overBeat : Tab Nat := []
  /-- unit to beat of its last failed test slot; cluster rounds passed since a converter fault -/
  failBeat : Tab Nat := []
  cleanSlots : Tab Nat := []
  /-- signal codes and comparator outputs, planes A and B -/
  codeA : Tab Nat := []
  codeB : Tab Nat := []
  compA : Tab Nat := []
  compB : Tab Nat := []
  image : Option HedImage := none
  old : Option HedImage := none
  shadow : Option HedImage := none
  vector : Nat := 0
  lastVector : Option (BitVec 64 × BitVec 64) := none
  /-- cross-region terms in force, and each lane's last message -/
  cross : BitVec 64 := 0
  crossA : BitVec 64 := 0
  crossB : BitVec 64 := 0
  inhA : List Inhibit := []
  inhB : List Inhibit := []
  /-- each lane's newest update, and those that wait for the other lane's of their number (R100) -/
  updA : Option Update := none
  updB : Option Update := none
  waitA : List Update := []
  waitB : List Update := []
  /-- words driven under ranks 4 and 5 -/
  driven : Tab Word := []
  safeUnits : List Nat := []
  /-- per output, word and safe-value state on which the lanes last agreed (R102) -/
  agreed : Tab Word := []
  agreedSafe : List Nat := []
  /-- outputs and terms on which the last pair disagreed (R101) -/
  lastDiff : List Nat := []
  lastCross : BitVec 64 := 0
  /-- those on which two consecutive pairs disagreed, and the beat at which the first of them did (R102) -/
  disagree : List Nat := []
  disagreeCross : BitVec 64 := 0
  disagreeBeat : Option Nat := none
  /-- consecutive pairs that agreed on everything (R103) -/
  agreeRun : Nat := 16
  /-- beat since which the terms of the two planes differ (R236) -/
  planeDiff : Option Nat := none
  /-- beat at which the die last sent its literal vector (R227) -/
  vectorBeat : Nat := 0
  noHeartbeat : Bool := false
  fs : Option FieldSupply := none
  internalFault : Bool := false
  running : Bool := false
deriving DecidableEq, Repr

/-- Life-cycle states (Table 09-15). -/
inductive LifeCycle where
  | wafer
  | maker
  | issued
  | sealed
  | returned
  | void
deriving DecidableEq, Repr

/-- What a completed or waiting service-port transaction holds (Table 09-2). -/
structure ServicePort where
  rx : List (List Byte) := []
  /-- packets of the receive buffer that are counted as held back (R67) -/
  held : Nat := 0
  replies : List (List Byte) := []
  drops : Word := 0
  unprotected : Nat := 0
  lastOut : List Byte := []
deriving DecidableEq, Repr

/-- The package: what is not in either lane die. -/
structure Package where
  beat : Nat := 0
  order : Order := .m32
  life : LifeCycle := .issued
  lcGen : BitVec 16 := 0
  serial : BitVec 64 := 0
  makerSession : Bool := false
  dom : Domain := {}
  rfe : Tab FrontEnd := []
  pickReqs : List PickReq := []
  /-- accepted requests: requester, count, ticket, and whether the replica has also arrived -/
  accepted : List (PickReq × Word) := []
  lastClose : Option Nat := none
  waitingReqs : Nat := 0
  sp : ServicePort := {}
  halted : Bool := false
  inReset : Bool := true
  released : Bool := false
  resetBeat : Nat := 0
  timeLostAtStart : Bool := false
  supFailed : List Nat := []
  /-- life-cycle state that a transition in progress leads to, and the beat at which it began (R538) -/
  transition : Option (LifeCycle × Nat) := none
  /-- answers that one lane formed and the other has still to give: command, epoch, status and parameters (R347, R466, R469) -/
  outcomes : List (Hdr × Word × Nat × List Byte) := []
  /-- the last command that changed the KEK, as the first lane to execute it decided it -/
  keyExec : Option (LaneId × Hdr × Word × Option Nat) := none
  /-- activity of the transmit side that leaves the module: frames sent by each port, newest first (lane, port, entry) -/
  sent : List (LaneId × Nat × TxEntry × Bool) := []
  canSent : List (LaneId × Nat × CanFrame) := []
deriving DecidableEq, Repr

/-- The machine. `pending` holds the commands that wait, first in, first out. `draws` is the model's own counter of free
values that have been drawn (assumption 3). -/
structure State where
  pkg : Package
  a : Lane
  b : Lane
  draws : Nat
  pending : List Instr
deriving DecidableEq, Repr

/-- Faults: a step that stops the model. -/
inductive Fault where
  /-- Raised by no step of this model: every command of the block has an effect. Safe. -/
  | none
deriving DecidableEq, Repr

/-- Refusals: a command without a meaning. -/
inductive Refusal where
  /-- An arm of `exec` that has no meaning yet. Safe: the model stops by name. -/
  | notModelled (mnemonic : String)
deriving DecidableEq, Repr

/-- The module right after its reset, before the release of Table 17-4: both lanes OFF, stages off, every register at the
reset value of its table; flash and MRAM as a new module holds them (assumption 4). -/
def State.reset : State :=
  { pkg := {}, a := {}, b := {}, draws := 0, pending := [] }

end Sys2Proof.Machine
end

