-- ==== Sys2Proof/Machine/Ops.lean ====
section
/-! DEFINITION. The named operations over the state that every meaning uses: tables, lanes, events entering streams,
recorder records, rings and frames to send. -/

namespace Sys2Proof.Machine

/-! ### Tables -/

/-- The value of entry `k` of a table whose unlisted entries are `d`. -/
def tget {α : Type} (d : α) : Tab α → Nat → α
  | [], _ => d
  | (i, v) :: r, k => if i = k then v else tget d r k

/-- Put an entry before the first one of a higher index. -/
def tins {α : Type} (k : Nat) (v : α) : Tab α → Tab α
  | [] => [(k, v)]
  | (i, w) :: r => if k < i then (k, v) :: (i, w) :: r else (i, w) :: tins k v r

/-- Write entry `k`; the table keeps its canonical form (indexes rising, no entry equal to `d`). -/
def tput {α : Type} [DecidableEq α] (d : α) (t : Tab α) (k : Nat) (v : α) : Tab α :=
  let r := t.filter (fun e => e.1 ≠ k)
  if v = d then r else tins k v r

/-- Every index of the table is at least `lo`, indexes rise strictly and no value is the default. -/
def tabWfFrom {α : Type} [DecidableEq α] (d : α) : Nat → Tab α → Bool
  | _, [] => true
  | lo, (i, v) :: r => decide (lo ≤ i) && decide (v ≠ d) && tabWfFrom d (i + 1) r

/-- The canonical form of a table. -/
def tabWf {α : Type} [DecidableEq α] (d : α) (t : Tab α) : Bool := tabWfFrom d 0 t

/-- The canonical form of a memory: addresses strictly rising, no byte listed that an unlisted address reads as. -/
def Memory.wf (m : Mem) : Bool := tabWf 0 m

/-- Write entries `k`, `k + 1`, … of a table. -/
def tputList {α : Type} [DecidableEq α] (d : α) : Tab α → Nat → List α → Tab α
  | t, _, [] => t
  | t, k, v :: vs => tputList d (tput d t k v) (k + 1) vs

/-- Change entry `k` of a table. -/
def tmod {α : Type} [DecidableEq α] (d : α) (t : Tab α) (k : Nat) (f : α → α) : Tab α := tput d t k (f (tget d t k))

/-- Set entry `k` of a table that has no default: indexes rise. -/
def oset {α : Type} : Tab α → Nat → α → Tab α
  | [], k, v => [(k, v)]
  | (i, w) :: r, k, v => if k < i then (k, v) :: (i, w) :: r else if k = i then (k, v) :: r else (i, w) :: oset r k v

/-- Remove entry `k` of a table that has no default. -/
def odel {α : Type} (t : Tab α) (k : Nat) : Tab α := t.filter (fun e => e.1 ≠ k)

/-- Bytes `a` to `a + n - 1` of a memory. -/
def memRead (m : Mem) (a n : Nat) : List Byte := (List.range n).map (fun i => tget 0 m (a + i))

/-- Write bytes from address `a`. -/
def memWrite (m : Mem) (a : Nat) (bs : List Byte) : Mem := tputList 0 m a bs

/-- The part of a memory from `a` to `a + n - 1`, addressed from 0. -/
def memSlice (m : Mem) (a n : Nat) : Mem :=
  (m.filter (fun c => decide (a ≤ c.1) && decide (c.1 < a + n))).map (fun c => (c.1 - a, c.2))

/-! ### Bits -/

/-- Bits `hi` to `lo` of a word, as a number. -/
def field (w : Word) (hi lo : Nat) : Nat := w.toNat / 2 ^ lo % 2 ^ (hi + 1 - lo)

/-- Bit `i` of a word. -/
def bitOf (w : Word) (i : Nat) : Bool := w.getLsbD i

/-- 1 for true. -/
def b2n (b : Bool) : Nat := if b then 1 else 0

/-- A number as a word. -/
def w32 (n : Nat) : Word := BitVec.ofNat 32 n

/-- An integer as a two's-complement number of `bits` bits. -/
def twos (bits : Nat) (x : Int) : Nat := (x % (2 ^ bits : Int)).toNat

/-- The integer that `bits` bits of two's complement spell. -/
def signed (bits : Nat) (n : Nat) : Int :=
  if n % 2 ^ bits < 2 ^ (bits - 1) then (n % 2 ^ bits : Nat) else (n % 2 ^ bits : Nat) - (2 ^ bits : Int)

/-- An integer held to a range. -/
def clampInt (lo hi x : Int) : Int := max lo (min hi x)

/-- Insert into a rising list without repeats. -/
def insSorted (k : Nat) : List Nat → List Nat
  | [] => [k]
  | i :: r => if k < i then k :: i :: r else if k = i then i :: r else i :: insSorted k r

/-- The CRC-32 of a byte list: polynomial 0x04C11DB7 reflected, start and final value of all ones. -/
def crcByte (c : Word) (b : Byte) : Word :=
  (List.range 8).foldl (fun x _ => if bitOf x 0 then (x >>> 1) ^^^ 0xEDB88320#32 else x >>> 1) (c ^^^ b.zeroExtend 32)

/-- CRC-32 (IEEE 802.3), as the spec's CRC-32 fields hold it (assumption 21). -/
def crc32 (bs : List Byte) : Word := bs.foldl crcByte 0xFFFFFFFF#32 ^^^ 0xFFFFFFFF#32

/-! ### Records in two alternating copies (R316, R340, R506) -/

/-- A record with the same value in both copies, as the maker writes it. -/
def Twin.make {α : Type} (bytes : α → List Byte) (v : α) : Twin α := ⟨v, crc32 (bytes v), v, crc32 (bytes v), false⟩

/-- A write takes the copy that was not written last. -/
def Twin.put {α : Type} (bytes : α → List Byte) (t : Twin α) (v : α) : Twin α :=
  if t.second then { t with copy0 := v, crc0 := crc32 (bytes v), second := false }
  else { t with copy1 := v, crc1 := crc32 (bytes v), second := true }

/-- The newest copy whose CRC-32 checks. -/
def Twin.read {α : Type} (bytes : α → List Byte) (t : Twin α) : Option α :=
  let one := if t.crc1 = crc32 (bytes t.copy1) then some t.copy1 else none
  let zero := if t.crc0 = crc32 (bytes t.copy0) then some t.copy0 else none
  if t.second then one.orElse (fun _ => zero) else zero.orElse (fun _ => one)

/-- A read gives the value written last. -/
theorem Twin.read_put {α : Type} (bytes : α → List Byte) (t : Twin α) (v : α) : (t.put bytes v).read bytes = some v := by
  unfold Twin.put Twin.read
  split <;> simp

/-- A blank record reads as the value that the maker wrote. -/
theorem Twin.read_make {α : Type} (bytes : α → List Byte) (v : α) : (Twin.make bytes v).read bytes = some v := by
  simp [Twin.read, Twin.make]

/-- Entry `i` of a table of such records: as the maker wrote it when it is not listed. -/
def twinAt {α : Type} (bytes : α → List Byte) (blank : α) (t : List (Nat × Twin α)) (i : Nat) : Twin α :=
  (t.lookup i).getD (Twin.make bytes blank)

/-- Write entry `i` of such a table. -/
def twinPut {α : Type} (bytes : α → List Byte) (blank : α) (t : List (Nat × Twin α)) (i : Nat) (v : α) : List (Nat × Twin α) :=
  oset t i ((twinAt bytes blank t i).put bytes v)

/-! ### The two lanes -/

/-- Lane `l`. -/
def State.lane (s : State) : LaneId → Lane
  | .a => s.a
  | .b => s.b

/-- Put lane `l`. -/
def State.setLane (s : State) : LaneId → Lane → State
  | .a, x => { s with a := x }
  | .b, x => { s with b := x }

/-- Change lane `l`. -/
def State.onLane (s : State) (l : LaneId) (f : Lane → Lane) : State := s.setLane l (f (s.lane l))

/-- Change the package. -/
def State.onPkg (s : State) (f : Package → Package) : State := { s with pkg := f s.pkg }

/-- Change the always-on domain. -/
def State.onDom (s : State) (f : Domain → Domain) : State :=
  { s with pkg := { s.pkg with dom := f s.pkg.dom } }

/-- A lane in STANDBY or ACTIVE is in service (Table 03-10). -/
def Lane.inService (x : Lane) : Bool := x.blk.lane.role = .standby || x.blk.lane.role = .active

/-- A lane that takes part in agreement: in service, or HALTED at class G (R493). -/
def Lane.releases (x : Lane) : Bool := x.inService || x.blk.lane.role = .halted

/-- The lane that holds the active role, or held it at the class G halt (R493). -/
def Lane.leads (x : Lane) : Bool :=
  x.blk.lane.role = .active || (x.blk.lane.role = .halted && x.blk.lane.haltedActive)

/-- The active lane, if there is one. -/
def State.active (s : State) : Option LaneId :=
  if s.a.leads then some .a else if s.b.leads then some .b else none

/-- The active lane; lane A when no lane is active (R39 gives it number 0). -/
def State.activeLane (s : State) : LaneId := if s.b.leads && !s.a.leads then .b else .a

/-- Both lanes take part in agreement. -/
def State.bothRelease (s : State) : Bool := s.a.releases && s.b.releases

/-- Lane `l` agrees with no partner (R70). -/
def State.solo (s : State) (l : LaneId) : Bool := !(s.lane l.other).releases

/-- Do `f` in lane A, then in lane B, for every lane that satisfies `p`. -/
def State.eachLane (s : State) (p : Lane → Bool) (f : LaneId → State → State) : State :=
  let s1 := if p s.a then f .a s else s
  if p s.b then f .b s1 else s1

/-- A message that lane `l` sends with number `seq`: the receiver's first sub-link that is up carries it, and the other one when the
CRC is bad there (R87). -/
def Lane.linkHead (y : Lane) (l : LaneId) (seq : Word) (m : Msg) : LinkHead :=
  let first := if y.blk.lane.sub0 then 0 else 1
  ⟨seq, Config.linkCrc (seq, m), if Config.linkGood l.num first seq then first else 1 - first⟩

/-- A valid message arrives: it waits in the inbox, and the sub-link that delivered it is alive at beat `now` (R87). -/
def Lane.receive (y : Lane) (h : LinkHead) (m : Msg) (now : Nat) : Lane :=
  { y with
    inbox := y.inbox ++ [m]
    linkIn := some h
    blk := { y.blk with lane := { y.blk.lane with
      sub0Beat := if h.sub = 0 then max y.blk.lane.sub0Beat now else y.blk.lane.sub0Beat
      sub1Beat := if h.sub = 1 then max y.blk.lane.sub1Beat now else y.blk.lane.sub1Beat } } }

/-- Send a message to the partner lane over the shuttle link (R87). -/
def State.send (s : State) (l : LaneId) (m : Msg) : State :=
  let seq := (s.lane l).linkSeq
  (s.onLane l (fun x => { x with linkSeq := seq + 1 })).onLane l.other (fun y =>
    y.receive (y.linkHead l seq m) m s.pkg.beat)

/-- The module beat count rises to `beat` (T5, R12); it never falls. -/
def State.at_ (s : State) (beat : Nat) : State := s.onPkg (fun p => { p with beat := max p.beat beat })

/-! ### Changing one block of a lane -/

/-- Change the blocks of a lane. -/
def Lane.onBlk (x : Lane) (f : Blocks → Blocks) : Lane := { x with blk := f x.blk }
/-- Change the PICK block. -/
def Lane.onPick (x : Lane) (f : PickBlk → PickBlk) : Lane := { x with blk := { x.blk with pick := f x.blk.pick } }
/-- Change the PNT block. -/
def Lane.onPnt (x : Lane) (f : PntBlk → PntBlk) : Lane := { x with blk := { x.blk with pnt := f x.blk.pnt } }
/-- Change the HED block. -/
def Lane.onHed (x : Lane) (f : HedBlk → HedBlk) : Lane := { x with blk := { x.blk with hed := f x.blk.hed } }
/-- Change the LOOP block. -/
def Lane.onLoopBlk (x : Lane) (f : LoopBlk → LoopBlk) : Lane := { x with blk := { x.blk with loop := f x.blk.loop } }
/-- Change the NRG block. -/
def Lane.onNrg (x : Lane) (f : NrgBlk → NrgBlk) : Lane := { x with blk := { x.blk with nrg := f x.blk.nrg } }
/-- Change the NET block. -/
def Lane.onNet (x : Lane) (f : NetBlk → NetBlk) : Lane := { x with blk := { x.blk with net := f x.blk.net } }
/-- Change the CAN block. -/
def Lane.onCan (x : Lane) (f : CanBlk → CanBlk) : Lane := { x with blk := { x.blk with can := f x.blk.can } }
/-- Change the FLT block. -/
def Lane.onFlt (x : Lane) (f : FltBlk → FltBlk) : Lane := { x with blk := { x.blk with flt := f x.blk.flt } }
/-- Change the recorder. -/
def Lane.onRec (x : Lane) (f : RecBlk → RecBlk) : Lane := { x with blk := { x.blk with recd := f x.blk.recd } }
/-- Change the KEY block. -/
def Lane.onKey (x : Lane) (f : KeyBlk → KeyBlk) : Lane := { x with blk := { x.blk with key := f x.blk.key } }
/-- Change the PWR block. -/
def Lane.onPwr (x : Lane) (f : PwrBlk → PwrBlk) : Lane := { x with blk := { x.blk with pwr := f x.blk.pwr } }
/-- Change the LANE block. -/
def Lane.onLaneBlk (x : Lane) (f : LaneBlk → LaneBlk) : Lane := { x with blk := { x.blk with lane := f x.blk.lane } }
/-- Change the lane manager. -/
def Lane.onMan (x : Lane) (f : Manager → Manager) : Lane := { x with man := f x.man }
/-- Change the stored configuration. -/
def Lane.onFlash (x : Lane) (f : Flash → Flash) : Lane := { x with flash := f x.flash }
/-- Change the MRAM. -/
def Lane.onMram (x : Lane) (f : Mram → Mram) : Lane := { x with mram := f x.mram }

/-- Ring `r` of a lane. -/
def Lane.ring (x : Lane) (r : Nat) : Ring := tget {} x.blk.rings r
/-- Change ring `r`. -/
def Lane.onRing (x : Lane) (r : Nat) (f : Ring → Ring) : Lane :=
  { x with blk := { x.blk with rings := tmod {} x.blk.rings r f } }
/-- Partition `p` of a lane. -/
def Lane.part (x : Lane) (p : Nat) : Part := tget {} x.parts p
/-- Change partition `p`. -/
def Lane.onPart (x : Lane) (p : Nat) (f : Part → Part) : Lane := { x with parts := tmod {} x.parts p f }
/-- Core `c` of a lane. -/
def Lane.core (x : Lane) (c : Nat) : Core := tget {} x.cores c
/-- Change core `c`. -/
def Lane.onCore (x : Lane) (c : Nat) (f : Core → Core) : Lane := { x with cores := tmod {} x.cores c f }
/-- What partition `p`'s senders hold. -/
def Lane.sender (x : Lane) (p : Nat) : Sender := tget {} x.man.senders p
/-- Change what partition `p`'s senders hold. -/
def Lane.onSender (x : Lane) (p : Nat) (f : Sender → Sender) : Lane :=
  { x with man := { x.man with senders := tmod {} x.man.senders p f } }
/-- Loop `n` of a lane. -/
def Lane.loop (x : Lane) (n : Nat) : LoopSt := tget {} x.blk.loop.loops n
/-- Change loop `n`. -/
def Lane.onLoop (x : Lane) (n : Nat) (f : LoopSt → LoopSt) : Lane :=
  { x with blk := { x.blk with loop := { x.blk.loop with loops := tmod {} x.blk.loop.loops n f } } }
/-- Loop group `g` of a lane. -/
def Lane.group (x : Lane) (g : Nat) : GroupSt := tget {} x.blk.loop.groups g
/-- Change loop group `g`. -/
def Lane.onGroup (x : Lane) (g : Nat) (f : GroupSt → GroupSt) : Lane :=
  { x with blk := { x.blk with loop := { x.blk.loop with groups := tmod {} x.blk.loop.groups g f } } }
/-- Metering circuit `c` of a lane. -/
def Lane.circuit (x : Lane) (c : Nat) : Circuit := tget {} x.blk.nrg.circuits c
/-- Change metering circuit `c`. -/
def Lane.onCircuit (x : Lane) (c : Nat) (f : Circuit → Circuit) : Lane :=
  { x with blk := { x.blk with nrg := { x.blk.nrg with circuits := tmod {} x.blk.nrg.circuits c f } } }
/-- Port `n` (0 estate, 1 floor) of a lane. -/
def Lane.port (x : Lane) (n : Nat) : PortSt := if n = 0 then x.blk.net.port0 else x.blk.net.port1
/-- Change port `n`. -/
def Lane.onPort (x : Lane) (n : Nat) (f : PortSt → PortSt) : Lane :=
  if n = 0 then { x with blk := { x.blk with net := { x.blk.net with port0 := f x.blk.net.port0 } } }
  else { x with blk := { x.blk with net := { x.blk.net with port1 := f x.blk.net.port1 } } }
/-- CAN bus `n` of a lane. -/
def Lane.bus (x : Lane) (n : Nat) : BusSt := tget {} x.blk.can.bus n
/-- Change CAN bus `n`. -/
def Lane.onBus (x : Lane) (n : Nat) (f : BusSt → BusSt) : Lane :=
  { x with blk := { x.blk with can := { x.blk.can with bus := tmod {} x.blk.can.bus n f } } }
/-- Key slot `n` of a lane. -/
def Lane.slot (x : Lane) (n : Nat) : Slot := tget {} x.blk.key.slots n
/-- Change key slot `n`. -/
def Lane.onSlot (x : Lane) (n : Nat) (f : Slot → Slot) : Lane :=
  { x with blk := { x.blk with key := { x.blk.key with slots := tmod {} x.blk.key.slots n f } } }
/-- Front-end die `r`. -/
def State.fe (s : State) (r : Nat) : FrontEnd := tget {} s.pkg.rfe r
/-- Change front-end die `r`. -/
def State.onFe (s : State) (r : Nat) (f : FrontEnd → FrontEnd) : State :=
  { s with pkg := { s.pkg with rfe := tmod {} s.pkg.rfe r f } }

/-! ### Ownership (R37, R74) -/

/-- The partition that owns the cluster of point `p` (R37: partition 0 unless granted). -/
def Lane.pointOwner (x : Lane) (p : Nat) : Nat := tget 0 x.blk.pnt.owner (p / 8)

/-- The image that a partition's cycles run: from the installation of an exchange on, the new one (Table 05-2). -/
def Part.runImage (q : Part) : Option Image :=
  match q.exch with
  | some e => if e.installed then some e.image else q.current
  | none => q.current

/-- Cores granted to partition `p`, rising. -/
def Part.coreList (p : Part) : List Nat := (List.range 16).filter (fun c => p.grant.getLsbD c)

/-- The partition of core `c`, if one holds it. -/
def Lane.corePart (x : Lane) (c : Nat) : Option Nat :=
  (List.range 16).find? (fun p => (x.part p).grant.getLsbD c)

/-- The rank of core `c` in its partition: cores are ranked from 0 by rising core number (R128). -/
def Lane.coreRank (x : Lane) (p c : Nat) : Nat := (((x.part p).coreList).filter (fun d => decide (d < c))).length

/-! ### Streams (R45, R49) -/

/-- Position of a stream among the 46 of Table 02-1. -/
def streamNo (kind stream : Nat) : Nat :=
  match kind with
  | 1 => stream
  | 2 => 8 + stream
  | 3 => 16 + stream
  | 4 => 18 + stream
  | 5 => 34 + stream
  | 6 => 42
  | 7 => 43
  | _ => 44 + stream

/-- Whether events of a kind carry a stream sequence number (R49). -/
def kindHasSeq (kind : Nat) : Bool := !(kind = 2 || kind = 3)

/-- Bytes of an event's body as they count toward the cap of R67, which concerns bodies that a partner may lack. The spec gives no
sizes: 24 and the data of a CAN frame, the client data and payload of a network frame, 16 for a fault event and none for the kinds
that both lanes hold are the model's choice (DESIGN CHOICE, log entry 111). -/
def EventBody.size : EventBody → Nat
  | .can f .. => 24 + f.data.length
  | .net _ f _ bs .. => (match f with | some x => x.clientLen | none => 0) + bs.length
  | .fault .. => 16
  | _ => 0

/-- Events and body bytes an epoch holds at most in a lane (R67). -/
def epochEventCap : Nat := 4096
def epochByteCap : Nat := 1048576

/-- An event of `size` body bytes does not enter the open epoch now: a cap is reached, or an event has been held back since the
epoch opened (R67). -/
def Lane.holdsBack (x : Lane) (size : Nat) : Bool :=
  x.blk.pick.holding || x.open_.length ≥ epochEventCap || x.openBytes + size > epochByteCap

/-- `n` events more are held back, and every entry point of the lane holds further ones until the next epoch opens (R67). -/
def Lane.countHeld (x : Lane) (n : Nat) : Lane := x.onPick (fun p => { p with held := p.held + w32 n, holding := true })

/-- An event enters the open epoch. -/
def Lane.intoEpoch (x : Lane) (e : Event) : Lane :=
  { x with open_ := x.open_ ++ [e], openBytes := x.openBytes + e.body.size }

/-- One event passes an entry point of a lane: into the open epoch, or held back once a cap is reached (R48, R67). -/
def Lane.takeEvent (x : Lane) (e : Event) : Lane :=
  if x.holdsBack e.body.size then { x.countHeld 1 with held := x.held ++ [e] } else x.intoEpoch e

/-- An event enters its stream in a lane: it takes the stream's next number (R49) and its arrival index. -/
def Lane.enter (x : Lane) (l : LaneId) (kind stream part : Nat) (body : EventBody) : Lane :=
  let n := streamNo kind stream
  let seq := if kindHasSeq kind then tget 1 x.man.seqNext n else 0
  let y := if kindHasSeq kind then x.onMan (fun m => { m with seqNext := tput 1 m.seqNext n (seq + 1) }) else x
  let e : Event := ⟨kind, stream, part, seq, l, y.arrivals, body⟩
  ({ y with arrivals := y.arrivals + 1 }).takeEvent e

/-- Held events move on into an epoch that has just opened, in stream order; what it has no room for stays held (R67). -/
def Lane.admitHeld (x : Lane) : Lane :=
  x.held.foldl (fun (y : Lane) e =>
    if y.holdsBack e.body.size then { y.countHeld 0 with held := y.held ++ [e] } else y.intoEpoch e)
    ({ x with held := [] }.onPick (fun p => { p with holding := false }))

/-! ### Timing islands (R22, R33, R34) -/

/-- Whether the clock of a timing island is lost in a lane. -/
def Lane.clockLost (x : Lane) (island : Nat) : Bool := (x.lostClocks.lookup island).isSome

/-- The module beat count as a lane's T5 shows it: it stops at the loss of T5 (R34). -/
def Lane.beatSeen (x : Lane) (beat : Nat) : Nat := match x.lostClocks.lookup 5 with | some t => min beat t | none => beat

/-- CAN_TIME of a beat, in µs (R419). -/
def canTime (beat : Nat) : Word := w32 (beat / 100)

/-! ### Recorder (R503 to R509) -/

/-- Records that the ring holds (R503). -/
def recCapacity : Nat := 65536

/-- Write one record at the release of epoch `pick`, or count it while frozen (R503, R505, R507). -/
def RecBlk.write (r : RecBlk) (pick : Word) (source part : Nat) (all : Bool) (kind : Nat) (payload : List Byte) : RecBlk :=
  if r.frozen then
    { r with frozenLost := min (r.frozenLost + 1) 0xFFFFFFFF,
             firstLost := some (r.firstLost.getD pick), lastLost := pick }
  else
    { r with records := (r.records ++ [RecRecord.mk r.next pick source part all kind payload]).drop
                          (r.records.length + 1 - recCapacity),
             next := r.next + 1 }

/-- A module detail record (Table 15-3) waits for the next release that names it (R504). -/
def Lane.detail (x : Lane) (source part : Nat) (payload : List Byte) : Lane :=
  x.onRec (fun r => { r with details := r.details ++ [PendingRec.mk source part 0x11 0 payload],
                             detailsMade := r.detailsMade + 1 })

/-- Zero bytes. -/
def zeros (n : Nat) : List Byte := List.replicate n 0

/-! ### Rings (R449 to R452, Table 12-5) -/

/-- Slots of an entry of `n` bytes (R449). -/
def slotsOf (n : Nat) : Nat := (n + 4 + 31) / 32

/-- Capacity of ring `r` in bytes (Table 12-5). -/
def ringBytes (r : Nat) : Nat :=
  if r < 16 then 16384 else if r < 32 then 8192 else if r < 48 then 32768 else if r < 56 then 262144
  else if r = 56 || r = 58 then 65536 else if r = 57 || r = 59 then 262144
  else if r = 60 || r = 61 then 32768 else if r = 62 then 262144 else 65536

/-- Largest entry of ring `r` in bytes (Table 12-5). -/
def ringLargest (r : Nat) : Nat :=
  if r < 16 then 1448 else if r < 32 then 256 else if r < 48 then 1536 else if r < 56 then 9024
  else if r = 56 || r = 58 then 1552 else if r = 57 || r = 59 then 65792
  else if r = 60 || r = 61 then 96 else if r = 62 then 8248 else 4096

/-- Capacity of ring `r` in slots. -/
def ringSlots (r : Nat) : Nat := ringBytes r / 32

/-- Free slots of a ring: its capacity less the slots of entries posted and of entries taken and not returned (R451). -/
def Ring.free (g : Ring) (r : Nat) : Nat :=
  ringSlots r - (g.entries.map (fun e => slotsOf e.bytes.length)).sum - g.consumed.sum

/-- Entries that their consumer can see. -/
def Ring.visible (g : Ring) : Nat := (g.entries.filter (·.visible)).length

/-- Post an entry for which there is credit. -/
def Ring.post (g : Ring) (e : RingEntry) : Ring :=
  { g with entries := g.entries ++ [e], posted := if e.visible then g.posted + 1 else g.posted, dropping := false }

/-- Drop an entry that does not fit, and count it. -/
def Ring.dropOne (g : Ring) : Ring := { g with drop := g.drop + 1, dropping := true }

/-- Entries leave a ring for its hardware consumer. -/
def Ring.took (g : Ring) (n : Nat) : Ring := { g with taken := g.taken + w32 n }

/-- Post an entry, or drop and count it when the ring's credit does not cover it (R451). -/
def Ring.offer (g : Ring) (r : Nat) (e : RingEntry) : Ring :=
  if slotsOf e.bytes.length ≤ g.free r && e.bytes.length ≤ ringLargest r then g.post e else g.dropOne

/-- Take the first visible entry. -/
def Ring.take (g : Ring) : Option (RingEntry × Ring) :=
  match g.entries with
  | e :: r => if e.visible then some (e, { g with entries := r, taken := g.taken + 1 }) else none
  | [] => none

/-- Entries of a lane's transmit rings that wait in ring `r`. -/
def Lane.txOf (x : Lane) (r : Nat) : List TxEntry := x.txRings.filter (fun t => t.ring = r)

/-- Free slots of transmit ring `r`. -/
def Lane.txFree (x : Lane) (r : Nat) : Nat :=
  ringSlots r - ((x.txOf r).map (fun t => slotsOf (t.payload.length + 64))).sum

/-- The PRP pair whose rings are `r`: 56 and 57 estate, 58 and 59 floor. -/
def pairOfRing (r : Nat) : Nat := if r < 58 then 0 else 1

/-- Bytes of IP and UDP header in front of what an entry carries: a UDP datagram has both, an answer over IPv4 comes without its IP
header, and any other answer comes whole behind its EtherType. -/
def txHeaderLen (dst : Source) (sport : Nat) (payload : List Byte) : Nat :=
  if sport ≠ 0 then (if dst.ip.length = 4 then 28 else 48) else if payload.take 2 = beBytes 2 0x0800 then 20 else 0

/-- Bytes of MAC client data of an entry's frame, the PRP trailer included (R379, R381). -/
def txClientLen (dst : Source) (sport : Nat) (payload : List Byte) : Nat :=
  max 40 (txHeaderLen dst sport payload + (if sport ≠ 0 then payload.length else payload.length - 2)) + 6

/-- A transmit ring's drop: the entry is counted where Table 12-5 says. -/
def Lane.dropTx (x : Lane) (ring : Nat) : Lane :=
  (x.onPort (pairOfRing ring) (fun p => { p with txAgedDrop := p.txAgedDrop + 1 })).onRing ring Ring.dropOne

/-- A frame takes its pair's next PRP sequence number and IP identification in either case, so that the lanes' numbers stay the same
(R97, R374); where the ring has `room` it is posted, and a frame posted to a port without link is dropped and counted (R376). -/
def Lane.postFrame (x : Lane) (room : Bool) (ring beat : Nat) (dst : Source) (sport : Nat) (payload : List Byte) : Lane :=
  let n := pairOfRing ring
  let q := if n = 0 then x.blk.net.prpSeq0 else x.blk.net.prpSeq1
  let i := if n = 0 then x.blk.net.ipId0 else x.blk.net.ipId1
  let y := x.onNet (fun b => if n = 0 then { b with prpSeq0 := q + 1, ipId0 := i + 1 }
                             else { b with prpSeq1 := q + 1, ipId1 := i + 1 })
  if !room then y
  else if (x.port n).link then
    ({ y with txRings := y.txRings ++ [TxEntry.mk ring beat q i dst sport payload false (x.port n).pair []] }).onRing ring
      (fun g => { g with posted := g.posted + 1, dropping := false })
  else y.onPort n (fun p => { p with txLinkDrop := p.txLinkDrop + 1 })

/-- Post a frame to a transmit ring, or drop and count it (Table 12-5). A frame longer than R379 admits is never formed. -/
def Lane.postTx (x : Lane) (ring beat : Nat) (dst : Source) (sport : Nat) (payload : List Byte) : Lane :=
  if 1526 < txClientLen dst sport payload then x
  else
    let room := decide (slotsOf (payload.length + 64) ≤ x.txFree ring)
    let y := x.postFrame room ring beat dst sport payload
    if room then y else y.dropTx ring

/-- Flash writes begin in turn; none begins while the supply warning stands (Table 17-2). -/
def Lane.startFlash (x : Lane) (j : FlashJob) (now : Nat) : Lane :=
  if x.blk.pwr.warn then x else { x with job := x.job ++ [(j, now)] }

/-- What R555 watches at beat `now`: `hot` asks for a higher core supply, `warm` only forbids a lower one. -/
def Lane.load (x : Lane) (hot warm : Bool) (now : Nat) : Lane :=
  x.onPwr (fun p => { p with hotBeat := if hot then some now else p.hotBeat,
                             warmBeat := if hot || warm then some now else p.warmBeat })

/-! ### Free values -/

/-- The next draw of a value that the spec leaves open; each draw is used once (assumption 3). -/
def State.draw (s : State) : Nat × State := (s.draws, { s with draws := s.draws + 1 })

end Sys2Proof.Machine
end

