-- ==== Sys2Proof/Machine/Flags.lean ====
section
/-! DEFINITION. The fault collector (chapter 14): the class and scope of every bit, setting and clearing bits, and the
governing class of units, loops and partitions. Classes are coded as FLT_STAT.HIGHEST: 0 none, 1 N, 2 L, 3 S, 4 G. -/

namespace Sys2Proof.Machine

/-- The class of collector bit `b` (Table 14-1, Table 14-15); 0 for a reserved bit. -/
def bitClass (b : Nat) : Nat :=
  if b = 0 then 4 else if b = 1 then 2 else if b = 2 then 4 else if b = 3 then 0
  else if b = 6 then 1
  else if b ≤ 9 then 2
  else if b ≤ 15 then 0
  else if b ≤ 79 then 2
  else if b ≤ 95 then 1
  else if b ≤ 127 then 2
  else if b ≤ 161 then 1
  else if b ≤ 170 then 2
  else if b = 171 then 1
  else if b ≤ 175 then 0
  else if b ≤ 177 then 1
  else if b = 178 then 4
  else if b = 179 then 2
  else if b = 180 then 1
  else if b ≤ 191 then 0
  else if b ≤ 207 then 1
  else if b ≤ 239 then 3
  else if b ≤ 255 then 0
  else if b ≤ 767 then 3
  else if b ≤ 1279 then 1
  else if b ≤ 1343 then 3
  else if b ≤ 1407 then (if (b - 1344) % 8 = 7 then 1 else 3)
  else if b ≤ 1919 then 3
  else if b ≤ 2099 then 1
  else 0

/-- The scope and index of a bit, coded as FAULT_ACK; scope 0 where Table 14-1 gives none (assumption 22). -/
def bitScope (b : Nat) : Nat × Nat :=
  if b < 192 then (0, 0)
  else if b ≤ 239 then (5, (b - 192) % 16)
  else if b ≤ 255 then (0, 0)
  else if b ≤ 1279 then (1, (b - 256) % 512)
  else if b ≤ 1343 then (2, b - 1280)
  else if b ≤ 1407 then (3, (b - 1344) / 8)
  else if b ≤ 1919 then (4, (b - 1408) % 256)
  else (0, 0)

/-- Bits of fixed meaning (Table 14-1, Table 14-15). -/
def bitPartOverrun (p : Nat) : Nat := 224 + p
def bitProgramFault (p : Nat) : Nat := 208 + p
def bitSelvedge (p : Nat) : Nat := 192 + p
def bitUnit (i : Nat) : Nat := 256 + i
def bitProcess (i : Nat) : Nat := 768 + i
def bitCluster (c : Nat) : Nat := 1280 + c
def bitRegion (r k : Nat) : Nat := 1344 + 8 * r + k
def bitLoopPlaus (n : Nat) : Nat := 1408 + n
def bitLoopInput (n : Nat) : Nat := 1664 + n

/-- Whether a sticky bit is set in a collector. -/
def Lane.hasBit (x : Lane) (b : Nat) : Bool := x.blk.flt.sticky.contains b

/-- Whether a bit's cause is present. -/
def Lane.hasCause (x : Lane) (b : Nat) : Bool := x.blk.flt.cause.contains b

/-- A collector runs in every lane that is not OFF (R483, assumption 23). -/
def Lane.collects (x : Lane) : Bool := x.blk.lane.role ≠ .off

/-- Set a sticky bit of a lane's collector; `lasting` when its cause lasts until something clears it (R484, R590).
A bit already set enters nothing new. -/
def Lane.setBit (x : Lane) (l : LaneId) (b : Nat) (lasting : Bool) : Lane :=
  let y := if lasting then x.onFlt (fun f => { f with cause := insSorted b f.cause }) else x
  if x.hasBit b || bitClass b = 0 then y
  else
    let c := bitClass b
    let z := y.onFlt (fun f => { f with
      sticky := insSorted b f.sticky
      nCount := if c = 1 then f.nCount + 1 else f.nCount
      lCount := if c = 2 then f.lCount + 1 else f.lCount
      sCount := if c = 3 then f.sCount + 1 else f.sCount })
    if c = 1 && !x.blk.flt.nevEn then z
    else z.enter l 8 l.num (if (bitScope b).1 = 5 then (bitScope b).2 else 0)
           (.fault l c b (bitScope b).1 (bitScope b).2)

/-- A bit's cause goes away; the sticky bit stays (Table 12-1). -/
def Lane.endCause (x : Lane) (b : Nat) : Lane := x.onFlt (fun f => { f with cause := f.cause.filter (· ≠ b) })

/-- Clear a sticky bit whose cause is gone (R485); a bit whose cause is present stays set. -/
def Lane.clearBit (x : Lane) (b : Nat) : Lane :=
  if x.hasCause b then x else x.onFlt (fun f => { f with sticky := f.sticky.filter (· ≠ b) })

/-- A class N or class S detection in one lane's collector, if it runs. -/
def State.flag (s : State) (l : LaneId) (b : Nat) (lasting : Bool) : State :=
  s.onLane l (fun x => if x.collects then x.setBit l b lasting else x)

/-- A detection reported to both lanes (R483). -/
def State.flagBoth (s : State) (b : Nat) (lasting : Bool) : State := (s.flag .a b lasting).flag .b b lasting

/-- The cause of a bit is gone in both lanes. -/
def State.endCauseBoth (s : State) (b : Nat) : State :=
  { s with a := s.a.endCause b, b := s.b.endCause b }

/-- The highest class among the set bits of a collector (R488); 4 once class G is raised. -/
def Lane.highest (x : Lane) : Nat :=
  if x.blk.flt.halted then 4 else (x.blk.flt.sticky.map bitClass).foldl max 0

/-- A lane's fault line: a class L bit is set in its collector (R89). -/
def Lane.faultLine (x : Lane) : Bool := x.blk.flt.sticky.any (fun b => bitClass b = 2)

/-- A class S bit whose scope is unit `p`, its cluster or its region is set (R488). -/
def Lane.unitFaulted (x : Lane) (p : Nat) : Bool :=
  x.hasBit (bitUnit p) || x.hasBit (bitCluster (p / 8)) ||
  (List.range 7).any (fun k => x.hasBit (bitRegion (p / 64) k))

/-- A class S bit of loop `n` is set. -/
def Lane.loopFaulted (x : Lane) (n : Nat) : Bool := x.hasBit (bitLoopPlaus n) || x.hasBit (bitLoopInput n)

/-- Word `w` of FLT_STICKY or FLT_CAUSE (R502). -/
def bitsWord (bits : List Nat) (w : Nat) : Word :=
  bits.foldl (fun (a : Word) b => if b / 32 = w then a ||| (1#32 <<< (b % 32)) else a) 0

/-- The bits that a FAULT_ACK of a scope acts on (Table 14-11). -/
def scopeBits (scope index : Nat) : List Nat :=
  match scope with
  | 1 => [bitUnit index, bitProcess index]
  | 2 => [bitCluster index]
  | 3 => (List.range 8).map (bitRegion index)
  | 4 => [bitLoopPlaus index, bitLoopInput index]
  | 5 => [bitSelvedge index, bitProgramFault index, bitPartOverrun index]
  | _ => (List.range 4096).filter (fun b => bitClass b = 1 || bitClass b = 3)

end Sys2Proof.Machine
end

