-- ==== Sys2Proof/Machine/Calendar.lean ====
section
/-! DEFINITION. The calendar of the always-on domain (chapter 13): dates, pulses with rate trim, alarms, and the words that
registers and commands show. -/

namespace Sys2Proof.Machine

/-- Leap years under the full Gregorian rule (R459). -/
def isLeap (y : Nat) : Bool := (y % 4 = 0 && y % 100 ≠ 0) || y % 400 = 0

/-- Days of a month (Table 13-1). -/
def monthDays (y m : Nat) : Nat :=
  if m = 2 then (if isLeap y then 29 else 28) else if m = 4 || m = 6 || m = 9 || m = 11 then 30 else 31

/-- The date and time checks of Table 13-1. -/
def dateOk (d : DateTime) : Bool :=
  2000 ≤ d.year && d.year ≤ 2999 && 1 ≤ d.month && d.month ≤ 12 && 1 ≤ d.day && d.day ≤ monthDays d.year d.month &&
  d.hour ≤ 23 && d.minute ≤ 59 && d.second ≤ 59

/-- Leap years up to and including year `y`. -/
def leapsTo (y : Nat) : Nat := y / 4 - y / 100 + y / 400

/-- Days from 2000-01-01 to a date. -/
def daysSince2000 (d : DateTime) : Nat :=
  365 * (d.year - 2000) + (leapsTo (d.year - 1) - leapsTo 1999) +
    ((List.range (d.month - 1)).map (fun i => monthDays d.year (i + 1))).sum + (d.day - 1)

/-- Seconds from 2000-01-01 00:00:00. -/
def dtSeconds (d : DateTime) : Nat := daysSince2000 d * 86400 + d.hour * 3600 + d.minute * 60 + d.second

/-- Weekday, 1 Monday to 7 Sunday; 2000-01-01 is a Saturday (R460). -/
def dtWeekday (d : DateTime) : Nat := (5 + daysSince2000 d) % 7 + 1

/-- Milliseconds of the second (R460). -/
def Calendar.msec (c : Calendar) : Nat := c.sub * 1000 / 32768

/-- Milliseconds since 2000-01-01 00:00:00 (R460). -/
def Calendar.ms (c : Calendar) : Nat := (dtSeconds c.date) * 1000 + c.msec

/-- Whole minutes since 2000-01-01 00:00 (R473). -/
def Calendar.minutes (c : Calendar) : Nat := (dtSeconds c.date) / 60

/-- The date one second later; none after 2999-12-31 23:59:59. -/
def dtNext (d : DateTime) : Option DateTime :=
  if d.second < 59 then some { d with second := d.second + 1 }
  else if d.minute < 59 then some { d with second := 0, minute := d.minute + 1 }
  else if d.hour < 23 then some { d with second := 0, minute := 0, hour := d.hour + 1 }
  else if d.day < monthDays d.year d.month then some { d with second := 0, minute := 0, hour := 0, day := d.day + 1 }
  else if d.month < 12 then some { d with second := 0, minute := 0, hour := 0, day := 1, month := d.month + 1 }
  else if d.year < 2999 then some ⟨d.year + 1, 1, 1, 0, 0, 0⟩
  else none

/-- The calendar's first instant. -/
def calendarStart : Calendar := ⟨⟨2000, 1, 1, 0, 0, 0⟩, 0⟩

/-- Advance the sub-second count by `n` pulses (at most two); the second result tells that the calendar wrapped (R462). -/
def Calendar.advance (c : Calendar) (n : Nat) : Calendar × Bool :=
  if c.sub + n < 32768 then ({ c with sub := c.sub + n }, false)
  else match dtNext c.date with
    | some d => (⟨d, c.sub + n - 32768⟩, false)
    | none => (calendarStart, true)

/-- One T3 pulse: the calendar adjusts by the rate trim in force (R471), and a new TRIM takes effect at the first pulse of
a window (R472). -/
def Domain.pulse (d : Domain) : Domain :=
  let trim := if d.trimPos = 0 then d.trim else d.trimNow
  let k := d.trimPos
  let t := trim.natAbs
  let adjust := decide ((k + 1) * t / 1048576 > k * t / 1048576)
  let n := if adjust then (if trim > 0 then 2 else 0) else 1
  let r := d.cal.advance n
  { d with cal := r.1, epochWrap := d.epochWrap || r.2, trimNow := trim, trimPos := (k + 1) % 1048576 }

/-- `n` T3 pulses. -/
def Domain.pulses : Nat → Domain → Domain
  | 0, d => d
  | n + 1, d => Domain.pulses n d.pulse

/-- An enabled alarm whose minute the calendar has reached, while time is valid (R473). -/
def Domain.alarmDue (d : Domain) (n : Nat) : Bool :=
  let a := tget {} d.alarms n
  d.timeValid && a.en && decide (a.minute = d.cal.minutes)

/-- A fired alarm advances, or disables itself when it is single (R473). -/
def Alarm.fired (a : Alarm) : Alarm := if a.rep = 0 then { a with en := false } else { a with minute := a.minute + a.rep }

/-- An alarm at an accepted time set to the minute `now` (R474). -/
def Alarm.atSet (a : Alarm) (now : Nat) : Alarm :=
  if !a.en || now < a.minute then a
  else if a.rep = 0 then { a with en := false, missed := true }
  else { a with minute := a.minute + ((now - a.minute) / a.rep + 1) * a.rep }

/-- The calendar takes a time set (R468, R474). -/
def Domain.takeSet (d : Domain) (t : DateTime) : Domain :=
  let c : Calendar := ⟨t, 0⟩
  { d with cal := c, timeValid := true, timeLost := false, epochWrap := false, trimPos := 0,
           alarms := (List.range 4).foldl (fun a n => tput {} a n ((tget {} a n).atSet c.minutes)) d.alarms }

/-- The five words of RTC_TIME (Table 13-4). -/
def Domain.timeWords (d : Domain) : List Word :=
  let c := d.cal
  let w0 := c.msec + c.date.second * 65536 + c.date.minute * 16777216
  let w1 := c.date.hour + c.date.day * 256 + c.date.month * 65536 + dtWeekday c.date * 16777216
  let w2 := c.date.year + b2n d.timeValid * 65536 + b2n d.epochWrap * 131072
  [w32 w0, w32 w1, w32 w2, w32 c.ms, w32 (c.ms / 4294967296)]

/-- RTC_STAT (Table 13-4). Which source feeds the domain (R476) is a free value of the instant (assumption 122). -/
def Domain.statWord (d : Domain) : Word :=
  w32 (b2n d.timeValid + 4 * b2n d.timeLost + 8 * b2n d.kekLost + 16 * b2n d.epochWrap + 32 * b2n d.t3Lost +
    64 * b2n (Config.backupFeeds d.cal.ms) + 128 * b2n d.cellLow +
    256 * ((List.range 4).map (fun n => if (tget {} d.alarms n).missed then 2 ^ n else 0)).sum)

/-- The index of a PW register in RTC_BUSY (R481). -/
def pwIndex : PwReg → Nat
  | .setGo => 0
  | .trim => 1
  | .chg => 2
  | .alm n => 3 + n
  | .almCtl n => 7 + n

/-- The byte offset of a PW register (Table 13-3). -/
def pwOffset : PwReg → Nat
  | .setGo => 0x40
  | .trim => 0x44
  | .chg => 0x48
  | .alm n => 0x50 + 4 * n
  | .almCtl n => 0x60 + 4 * n

/-- Whether a lane's posted write to a register waits for the island. -/
def Domain.isBusy (d : Domain) (l : LaneId) (r : PwReg) : Bool := d.busy.any (fun b => b.lane = l && b.reg = r)

/-- RTC_BUSY of a lane. -/
def Domain.busyWord (d : Domain) (l : LaneId) : Word :=
  (d.busy.filter (fun b => b.lane = l)).foldl (fun (w : Word) b => w ||| (1#32 <<< pwIndex b.reg)) 0

/-- WRES after a write: word offset of the register and result code (R440, Table 12-3). -/
def wresWord (offset code : Nat) : Word := w32 (offset / 4 * 65536 + code)

/-- WRES of a block after the lane manager's write (R440). -/
def Lane.setWres (x : Lane) (b off code : Nat) : Lane :=
  let w := wresWord off code
  match b with
  | 2 => x.onPnt (fun k => { k with wres := w })
  | 4 => x.onLoopBlk (fun k => { k with wres := w })
  | 5 => x.onNrg (fun k => { k with wres := w })
  | 7 => x.onCan (fun k => { k with wres := w })
  | 8 => { x with rtcWres := w }
  | 10 => x.onRec (fun k => { k with wres := w })
  | 11 => x.onKey (fun k => { k with wres := w })
  | 12 => x.onPwr (fun k => { k with wres := w })
  | _ => x

/-- RTC_WRES of a lane after a write to a register of the block. -/
def Lane.setRtcWres (x : Lane) (r : PwReg) (code : Nat) : Lane := { x with rtcWres := wresWord (pwOffset r) code }

/-- RTC_WRES after a post: a core's write leaves it (R440). -/
def Lane.postWres (x : Lane) (p : Post) (code : Nat) : Lane := if p.core then x else x.setRtcWres p.reg code

/-- A write into the island: dropped while the island's clock is lost or while the register is BUSY, else posted (R33, R438,
Table 12-3). The lane manager polls BUSY before a write that a command or a commit asked for, which therefore waits. -/
def State.postWrite (s : State) (p : Post) (wait : Bool) : State :=
  if s.pkg.dom.t3Lost then s.onLane p.lane (fun x => x.postWres p 1)
  else if s.pkg.dom.isBusy p.lane p.reg then
    if wait then s.onLane p.lane (fun x => { x with rtcPosts := x.rtcPosts ++ [p] })
    else s.onLane p.lane (fun x => x.postWres p 1)
  else (s.onDom (fun d => { d with busy := d.busy ++ [p] })).onLane p.lane (fun x => x.postWres p 0)

/-- The date that RTC_SET_0 and RTC_SET_1 hold (Table 13-4). -/
def setDate (w0 w1 : Word) : DateTime :=
  ⟨field w1 11 0, field w1 19 16, field w1 28 24, field w0 21 16, field w0 13 8, field w0 5 0⟩

/-- RTC_SET_0 and RTC_SET_1 for a date. -/
def dateWord0 (d : DateTime) : Word := w32 (d.second + 256 * d.minute + 65536 * d.hour)
def dateWord1 (d : DateTime) : Word := w32 (d.year + 65536 * d.month + 16777216 * d.day)

/-- Position of a mailbox instance among a lane's instances (R441). -/
def readerNo : Reader → Nat
  | .core n => n
  | .manager => 16
  | .service => 17

def mbxNo : MbxId → Nat
  | .sysWide => 0
  | .laneDigest => 1
  | .hedSnap => 2
  | .loopBank => 3
  | .nrgAcc => 4
  | .rtcTime => 5
  | .keySlot => 6
  | .keyMeas => 7
  | .recWin => 8

def mbxKey (m : MbxId) (r : Reader) : Nat := mbxNo m * 18 + readerNo r

/-- One instance of a mailbox. -/
def Lane.mailbox (x : Lane) (m : MbxId) (r : Reader) : Mbx := tget {} x.mbx (mbxKey m r)

/-- Change one instance of a mailbox. -/
def Lane.onMbx (x : Lane) (m : MbxId) (r : Reader) (f : Mbx → Mbx) : Lane :=
  { x with mbx := tmod {} x.mbx (mbxKey m r) f }

/-- A tick captures the calendar into an instance that is not frozen (R464). -/
def Mbx.tick (b : Mbx) (words : List Word) : Mbx :=
  if b.frozen.isSome then b else { b with valid := true, data := words, capture := none }

/-- What is carried into the register domain when the always-on domain collapses (R463, R479, R516): the calendar, trim,
charger and alarms at 0, the KEK lost, both flags set. -/
def Domain.powerOnReset (d : Domain) : Domain :=
  { d with cal := calendarStart, timeValid := false, timeLost := true, kekLost := true, epochWrap := false,
           trim := 0, trimNow := 0, trimPos := 0, chg := 0, alarms := [], kek := none, kekGen := 0, latched := false,
           tamperSrc := 0, stamp := none, busy := [] }

end Sys2Proof.Machine
end

