-- ==== Sys2Proof/Machine/Saves.lean ====
section
/-! DEFINITION. Saves to MRAM (R156 to R161, R315) and the final area (R159, R513): captures, writing and choosing. -/

namespace Sys2Proof.Machine

/-- Offset and size of the held region in the shared window (Table 04-5). -/
def heldBase : Nat := 0x3C000
def heldSize : Nat := 0x4000

/-- A partition's held region, addressed from 0. -/
def Part.held (p : Part) : Mem := memSlice p.shared heldBase heldSize

/-- A partition's descriptor and held region as a save captures them (Table 04-9); a partition that has not started since
start-up still holds what start-up restored (R160). -/
def Part.capture (p : Part) : SavedPart :=
  { state := p.state
    gen := match p.boot with | some b => b.desc.gen | none => (p.current.map (·.gen)).getD 0
    retainSig := match p.boot with | some b => b.desc.retainSig | none => (p.current.map (·.retainSig)).getD 0
    cycle := p.cycle
    grant := p.grant
    warm := (p.current.map (·.warm)).getD false
    held := p.held
    hasProgram := p.current.isSome }

/-- The sixteen partitions of a lane as a save captures them. -/
def Lane.captureParts (x : Lane) : Tab SavedPart := (List.range 16).map (fun p => (p, (x.part p).capture))

/-- The code of an ordering code in a metering section, as IDENTIFY has it (Table 09-8). -/
def orderCode : Order → Nat
  | .m00 => 0x00
  | .m32 => 0x20
  | .m96 => 0x60

/-- The 64-byte record of a circuit in a metering section (Table 08-6). -/
def circuitRecord (c : Circuit) : List Byte :=
  leBytes 8 (twos 64 c.acc) ++ leBytes 8 c.exp ++ leBytes 2 c.frac ++ leBytes 2 c.expFrac ++
  leBytes 1 (b2n c.wrap + 2 * b2n (bitOf c.cfg 29)) ++ zeros 3 ++ leBytes 4 c.quant.p.natAbs ++ leBytes 4 c.unmeasured ++
  leBytes 4 c.impIssued.toNat ++ leBytes 4 c.expIssued.toNat ++ zeros 24

/-- The 8 KiB of a metering section with the CRC field given (Table 08-6; the places inside the first 64 bytes are log 128's). -/
def MeterSection.bytes (m : MeterSection) (crc : Word) : List Byte :=
  leBytes 8 m.window ++ leBytes 8 m.timeMs ++ leBytes 1 (b2n m.valid) ++ leBytes 1 (orderCode m.order) ++ zeros 2 ++
  leBytes 4 crc.toNat ++ zeros 40 ++ (List.range 96).flatMap (fun c => circuitRecord (tget {} m.circuits c)) ++ zeros 1984

/-- The CRC-32 of a section, taken with its own field 0. -/
def MeterSection.sum (m : MeterSection) : Word := crc32 (m.bytes 0)

/-- A section whose CRC-32 checks. -/
def MeterSection.checks (m : MeterSection) : Bool := m.crc = m.sum

/-- Where a metering section lies in MRAM (R315): in the periodic area that begins at `area`, and in the final area. -/
def periodicSection (area : Nat) : Nat := area + 0x42000
def finalSection : Nat := 0x19B000

/-- The reportable metering state after the last window whose end precedes a beat that the active lane names with the save (R315). -/
def Lane.meterSection (x : Lane) (o : Order) (dom : Domain) (now before : Nat) : Option MeterSection :=
  let w := (before - 1) / 10000000
  match x.blk.nrg.history.find? (fun h => decide (h.1 ≤ w)) with
  | some (n, cs) =>
    let m : MeterSection := { window := n, timeMs := dom.cal.ms - (now - 10000000 * n) / 100000, valid := dom.timeValid,
                              order := o, circuits := cs, crc := 0 }
    some { m with crc := m.sum }
  | none => none

/-- The newest complete periodic save of a lane (R160). -/
def Mram.newest (m : Mram) : Option Save :=
  let ok := fun (s : Option Save) => match s with | some v => if v.complete then some v else none | none => none
  match ok m.area0, ok m.area1 with
  | some p, some q => if p.number < q.number then some q else some p
  | some p, none => some p
  | none, q => q

/-- The area that the next periodic save uses: never the one that holds the newest complete save (R156). -/
def Mram.nextArea (m : Mram) : Nat :=
  match m.newest, m.area0 with
  | some v, some w => if v.number = w.number && w.complete then 1 else 0
  | _, _ => 0

/-- The beat at which the newest pick of a lane closed is named by the caller; a periodic save starts at that pick
(R157): every partition's held region and descriptor are captured. -/
def Lane.startSave (x : Lane) (o : Order) (dom : Domain) (now closeBeat : Nat) : Lane :=
  let n := x.man.saveNumber + 1
  let s : Save := { number := n, timeMs := dom.cal.ms, valid := dom.timeValid, parts := x.captureParts,
                    section_ := x.meterSection o dom now closeBeat, complete := false }
  let area := x.mram.nextArea
  { x with
    man := { x.man with saveNumber := n, saveAt := none, lastSave := now, saveJob := some ⟨s, area, now⟩ }
    mram := if area = 0 then { x.mram with area0 := some s } else { x.mram with area1 := some s } }

/-- A save is due at the release of epoch `e`, and no save is being written and no warning stands (R157, R158, R544). -/
def Lane.saveDueAt (x : Lane) (e : Word) : Bool :=
  match x.man.saveAt with
  | some n => (n = e || serialBefore n e) && x.man.saveJob.isNone && !x.blk.pwr.warn
  | none => false

/-- Pages of 1 KiB of partition `p`'s held region that differ from a save's (R159). -/
def changedPages (base : Save) (x : Lane) (p : Nat) : List (Nat × Nat) :=
  let h := (x.part p).held
  let b := match base.parts.lookup p with | some q => q.held | none => []
  ((List.range 16).filter (fun i => decide (memSlice h (1024 * i) 1024 ≠ memSlice b (1024 * i) 1024))).map (fun i => (p, i))

/-- The last records written, as the final area keeps them (R513). -/
def RecBlk.tail (r : RecBlk) : List RecRecord := r.records.drop (r.records.length - 256)

/-- Start of a final save (R159, R513, R315): nothing is written before the first periodic save of the run (R546), and no
program part when more than 96 KiB of held pages changed. `before` is the beat at which VBUS fell below VWARN. -/
def Lane.startFinal (x : Lane) (o : Order) (dom : Domain) (now before : Nat) : Lane :=
  match (if x.blk.pwr.firstSaveDone then x.mram.newest else none) with
  | none => x.onPwr (fun p => { p with finalSkipped := p.finalSkipped + 1 })
  | some base =>
    let pages := (List.range 16).flatMap (changedPages base x)
    let program := decide (pages.length ≤ 96)
    let n := x.man.saveNumber + 1
    let s : Save :=
      { number := n, base := base.number, timeMs := dom.cal.ms, valid := dom.timeValid,
        parts := x.captureParts, pages := if program then pages else [], program := program,
        section_ := x.meterSection o dom now before, tail := x.blk.recd.tail,
        frozen := x.blk.recd.frozen, frozenLost := if x.blk.recd.frozen then x.blk.recd.frozenLost else 0,
        complete := false }
    ({ x with man := { x.man with saveNumber := n }, mram := { x.mram with final := some s },
              finalJob := some s, finalBeat := now }).onPwr
      (fun p => { p with saving := true,
                         finalSkipped := if program then p.finalSkipped else p.finalSkipped + 1 })

/-- A periodic save in progress is abandoned without its closing record (Table 17-2). -/
def Lane.abandonSave (x : Lane) : Lane := x.onMan (fun m => { m with saveJob := none })

/-- The closing record of the save in progress has been written and read back (R120). -/
def Lane.completeSave (x : Lane) : Lane :=
  match x.man.saveJob with
  | none => x
  | some j =>
    let s := { j.save with complete := true }
    ({ x with mram := if j.area = 0 then { x.mram with area0 := some s } else { x.mram with area1 := some s },
              man := { x.man with saveJob := none, newestPeriodic := s.number } }).onPwr
      (fun p => { p with firstSaveDone := true })

/-- The final area is complete (step 5 of Table 17-2). -/
def Lane.completeFinal (x : Lane) (us : Word) : Lane :=
  match x.finalJob with
  | none => x
  | some s =>
    ({ x with mram := { x.mram with final := some { s with complete := true } }, finalJob := none,
              man := { x.man with newestFinal := s.number } }).onPwr
      (fun p => { p with saving := false, finalDone := p.warn, finalSaves := p.finalSaves + 1, lastSaveUs := us })

/-- The newest complete final save of an MRAM (R172). -/
def Mram.completeFinal (m : Mram) : Option Save := m.final.filter (·.complete)

/-- The final area of an MRAM, when it is complete and names the newest complete periodic save (R160). -/
def Mram.usableFinal (m : Mram) (newest : Nat) : Option Save :=
  match m.final with
  | some f => if f.complete && f.base = newest then some f else none
  | none => none

end Sys2Proof.Machine
end

