-- ==== Sys2Proof/Machine/Lanes.lean ====
section
/-! DEFINITION. Detections and their reactions: a lane leaves service (R107 to R111), a rejoin fails (R114), the module halts
at class G (R493). -/

namespace Sys2Proof.Machine

/-- One hour, and one millisecond, in T5 beats. -/
def hourBeats : Nat := 360000000000
def msBeats : Nat := 100000

/-- What every core and engine of a lane does when the lane stops (R493, R107): cores idle, cycles end, pulses off. -/
def Lane.stopEngines (x : Lane) : Lane :=
  { x with
    cores := x.cores.map (fun c => (c.1, { c.2 with run := .idle }))
    parts := x.parts.map (fun p => (p.1, { p.2 with phase := .idle }))
    blk := { x.blk with nrg := { x.blk.nrg with
      pulses := x.blk.nrg.pulses.map (fun p => (p.1, { p.2 with on := false })) } } }

/-- A lane at the class G halt (Table 14-6). A lane that was not in service stops (assumption 24). -/
def Lane.haltG (x : Lane) (o : Order) (dom : Domain) (now : Nat) : Lane :=
  if x.inService then
    let y := ((x.stopEngines).onLaneBlk (fun b => { b with role := .halted, haltedActive := b.role = .active })).onFlt
      (fun f => { f with halted := true })
    if x.blk.pwr.warn then y else y.abandonSave.startFinal o dom now now
  else if x.blk.lane.role = .selftest || x.blk.lane.role = .transfer then
    (x.onLaneBlk (fun b => { b with role := .off })).onFlt (fun f => { f with halted := true })
  else x

/-- Class G: both lanes halt with every output at its safe value (R493). -/
def State.haltG (s : State) : State :=
  if s.pkg.halted then s
  else
    let d := s.pkg.dom
    let t := s.pkg.beat
    { s with pkg := { s.pkg with halted := true }, a := s.a.haltG s.pkg.order d t, b := s.b.haltG s.pkg.order d t }

/-- A lane closes its output gates and starts its rejoin (R107, R113 step 1); a frame being sent is cut off (R108), and
the lane takes no further part in heddle commits (R233). -/
def Lane.depart (x : Lane) (b now : Nat) (l : LaneId) : Lane :=
  let y := ((x.stopEngines.abandonSave).onHed (fun h => { h with commit := [] })).onLaneBlk (fun k =>
    { k with role := .selftest, gatesClosed := true, heartbeat := false, rejoinStep := 1, lBeat := some now,
             lastCause := w32 (l.num * 65536 + b), holdElapsed := 0, holdBeat := none })
  ((y.onPort 0 (fun p => { p with sending := none })).onPort 1 (fun p => { p with sending := none }))

/-- The newest frame sent by a port ends with a bad FCS. -/
def markBad (l : LaneId) (n : Nat) : List (LaneId × Nat × TxEntry × Bool) → List (LaneId × Nat × TxEntry × Bool)
  | [] => []
  | e :: r => if e.1 = l && e.2.1 = n then (e.1, e.2.1, e.2.2.1, false) :: r else e :: markBad l n r

/-- Frames of a lane that a closing gate cuts off end with a bad FCS (R108); a packet in transit on the service port is lost
when the lane is the active one (R329). -/
def State.cutFrames (s : State) (l : LaneId) : State :=
  let cut := fun (n : Nat) (q : List (LaneId × Nat × TxEntry × Bool)) =>
    if ((s.lane l).port n).sending.isSome then markBad l n q else q
  s.onPkg (fun p => { p with
    sent := cut 1 (cut 0 p.sent)
    sp := if s.active = some l then { p.sp with rx := [], replies := [] } else p.sp })

/-- A failed rejoin returns the lane to step 1; after three failures within 1 h the lane stays OFF (R114). Both lanes count it in
LANE_REJOIN_FAILS: the spec does not say in which lane's block it counts (DESIGN CHOICE, log entry 123). -/
def State.rejoinFail (s : State) (l : LaneId) : State :=
  let now := s.pkg.beat
  let y := s.lane l.other
  let fails := now :: (y.blk.lane.rejoinFailBeats.filter (fun t => decide (now < t + hourBeats)))
  let barred := decide (3 ≤ fails.length)
  let s1 := s.onLane l (fun x => x.onLaneBlk (fun b =>
    { b with role := if barred then .off else .selftest, rejoinStep := if barred then 0 else 1,
             rejoinFails := b.rejoinFails + 1, percent := 0, copiedParts := [], copiedGroups := [] }))
  let s2 := s1.onLane l.other (fun x => x.onLaneBlk (fun b =>
    { b with rejoinFails := b.rejoinFails + 1, rejoinFailBeats := fails, barred := b.barred || barred }))
  if barred then s2.flag l.other 2089 false else s2

/-- A class L detection `b` in lane `l`: the lane leaves service (R107), or the module halts when its partner is not in
service (R111), or the lane's rejoin fails (R114). A lane that is leaving service does not leave again (R488). -/
def State.leaveService (s : State) (l : LaneId) (b : Nat) : State :=
  let x := s.lane l
  let y := s.lane l.other
  if x.inService then
    if y.inService then
      ((s.cutFrames l).send l (.notice b)).onLane l (fun x => x.depart b s.pkg.beat l)
    else s.haltG
  else if x.blk.lane.role = .selftest || x.blk.lane.role = .transfer then
    if !y.inService then s.haltG else s.rejoinFail l
  else s

/-- A detection of collector bit `b` in lane `l` (R482 to R488): the bit is set and the reaction of its class starts. -/
def State.raise (s : State) (l : LaneId) (b : Nat) (lasting : Bool) : State :=
  if !(s.lane l).collects then s
  else if (s.lane l).hasBit b then s.flag l b lasting
  else
    let s1 := s.flag l b lasting
    if bitClass b = 2 then s1.leaveService l b
    else if bitClass b = 4 then s1.haltG
    else s1

/-- A detection in both lanes. -/
def State.raiseBoth (s : State) (b : Nat) (lasting : Bool) : State := (s.raise .a b lasting).raise .b b lasting

/-- The hold-off restarts from zero (R116). -/
def Lane.restartHoldoff (x : Lane) : Lane := x.onLaneBlk (fun b => { b with holdElapsed := 0, holdBeat := none })

/-- The lane that LANE_CTL.PREFER names (R115): 0 lane A, 1 lane B, otherwise none. -/
def preferred (n : Nat) : Option LaneId := if n = 0 then some .a else if n = 1 then some .b else none

/-- A lane's state code in LANE_ROLE.STATE (Table 03-10). -/
def roleCode : Role → Nat
  | .off => 0
  | .selftest => 1
  | .transfer => 2
  | .standby => 3
  | .active => 4
  | .halted => 7

/-- LANE_ROLE of lane `l` (Table 03-10). -/
def State.roleWord (s : State) (l : LaneId) : Word :=
  let b := (s.lane l).blk.lane
  let q := (s.lane l.other).blk.lane
  let holding := decide (preferred b.prefer = some l) && b.role = .standby && b.holdElapsed < b.holdoff
  w32 (roleCode b.role + 16 * roleCode q.role + 512 * b2n (b.role = .active) +
    1024 * b2n ((s.lane l).inService && !(s.lane l.other).inService) + 2048 * b2n b.barred + 4096 * b2n holding)

/-- LANE_LINK of lane `l` (Table 03-10). -/
def State.linkWord (s : State) (l : LaneId) : Word :=
  let b := (s.lane l).blk.lane
  let q := s.lane l.other
  w32 (b2n b.sub0 + 2 * b2n b.sub1 + 4 * b2n q.inService + 8 * b2n q.faultLine)

/-- LANE_BUS_REACH (Table 03-10, R123): a bus is reachable when a lane in service reaches it; a single-pair bus needs lane A
(R121), and a controller in bus-off does not reach its bus (R429). The mode of a bus is that of a lane in service. -/
def State.busReach (s : State) : Word :=
  let reach := fun (x : Lane) (n : Nat) =>
    x.inService && bitOf (x.bus n).ctl 0 && (x.bus n).state ≠ 2
  w32 (((List.range 8).map (fun n =>
    if reach s.a n || (!bitOf (s.b.bus n).ctl 1 && reach s.b n) then 2 ^ n else 0)).sum)

/-- LANE_XFER at a beat (Table 03-10); the share that the pre-copy has copied so far is open. -/
def Lane.xferWord (x : Lane) (now : Nat) : Word :=
  let b := x.blk.lane
  w32 ((if b.rejoinStep = 4 then Config.copyShare now % 101 else b.percent) +
    256 * b2n (b.rejoinStep = 4) + 512 * b2n (5 ≤ b.rejoinStep))

end Sys2Proof.Machine
end

