-- ==== Sys2Proof/Machine/Operands.lean ====
section
/-! DEFINITION. The operand forms of Skelkan packets: header and parameter layouts of Tables 09-3 and 09-8 to 09-16, read
from bytes and written as bytes. -/

namespace Sys2Proof.Machine

/-- The number in `n` bytes from offset `o`, most significant first (R8). -/
def beAt (bs : List Byte) (o n : Nat) : Nat := beNat ((bs.drop o).take n)

/-- Bytes `o` to `o + n - 1` are 0. -/
def zeroAt (bs : List Byte) (o n : Nat) : Bool := ((bs.drop o).take n).all (· = 0)

/-- Cut a list into pieces of `n` bytes; `fuel` bounds their number. -/
def chunks (n : Nat) : Nat → List Byte → List (List Byte)
  | 0, _ => []
  | f + 1, bs => if bs = [] then [] else bs.take n :: chunks n f (bs.drop n)

/-- What parameters spell: the operation, whether their length is that of the layout (step 10 of Table 09-5) and whether
every reserved byte and bit is 0 (R353). -/
structure Parsed where
  op : Op
  lenOk : Bool
  reservedOk : Bool := true
deriving DecidableEq, Repr

/-- Every bit of `v` outside the low `n` bits is 0. -/
def fits (v n : Nat) : Bool := v < 2 ^ n

/-- Parameters that hold a count at offset 0, then items of `n` bytes from offset 4. -/
def countedItems (bs : List Byte) (n : Nat) : List (List Byte) := chunks n ((bs.length - 4) / n) (bs.drop 4)

/-- LEN of a counted layout. -/
def countedLen (bs : List Byte) (n : Nat) : Bool := 4 ≤ bs.length && bs.length = 4 + n * beAt bs 0 2

def parseUnitItem (b : List Byte) : UnitItem :=
  ⟨beAt b 0 2, decide (beAt b 2 1 % 2 = 1), beAt b 3 1, w32 (beAt b 4 4), w32 (beAt b 8 4), w32 (beAt b 12 4)⟩

def parseForce (b : List Byte) (mode : Bool) : ForceArgs :=
  if mode then ⟨beAt b 1 1, beAt b 2 1, beAt b 8 8, 0⟩
  else ⟨beAt b 0 1, beAt b 1 1, beAt b 8 8, BitVec.ofNat 64 (beAt b 16 8)⟩

def parsePattern (b : List Byte) : PatternArgs :=
  ⟨beAt b 0 1, beAt b 4 4, beAt b 8 4, beAt b 12 4, (chunks 2 ((b.length - 16) / 2) (b.drop 16)).map (fun c => BitVec.ofNat 16 (beNat c))⟩

def parseWords (b : List Byte) : List Word := (chunks 4 (b.length / 4) b).map (fun c => w32 (beNat c))

/-- Bits that the KINDS field of EVENT_SUBSCRIBE defines: 1 and 4 to 8 (Table 09-8). -/
def kindsMask : Nat := 0x1F2

/-- The operation that an opcode and its parameters spell (Tables 09-8 to 09-16). -/
def parseOp (opcode : Nat) (b : List Byte) : Parsed :=
  let n := b.length
  let at1 := fun (o : Nat) => beAt b o 1
  let at2 := fun (o : Nat) => beAt b o 2
  let at4 := fun (o : Nat) => beAt b o 4
  let bad : Bool → Parsed := fun len => ⟨.badSelector opcode b, len, true⟩
  match opcode with
  | 0x0001 => ⟨.nop, n = 0, true⟩
  | 0x0002 => ⟨.echo b, n ≤ 1024, true⟩
  | 0x0003 => ⟨.identify, n = 0, true⟩
  | 0x0004 => ⟨.getMeasurement b, n = 32, true⟩
  | 0x0005 => ⟨.pick, n = 0, true⟩
  | 0x0006 =>
    let r := zeroAt b 1 1 && (at2 2 &&& kindsMask) = at2 2
    if n = 0 then bad false
    else if at1 0 = 1 then ⟨.subStart (at2 2) (w32 (at4 4)), n = 8, r⟩
    else if at1 0 = 2 then ⟨.subStop (at2 2) (w32 (at4 4)), n = 8, r⟩
    else if at1 0 = 3 then ⟨.subAck (at2 2) (w32 (at4 4)), n = 8, r⟩
    else bad true
  | 0x0101 => ⟨.readPoints (at2 0) (at2 2), n = 4, true⟩
  | 0x0102 =>
    let is := countedItems b 8
    ⟨.writePoints (is.map (fun c => (beAt c 0 2, w32 (beAt c 4 4)))), countedLen b 8,
      zeroAt b 2 2 && is.all (fun c => zeroAt c 2 2)⟩
  | 0x0103 => ⟨.forceSet (parseForce b false), n = 24, zeroAt b 2 6⟩
  | 0x0104 =>
    if n = 0 then bad false
    else if at1 0 = 1 || at1 0 = 2 then ⟨.forceClear (at1 0) (parseForce b true), n = 16, zeroAt b 3 5⟩
    else bad true
  | 0x0105 => ⟨.forceList (at2 0) (at2 2), n = 4, true⟩
  | 0x0110 =>
    let is := countedItems b 16
    ⟨.configUnits (is.map parseUnitItem), countedLen b 16, zeroAt b 2 2 && is.all (fun c => beAt c 2 1 < 2)⟩
  | 0x0120 => ⟨.heddleLoad (at1 0) (at4 4) (b.drop 8), 8 ≤ n && n = 8 + at2 2, zeroAt b 1 1⟩
  | 0x0121 => ⟨.heddleCommit (at1 0) (w32 (at4 4)), n = 8, zeroAt b 1 3⟩
  | 0x0201 =>
    if n = 0 then bad false
    else if at1 0 = 1 then
      ⟨.loopConfigLoop (at1 1) (at1 4) (parseWords (b.drop 8)), n = 72, zeroAt b 2 2 && zeroAt b 5 3⟩
    else if at1 0 = 2 then
      ⟨.loopConfigGroup (at1 1) (at4 4) (at2 8) (at1 10), n = 12, zeroAt b 2 2 && zeroAt b 11 1⟩
    else bad true
  | 0x0202 => ⟨.loopBankWrite (at1 0) (parseWords (b.drop 4)), n = 132, zeroAt b 1 3⟩
  | 0x0203 => ⟨.loopBankSwap (at1 0) (decide (at1 1 % 2 = 1)) (BitVec.ofNat 16 (at2 2)), n = 4, at1 1 < 2⟩
  | 0x0204 => ⟨.loopStatus (at1 0) (at1 1), n = 2, true⟩
  | 0x0205 =>
    let p := parsePattern b
    let r := zeroAt b 2 2
    if n < 2 then bad false
    else if at1 1 = 1 then ⟨.patternClear p, n = 16, r⟩
    else if at1 1 = 2 then ⟨.patternRead p, n = 16, r⟩
    else if at1 1 = 3 then
      ⟨.patternWrite p, if p.transfer = 0 then 16 ≤ n && n = 16 + 2 * p.count else n = 16, r⟩
    else if at1 1 = 4 then ⟨.patternSave p, n = 16, r⟩
    else bad true
  | 0x0301 =>
    let is := countedItems b 12
    ⟨.meterConfig (is.map (fun c => ⟨beAt c 0 1, beAt c 1 1, beAt c 4 8⟩)), countedLen b 12,
      zeroAt b 2 2 && is.all (fun c => zeroAt c 2 2)⟩
  | 0x0302 =>
    if n = 0 then bad false
    else if at1 0 ≤ 2 then ⟨.meterRead (at1 0) (at1 1) (at1 2), n = 4, zeroAt b 3 1⟩
    else bad true
  | 0x0303 => ⟨.meterReset (at1 0), n = 4, zeroAt b 1 3⟩
  | 0x0304 => ⟨.meterLoss (at1 0) (at1 1), n = 4, zeroAt b 2 2⟩
  | 0x0401 => ⟨.programLoad (at1 0) (at4 4) (at4 8), n = 12, zeroAt b 1 3⟩
  | 0x0402 => ⟨.programExchange (at1 0) (decide (at1 1 % 2 = 1)) (BitVec.ofNat 16 (at2 2)), n = 4, at1 1 < 2⟩
  | 0x0403 =>
    if n < 2 then bad false
    else if at1 1 ≤ 2 then ⟨.restart (at1 0) (at1 1) (BitVec.ofNat 16 (at2 2)), n = 4, true⟩
    else bad true
  | 0x0404 => ⟨.cycleStatus (at1 0), n = 4, zeroAt b 1 3⟩
  | 0x0405 => ⟨.retainSave (at1 0), n = 4, zeroAt b 1 3⟩
  | 0x0501 => ⟨.recFreeze, n = 0, true⟩
  | 0x0502 => ⟨.recRead (beAt b 0 8) (at1 8), n = 12, zeroAt b 9 3⟩
  | 0x0503 => ⟨.recThaw, n = 0, true⟩
  | 0x0601 => ⟨.timeGet, n = 0, true⟩
  | 0x0602 => ⟨.timeSet ⟨at2 0, at1 2, at1 3, at1 4, at1 5, at1 6⟩, n = 8, zeroAt b 7 1⟩
  | 0x0603 => ⟨.timeTrim (signed 16 (at2 0)), n = 4, zeroAt b 2 2⟩
  | 0x0701 =>
    if at1 0 = 0xFF then ⟨.escrowRestore (b.drop 4), n = 52, zeroAt b 1 3⟩
    else ⟨.keyLoad (at1 0) (b.drop 4), n = 52, zeroAt b 1 3⟩
  | 0x0702 => ⟨.keyUnload (at1 0) (decide (at1 1 % 2 = 1)), n = 4, at1 1 < 2 && zeroAt b 2 2⟩
  | 0x0703 =>
    if n = 0 then bad false
    else if at1 0 = 1 then ⟨.kekGenerate, n = 4, zeroAt b 1 3⟩
    else if at1 0 = 2 then ⟨.kekWrap ((b.drop 4).take 32) (b.drop 36), n = 44, zeroAt b 1 3⟩
    else bad true
  | 0x0704 => ⟨.lifecycleGet, n = 0, true⟩
  | 0x0705 => ⟨.lifecycleAdvance (at1 0) (w32 (at4 4)), n = 8, zeroAt b 1 3⟩
  | 0x0801 =>
    ⟨.netConfig ⟨w32 (at4 0), at1 4, at1 5, BitVec.ofNat 16 (at2 6), BitVec.ofNat 48 (beAt b 8 6), at1 14,
      w32 (at4 16), BitVec.ofNat 128 (beAt b 20 16)⟩, n = 36, zeroAt b 15 1⟩
  | 0x0802 =>
    ⟨.filterSet ⟨at1 0, at1 1, at1 2, at1 3, at1 4, at1 5, at2 6, at2 8, at2 10⟩, n = 16, zeroAt b 12 4⟩
  | 0x0803 =>
    ⟨.canConfig ⟨at1 0, at1 1, at2 2, at2 4, at1 6, at1 7, at1 8, at1 9, at1 10, at1 11, at1 12⟩, n = 16,
      fits (at1 1) 4 && zeroAt b 13 3⟩
  | 0x0804 =>
    ⟨.mailboxSet ⟨at1 0, at1 1, at1 2, at1 3, w32 (at4 4), w32 (at4 8), at1 12⟩, n = 16, zeroAt b 13 3⟩
  | 0x0901 => ⟨.faultStatus (at2 0) (at2 2), n = 4, true⟩
  | 0x0902 => ⟨.faultAck (at1 0) (at2 2), n = 4, zeroAt b 1 1⟩
  | 0x0903 => ⟨.laneStatus, n = 0, true⟩
  | 0x0904 => ⟨.lanePrefer (at1 0) (at2 2), n = 4, zeroAt b 1 1⟩
  | 0x0A01 => ⟨.policyGet (at1 0) (at2 2) (at2 4), n = 6, zeroAt b 1 1⟩
  | 0x0A02 =>
    if n < 2 then bad false
    else if at1 1 = 1 then ⟨.policyPin (at1 0) (at2 2) (w32 (at4 4)), n = 8, true⟩
    else if at1 1 = 2 then ⟨.policyUnpin (at1 0) (at2 2) (w32 (at4 4)), n = 8, true⟩
    else bad true
  | 0x0A03 =>
    let is := countedItems b 8
    ⟨.moduleSet (is.map (fun c => ⟨beAt c 0 1, beAt c 1 1, beAt c 4 4⟩)), countedLen b 8,
      zeroAt b 2 2 && is.all (fun c => zeroAt c 2 2)⟩
  | 0x0A04 => ⟨.moduleGet (at1 0) (at1 1), n = 4, zeroAt b 2 2⟩
  | c => ⟨.unknown c, true, true⟩

/-! ### Parameters as bytes -/

def beWords (ws : List Word) : List Byte := ws.flatMap (fun w => beBytes 4 w.toNat)

def patternBytes (f : Nat) (p : PatternArgs) : List Byte :=
  beBytes 1 p.loop ++ beBytes 1 f ++ zeros 2 ++ beBytes 4 p.offset ++ beBytes 4 p.count ++ beBytes 4 p.transfer ++
  p.samples.flatMap (fun v => beBytes 2 v.toNat)

/-- The parameters of an operation, in the layout of its table. -/
def opBytes : Op → List Byte
  | .nop => []
  | .echo bs => bs
  | .identify => []
  | .getMeasurement nonce => nonce
  | .pick => []
  | .subStart k a => beBytes 1 1 ++ zeros 1 ++ beBytes 2 k ++ beBytes 4 a.toNat
  | .subStop k a => beBytes 1 2 ++ zeros 1 ++ beBytes 2 k ++ beBytes 4 a.toNat
  | .subAck k a => beBytes 1 3 ++ zeros 1 ++ beBytes 2 k ++ beBytes 4 a.toNat
  | .readPoints f c => beBytes 2 f ++ beBytes 2 c
  | .writePoints is =>
    beBytes 2 is.length ++ zeros 2 ++ is.flatMap (fun i => beBytes 2 i.1 ++ zeros 2 ++ beBytes 4 i.2.toNat)
  | .forceSet f => beBytes 1 f.kind ++ beBytes 1 f.targetPart ++ zeros 6 ++ beBytes 8 f.target ++ beBytes 8 f.value.toNat
  | .forceClear m f => beBytes 1 m ++ beBytes 1 f.kind ++ beBytes 1 f.targetPart ++ zeros 5 ++ beBytes 8 f.target
  | .forceList st m => beBytes 2 st ++ beBytes 2 m
  | .configUnits is =>
    beBytes 2 is.length ++ zeros 2 ++ is.flatMap (fun u =>
      beBytes 2 u.point ++ beBytes 1 (b2n u.setOwner) ++ beBytes 1 u.owner ++ beBytes 4 u.cfg.toNat ++
      beBytes 4 u.param.toNat ++ beBytes 4 u.safe.toNat)
  | .heddleLoad r o d => beBytes 1 r ++ zeros 1 ++ beBytes 2 d.length ++ beBytes 4 o ++ d
  | .heddleCommit r c => beBytes 1 r ++ zeros 3 ++ beBytes 4 c.toNat
  | .loopConfigLoop i o ws => beBytes 1 1 ++ beBytes 1 i ++ zeros 2 ++ beBytes 1 o ++ zeros 3 ++ beWords ws
  | .loopConfigGroup i p ph e =>
    beBytes 1 2 ++ beBytes 1 i ++ zeros 2 ++ beBytes 4 p ++ beBytes 2 ph ++ beBytes 1 e ++ zeros 1
  | .loopBankWrite l ws => beBytes 1 l ++ zeros 3 ++ beWords ws
  | .loopBankSwap l b g => beBytes 1 l ++ beBytes 1 (b2n b) ++ beBytes 2 g.toNat
  | .loopStatus f c => beBytes 1 f ++ beBytes 1 c
  | .patternClear p => patternBytes 1 p
  | .patternRead p => patternBytes 2 p
  | .patternWrite p => patternBytes 3 p
  | .patternSave p => patternBytes 4 p
  | .meterConfig is =>
    beBytes 2 is.length ++ zeros 2 ++
      is.flatMap (fun i => beBytes 1 i.item ++ beBytes 1 i.index ++ zeros 2 ++ beBytes 8 i.value)
  | .meterRead st f c => beBytes 1 st ++ beBytes 1 f ++ beBytes 1 c ++ zeros 1
  | .meterReset c => beBytes 1 c ++ zeros 3
  | .meterLoss f c => beBytes 1 f ++ beBytes 1 c ++ zeros 2
  | .programLoad p n t => beBytes 1 p ++ zeros 3 ++ beBytes 4 n ++ beBytes 4 t
  | .programExchange p r g => beBytes 1 p ++ beBytes 1 (b2n r) ++ beBytes 2 g.toNat
  | .restart p m k => beBytes 1 p ++ beBytes 1 m ++ beBytes 2 k.toNat
  | .cycleStatus p => beBytes 1 p ++ zeros 3
  | .retainSave p => beBytes 1 p ++ zeros 3
  | .recFreeze => []
  | .recRead st m => beBytes 8 st ++ beBytes 1 m ++ zeros 3
  | .recThaw => []
  | .timeGet => []
  | .timeSet d =>
    beBytes 2 d.year ++ beBytes 1 d.month ++ beBytes 1 d.day ++ beBytes 1 d.hour ++ beBytes 1 d.minute ++
    beBytes 1 d.second ++ zeros 1
  | .timeTrim t => beBytes 2 (twos 16 t) ++ zeros 2
  | .keyLoad s b => beBytes 1 s ++ zeros 3 ++ b
  | .escrowRestore b => beBytes 1 0xFF ++ zeros 3 ++ b
  | .keyUnload s e => beBytes 1 s ++ beBytes 1 (b2n e) ++ zeros 2
  | .kekGenerate => beBytes 1 1 ++ zeros 3
  | .kekWrap k a => beBytes 1 2 ++ zeros 3 ++ k ++ a
  | .lifecycleGet => []
  | .lifecycleAdvance t c => beBytes 1 t ++ zeros 3 ++ beBytes 4 c.toNat
  | .netConfig n =>
    beBytes 4 n.moduleId.toNat ++ beBytes 1 n.pair ++ beBytes 1 n.speed ++ beBytes 2 n.vlan.toNat ++
    beBytes 6 n.mac.toNat ++ beBytes 1 n.prefixLen ++ zeros 1 ++ beBytes 4 n.ipv4.toNat ++ beBytes 16 n.ipv6.toNat
  | .filterSet f =>
    beBytes 1 f.port ++ beBytes 1 f.filter ++ beBytes 1 f.en ++ beBytes 1 f.action ++ beBytes 1 f.ring ++
    beBytes 1 f.pcpMask ++ beBytes 2 f.vid ++ beBytes 2 f.vidMask ++ beBytes 2 f.etherType ++ zeros 4
  | .canConfig c =>
    beBytes 1 c.bus ++ beBytes 1 c.mode ++ beBytes 2 c.nbrp ++ beBytes 2 c.ntseg1 ++ beBytes 1 c.ntseg2 ++
    beBytes 1 c.nsjw ++ beBytes 1 c.dbrp ++ beBytes 1 c.dtseg1 ++ beBytes 1 c.dtseg2 ++ beBytes 1 c.dsjw ++
    beBytes 1 c.tdco ++ zeros 3
  | .mailboxSet m =>
    beBytes 1 m.bus ++ beBytes 1 m.dir ++ beBytes 1 m.mailbox ++ beBytes 1 m.type ++ beBytes 4 m.id.toNat ++
    beBytes 4 m.mask.toNat ++ beBytes 1 m.en ++ zeros 3
  | .faultStatus f c => beBytes 2 f ++ beBytes 2 c
  | .faultAck s i => beBytes 1 s ++ zeros 1 ++ beBytes 2 i
  | .laneStatus => []
  | .lanePrefer p h => beBytes 1 p ++ zeros 1 ++ beBytes 2 h
  | .policyGet i f c => beBytes 1 i ++ zeros 1 ++ beBytes 2 f ++ beBytes 2 c
  | .policyPin i x v => beBytes 1 i ++ beBytes 1 1 ++ beBytes 2 x ++ beBytes 4 v.toNat
  | .policyUnpin i x v => beBytes 1 i ++ beBytes 1 2 ++ beBytes 2 x ++ beBytes 4 v.toNat
  | .moduleSet is =>
    beBytes 2 is.length ++ zeros 2 ++
      is.flatMap (fun i => beBytes 1 i.item ++ beBytes 1 i.index ++ zeros 2 ++ beBytes 4 i.value)
  | .moduleGet i x => beBytes 1 i ++ beBytes 1 x ++ zeros 2
  | .badSelector _ b => b
  | .unknown _ => []

/-! ### The header (Table 09-3) and intake (R331, R333, R334) -/

/-- Encrypt or decrypt with the GCM key stream. -/
def gcmCrypt (key nonce text : List Byte) : List Byte := text.mapIdx (fun i b => b ^^^ Config.gcmStream key nonce i)

/-- The 16 tag bytes. -/
def gcmTagBytes (key nonce aad text : List Byte) : List Byte := beBytes 16 (Config.gcmTag key nonce aad text).toNat

/-- The nonce of a packet (R333). -/
def packetNonce (target part direction seq : Nat) : List Byte :=
  beBytes 4 target ++ beBytes 1 part ++ beBytes 1 direction ++ beBytes 2 0 ++ beBytes 4 seq

/-- The parts of a packet's header. -/
structure Header where
  ver : Nat
  type : Nat
  part : Nat
  flags : Nat
  opcode : Nat
  len : Nat
  seq : Nat
  pick : Nat
  credit : Nat
  status : Nat
  target : Nat
deriving DecidableEq, Repr

/-- The header of a packet of at least 24 bytes. -/
def readHeader (b : List Byte) : Option Header :=
  if b.length < 24 then none
  else some ⟨beAt b 0 1, beAt b 1 1, beAt b 2 1, beAt b 3 1, beAt b 4 2, beAt b 6 2, beAt b 8 4, beAt b 12 4,
             beAt b 16 2, beAt b 18 2, beAt b 20 4⟩

/-- The sender that a PART value names: a partition, or none for 0xFF. -/
def partSender (p : Nat) : Option Nat := if p < 16 then some p else none

/-- Bytes of the tag that a packet carries (R333, R336). -/
def tagLen (part : Nat) : Nat := if part < 16 then 16 else 0

/-- The checks of R331 on a packet of TYPE `type` for a module whose ID is `id`, in at most `limit` bytes. -/
def headerOk (b : List Byte) (type limit id : Nat) : Bool :=
  match readHeader b with
  | none => false
  | some h =>
    b.length ≤ limit && h.ver = 1 && h.type = type && (h.part < 16 || h.part = 0xFF) &&
    24 + h.len + tagLen h.part = b.length &&
    (h.target = id || (type = 1 && h.target = 0xFFFFFFFF && h.opcode = 3 && h.part = 0xFF))

/-- The tag check of a protected packet under a key (R333, R334). -/
def tagOk (b : List Byte) (h : Header) (key : List Byte) (direction : Nat) : Bool :=
  let nonce := packetNonce h.target h.part direction h.seq
  let params := (b.drop 24).take h.len
  let tag := b.drop (24 + h.len)
  if h.flags % 2 = 1 then tag = gcmTagBytes key nonce (b.take 24) params
  else tag = gcmTagBytes key nonce (b.take 24 ++ params) []

/-- The parameters of a packet, decrypted under the key that its tag was checked with. -/
def openParams (b : List Byte) (h : Header) (key : Option (List Byte)) (direction : Nat) : List Byte :=
  let params := (b.drop 24).take h.len
  match key with
  | some k => if h.flags % 2 = 1 then gcmCrypt k (packetNonce h.target h.part direction h.seq) params else params
  | none => params

/-- The command that a packet carries: its header at execution and its operation. `keyGen` is the load generation stamped
at intake, `key` the command key in force (R334). -/
def readCommand (b : List Byte) (via : Via) (src : Source) (keyGen : Option Word) (key : Option (List Byte)) :
    Option (Hdr × Op) :=
  match readHeader b with
  | none => none
  | some h =>
    let params := openParams b h key 0
    let p := parseOp h.opcode params
    let flagsOk := decide (h.flags &&& 5 = h.flags)
    let known := match p.op with | .unknown _ => false | .badSelector .. => false | _ => true
    let told := known && flagsOk && decide (h.status = 0) && p.lenOk && p.reservedOk
    some (⟨via, partSender h.part, decide (h.flags % 2 = 1), decide (h.flags / 4 % 2 = 1), flagsOk, w32 h.seq, w32 h.pick,
           BitVec.ofNat 16 h.credit, decide (h.status = 0), p.lenOk, p.reservedOk, keyGen, src,
           if told then [] else b.take 24 ++ params⟩, p.op)

end Sys2Proof.Machine
end

