-- ==== Sys2Proof/Machine/Replies.lean ====
section
/-! DEFINITION. Skelkan replies (chapter 09): status codes, opcode numbers, sealing, and the reply cache. -/

namespace Sys2Proof.Machine

/-- Status codes (Table 09-7). -/
inductive Status where
  | ok
  | pending
  | badOpcode
  | badParam
  | badLength
  | badDate
  | notPermitted
  | authFail
  | lifecycleDenied
  | replay
  | busy
  | noCredit
  | rejectedRunning
  | exchangeAborted
  | lanesDisagree
  | keyLost
  | timeInvalid
  | safeState
deriving DecidableEq, Repr

/-- The code of a status (Table 09-7). -/
def Status.code : Status → Nat
  | .ok => 0x0000
  | .pending => 0x0001
  | .badOpcode => 0x0100
  | .badParam => 0x0101
  | .badLength => 0x0102
  | .badDate => 0x0103
  | .notPermitted => 0x0200
  | .authFail => 0x0201
  | .lifecycleDenied => 0x0202
  | .replay => 0x0203
  | .busy => 0x0300
  | .noCredit => 0x0301
  | .rejectedRunning => 0x0302
  | .exchangeAborted => 0x0400
  | .lanesDisagree => 0x0401
  | .keyLost => 0x0500
  | .timeInvalid => 0x0501
  | .safeState => 0x0600

/-- The opcode of an operation (Tables 09-8 to 09-16). -/
def opCode : Op → Nat
  | .nop => 0x0001
  | .echo _ => 0x0002
  | .identify => 0x0003
  | .getMeasurement _ => 0x0004
  | .pick => 0x0005
  | .subStart .. => 0x0006
  | .subStop .. => 0x0006
  | .subAck .. => 0x0006
  | .readPoints .. => 0x0101
  | .writePoints _ => 0x0102
  | .forceSet _ => 0x0103
  | .forceClear .. => 0x0104
  | .forceList .. => 0x0105
  | .configUnits _ => 0x0110
  | .heddleLoad .. => 0x0120
  | .heddleCommit .. => 0x0121
  | .loopConfigLoop .. => 0x0201
  | .loopConfigGroup .. => 0x0201
  | .loopBankWrite .. => 0x0202
  | .loopBankSwap .. => 0x0203
  | .loopStatus .. => 0x0204
  | .patternClear _ => 0x0205
  | .patternRead _ => 0x0205
  | .patternWrite _ => 0x0205
  | .patternSave _ => 0x0205
  | .meterConfig _ => 0x0301
  | .meterRead .. => 0x0302
  | .meterReset _ => 0x0303
  | .meterLoss .. => 0x0304
  | .programLoad .. => 0x0401
  | .programExchange .. => 0x0402
  | .restart .. => 0x0403
  | .cycleStatus _ => 0x0404
  | .retainSave _ => 0x0405
  | .recFreeze => 0x0501
  | .recRead .. => 0x0502
  | .recThaw => 0x0503
  | .timeGet => 0x0601
  | .timeSet _ => 0x0602
  | .timeTrim _ => 0x0603
  | .keyLoad .. => 0x0701
  | .escrowRestore _ => 0x0701
  | .keyUnload .. => 0x0702
  | .kekGenerate => 0x0703
  | .kekWrap .. => 0x0703
  | .lifecycleGet => 0x0704
  | .lifecycleAdvance .. => 0x0705
  | .netConfig _ => 0x0801
  | .filterSet _ => 0x0802
  | .canConfig _ => 0x0803
  | .mailboxSet _ => 0x0804
  | .faultStatus .. => 0x0901
  | .faultAck .. => 0x0902
  | .laneStatus => 0x0903
  | .lanePrefer .. => 0x0904
  | .policyGet .. => 0x0A01
  | .policyPin .. => 0x0A02
  | .policyUnpin .. => 0x0A02
  | .moduleSet _ => 0x0A03
  | .moduleGet .. => 0x0A04
  | .badSelector c _ => c
  | .unknown c => c

/-! ### Keys and sealing (R333, R334) -/

/-- The slot that holds the key of a use and partition: slot, key and load generation (R521). -/
def Lane.keyOf (x : Lane) (use part : Nat) : Option (Nat × List Byte × Word) :=
  x.blk.key.slots.findSome? (fun s =>
    match s.2.key with
    | some (k, u, p, _, _) => if u = use && p = part then some (s.1, k, s.2.loadGen) else none
    | none => none)

/-- The 24-byte header (Table 09-3). -/
def packetHeader (type part flags opcode len seq pick credit status target : Nat) : List Byte :=
  beBytes 1 1 ++ beBytes 1 type ++ beBytes 1 part ++ beBytes 1 flags ++ beBytes 2 opcode ++ beBytes 2 len ++
  beBytes 4 seq ++ beBytes 4 pick ++ beBytes 2 credit ++ beBytes 2 status ++ beBytes 4 target

/-- A packet sealed under a key (R333): with `enc` the parameters are encrypted, else they are authenticated only. -/
def sealPacket (key nonce header params : List Byte) (enc : Bool) : List Byte :=
  if enc then
    let c := gcmCrypt key nonce params
    header ++ c ++ gcmTagBytes key nonce header c
  else header ++ params ++ gcmTagBytes key nonce (header ++ params) []

/-- Commands of a partition that have no reply other than PENDING (R342). -/
def Lane.outstandingOf (x : Lane) (p : Nat) : Nat :=
  (x.man.outstanding.filter (fun o => o.hdr.sender = some p)).length

/-- Where the UDP replies of a command leave: ring 56 for the estate pair, ring 58 for the floor pair; none for the
service port (Table 09-1, Table 12-5). -/
def viaRing : Via → Option Nat
  | .estate => some 56
  | .floor => some 58
  | .service => none

/-- Lane `l` posts a packet to a transport and address; the service port is connected to the active lane (R329). -/
def State.sendPacket (s : State) (l : LaneId) (via : Via) (dst : Source) (packet : List Byte) : State :=
  match viaRing via with
  | some r => s.onLane l (fun x => x.postTx r s.pkg.beat dst 48620 packet)
  | none =>
    if s.active = some l then
      s.onPkg (fun p => { p with sp := { p.sp with replies := p.sp.replies ++ [packet] } })
    else s

/-- Lane `l` posts the packet of a reply to where its command came from. -/
def State.sendReply (s : State) (l : LaneId) (h : Hdr) (packet : List Byte) : State := s.sendPacket l h.via h.src packet

/-- FLAGS of a reply (Table 09-3). -/
def replyFlags (h : Hdr) (more : Bool) : Nat := b2n h.enc + 2 * b2n more + 4 * b2n h.fast

/-- The packet of a reply: protected by the partition's command key when the command was. -/
def State.replyPacket (s : State) (l : LaneId) (key : Option (List Byte)) (h : Hdr) (opcode : Nat) (st : Status)
    (params : List Byte) (epoch : Word) (credit : Nat) : List Byte :=
  let target := (s.lane l).man.moduleId.toNat
  let more := decide (st = .pending)
  match h.sender, key with
  | some p, some k =>
    let hd := packetHeader 2 p (replyFlags h more) opcode params.length h.seq.toNat epoch.toNat credit st.code target
    sealPacket k (packetNonce target p (if more then 2 else 1) h.seq.toNat) hd params h.enc
  | _, _ =>
    packetHeader 2 0xFF (replyFlags h more) opcode params.length h.seq.toNat epoch.toNat
      Config.unprotectedCredit.toNat st.code target ++ params

/-- Keep the last reply of a command in its partition's reply cache (R339). -/
def Sender.keep (q : Sender) (seq : Word) (packet : List Byte) : Sender :=
  { q with kept := q.kept.map (fun k => if k.seq = seq then { k with reply := some packet } else k) }

/-- Lane `l` sends a protected or unprotected reply of a command and keeps it (R339, R343): `key` is the command key that
seals it. -/
def State.replyWith (s : State) (l : LaneId) (key : Option (List Byte)) (h : Hdr) (opcode : Nat) (st : Status)
    (params : List Byte) (epoch : Word) : State :=
  match h.sender with
  | some p =>
    let credit := 16 - (s.lane l).outstandingOf p
    let packet := s.replyPacket l key h opcode st params epoch credit
    (s.onLane l (fun x => x.onSender p (fun q => q.keep h.seq packet))).sendReply l h packet
  | none => s.sendReply l h (s.replyPacket l none h opcode st params epoch 0)

/-- The command key of the sender of a command, as the lane holds it now. -/
def Lane.replyKey (x : Lane) (h : Hdr) : Option (List Byte) :=
  match h.sender with
  | some p => (x.keyOf 1 p).map (fun k => k.2.1)
  | none => none

/-- Lane `l` answers a command (R349). -/
def State.reply (s : State) (l : LaneId) (h : Hdr) (opcode : Nat) (st : Status) (params : List Byte) (epoch : Word) :
    State :=
  s.replyWith l ((s.lane l).replyKey h) h opcode st params epoch

/-- An unprotected reply to a protected command: KEY_LOST or REPLAY (R335, R339). -/
def State.replyUnprotected (s : State) (l : LaneId) (h : Hdr) (opcode : Nat) (st : Status) (params : List Byte)
    (epoch : Word) : State :=
  s.sendReply l h (packetHeader 2 0xFF (replyFlags h false) opcode params.length h.seq.toNat epoch.toNat
    Config.unprotectedCredit.toNat st.code (s.lane l).man.moduleId.toNat ++ params)

/-! ### Command notices (R455) -/

/-- A command notice to the rings of the owners named and of the sender, for a command that ended with OK (R455, Table
12-6); parameters up to 1,432 bytes. -/
def noticeBytes (h : Hdr) (opcode : Nat) (epoch : Word) (params : List Byte) : List Byte :=
  leBytes 4 (1 + 65536 * opcode) ++ leBytes 4 h.seq.toNat ++ leBytes 4 epoch.toNat ++
  leBytes 4 (Status.ok.code + 65536 * h.sender.getD 0) ++ params.take 1432

/-- Post the notice of a command to the partitions concerned, in rising order (R455). -/
def Lane.noticeTo (x : Lane) (h : Hdr) (opcode : Nat) (epoch : Word) (ps : List Nat) (params : List Byte) : Lane :=
  ps.foldl (fun (y : Lane) p =>
    y.onRing p (fun g => g.offer p (RingEntry.mk (noticeBytes h opcode epoch params) epoch true 0))) x

/-- The notice of a command goes to the owners of what it changed and to its sender. -/
def Lane.notice (x : Lane) (h : Hdr) (opcode : Nat) (epoch : Word) (owners : List Nat) (params : List Byte) : Lane :=
  x.noticeTo h opcode epoch ((List.range 16).filter (fun p => owners.contains p || decide (h.sender = some p))) params

/-- The partition whose key a slot holds, or whose blob is stored for it. -/
def Lane.slotPart (x : Lane) (slot : Nat) : Option Nat :=
  match (x.slot slot).key with
  | some (_, _, p, _, _) => some p
  | none => (x.flash.blobs.lookup slot).map (·.part)

/-- The partition that owns what a fault scope names (R152, Table 14-1): point, cluster and loop have owners, a partition is its
own, and anything else is partition 0's. -/
def Lane.scopeOwner (x : Lane) (scope index : Nat) : Nat :=
  match scope with
  | 1 => x.pointOwner index
  | 2 => tget 0 x.blk.pnt.owner index
  | 4 => (x.loop index).owner
  | 5 => index
  | _ => 0

/-- The partitions that own the objects an operation changes (R455). -/
def Lane.changedOwners (x : Lane) (op : Op) : List Nat :=
  let force := fun (f : ForceArgs) => [if f.kind = 3 then f.targetPart else x.pointOwner f.target]
  match op with
  | .writePoints is => is.map (fun i => x.pointOwner i.1)
  | .forceSet f => force f
  | .forceClear m f => if m = 1 then force f else [f.targetPart]
  | .configUnits is => is.flatMap (fun u => [x.pointOwner u.point, if u.setOwner then u.owner else x.pointOwner u.point])
  | .heddleLoad .. => [0]
  | .heddleCommit .. => [0]
  | .loopConfigLoop i o _ => [(x.loop i).owner, o]
  | .loopConfigGroup .. => [0]
  | .loopBankWrite n _ => [(x.loop n).owner]
  | .loopBankSwap n _ _ => [(x.loop n).owner]
  | .patternClear p => [(x.loop p.loop).owner]
  | .patternWrite p => [(x.loop p.loop).owner]
  | .patternSave p => [(x.loop p.loop).owner]
  | .meterConfig is => is.flatMap (fun i =>
      if i.item ≤ 4 || i.item = 9 then [0]
      else if i.item = 7 then [(x.circuit i.index).owner, i.value]
      else [(x.circuit i.index).owner])
  | .meterReset c => [(x.circuit c).owner]
  | .programLoad p _ _ => [p]
  | .programExchange p _ _ => [p]
  | .restart p _ _ => [p]
  | .recFreeze => [0]
  | .recThaw => [0]
  | .timeSet _ => [0]
  | .timeTrim _ => [0]
  | .keyLoad s _ => (x.slotPart s).toList
  | .escrowRestore _ => [0]
  | .keyUnload s _ => (x.slotPart s).toList
  | .kekGenerate => [0]
  | .lifecycleAdvance .. => [0]
  | .netConfig _ => [0]
  | .filterSet _ => [0]
  | .canConfig _ => [0]
  | .mailboxSet _ => [0]
  | .faultAck sc i => [x.scopeOwner sc i]
  | .lanePrefer .. => [0]
  | .policyPin i n _ => [if i = 4 || i = 5 then (x.loop n).owner else 0]
  | .policyUnpin i n _ => [if i = 4 || i = 5 then (x.loop n).owner else 0]
  | .moduleSet _ => [0]
  | _ => []

/-! ### Answers of operations -/

/-- What an operation that executed answers. -/
inductive Answer where
  /-- the final reply: status and parameters -/
  | done (st : Status) (params : List Byte)
  /-- the final reply leaves later (R348) -/
  | later (why : Waiting)
  /-- the operation has posted its reply itself (R373) -/
  | sent
deriving DecidableEq, Repr

/-- The final reply of a command, and its notice when it ended with OK (R342, R343, R455): a command that answers later leaves
the list of outstanding commands first. -/
def State.finish (s : State) (l : LaneId) (o : Outstanding) (st : Status) (params : List Byte) : State :=
  let x := (s.lane l).onMan (fun m => { m with outstanding := m.outstanding.erase o })
  let y := if st = .ok then x.notice o.hdr (opCode o.op) o.epoch (x.changedOwners o.op) (opBytes o.op) else x
  (s.setLane l y).reply l o.hdr (opCode o.op) st params o.epoch

/-- Answer every outstanding command of lane `l` that waits for `why`. -/
def State.finishAll (s : State) (l : LaneId) (why : Waiting) (st : Status) (params : List Byte) : State :=
  ((s.lane l).man.outstanding.filter (fun o => o.why = why)).foldl (fun (t : State) o => t.finish l o st params) s

end Sys2Proof.Machine
end

