-- ==== Sys2Proof/Machine/Net.lean ====
section
/-! DEFINITION. The network ports (chapter 10) and the service port (Table 09-2): receive checks, filters and intake, PAUSE,
transmission, speed changes, and the answers to ARP, neighbour solicitation and echo requests. -/

namespace Sys2Proof.Machine

/-! ### Beats and port numbers -/

/-- One second in T5 beats. -/
def secBeats : Nat := 100000000

/-- Collector bit `k` of port `n` of a lane (Table 14-1). -/
def portBit (n k : Nat) : Nat := 2052 + 4 * n + k

/-- LAN code of a port (Table 12-7): 0 LAN A, 1 LAN B, 2 LAN C, 3 LAN D. -/
def lanCode (l : LaneId) (n : Nat) : Nat := 2 * n + l.num

/-- A port reaches a frame boundary: LIVE fields of the NET block take effect (R404, R406). -/
def Lane.netBoundary (x : Lane) (n : Nat) : Lane :=
  x.onPort n (fun p => { p with ctl := p.pendingCtl.getD p.ctl, pendingCtl := none, en := bitOf x.blk.net.ctl n,
                                pair := if n = 0 then x.blk.net.estate else x.blk.net.floor })

/-! ### Addresses (R385, R390) -/

/-- The link-local address that a MAC address forms as an EUI-64 identifier (R385). -/
def linkLocal (mac : BitVec 48) : BitVec 128 :=
  let m := mac.toNat ^^^ 0x020000000000
  BitVec.ofNat 128 (0xFE80 * 2 ^ 112 + (m / 2 ^ 24) * 2 ^ 40 + 0xFFFE * 2 ^ 24 + m % 2 ^ 24)

/-- The destination addresses that a port accepts (R385). -/
def dstOk (c : PairCfg) (d : BitVec 48) : Bool :=
  d = c.mac || d = 0xFFFFFFFFFFFF#48 || d = 0x0180C2000001#48 || d = 0x01154E000100#48 || d = 0x333300000001#48 ||
  (d.toNat / 2 ^ 24 = 0x3333FF &&
    ((c.ipv6 ≠ 0 && d.toNat % 2 ^ 24 = c.ipv6.toNat % 2 ^ 24) || d.toNat % 2 ^ 24 = (linkLocal c.mac).toNat % 2 ^ 24))

/-- A source address with the group bit set. -/
def groupBit (m : BitVec 48) : Bool := m.getLsbD 40

/-- The broadcast addresses of R390. -/
def isBroadcast4 (c : PairCfg) (d : Word) : Bool :=
  d = 0xFFFFFFFF#32 || d.toNat = c.ipv4.toNat / 2 ^ (32 - c.prefixLen) * 2 ^ (32 - c.prefixLen) + (2 ^ (32 - c.prefixLen) - 1)

/-- ff02::1, and the solicited-node multicast of an address. -/
def allNodes : BitVec 128 := BitVec.ofNat 128 (0xFF02 * 2 ^ 112 + 1)
def solicited (a : BitVec 128) : BitVec 128 := BitVec.ofNat 128 (0xFF02 * 2 ^ 112 + 0x1FF * 2 ^ 24 + a.toNat % 2 ^ 24)

/-- An IPv6 destination that Table 10-3 accepts. -/
def dst6Ok (c : PairCfg) (d : BitVec 128) : Bool :=
  (c.ipv6 ≠ 0 && (d = c.ipv6 || d = solicited c.ipv6)) || d = linkLocal c.mac || d = solicited (linkLocal c.mac) || d = allNodes

/-- What an accepted IP datagram leads to. -/
inductive NetKind where
  | udp (dport : Nat) (payload : List Byte)
  | icmp
  | arp
  | other
deriving DecidableEq, Repr

/-- A broadcast datagram holds an IDENTIFY with PART 0xFF and TARGET 0xFFFFFFFF (R390). -/
def broadcastIdentify (b : List Byte) : Bool :=
  match readHeader b with
  | some h => h.opcode = 3 && h.part = 0xFF && h.target = 0xFFFFFFFF
  | none => false

/-- The checks of Table 10-3 on what an IP datagram carries; `v4`, and whether its destination is a broadcast of R390. -/
def l4Ok (v4 bcast : Bool) (l : L4) : Option NetKind :=
  match l with
  | .udp _ dport sum payload =>
    if !(dport = 48620#16 || dport = 48621#16) then none
    else if !(sum = 0 || (sum = 1 && v4)) then none
    else if bcast && !(dport = 48620#16 && broadcastIdentify payload) then none
    else some (.udp dport.toNat payload)
  | .echo _ _ data => if data.length ≤ 1024 && !(bcast && v4) then some .icmp else none
  | .solicit _ hop => if !v4 && hop = 255 then some .icmp else none
  | .other _ => none

/-- The header checks of Table 10-3: none is a frame dropped under R387. -/
def headerCheck (c : PairCfg) (f : Frame) : Option NetKind :=
  match f.body with
  | .ipv4 ver ihl frag ck len _ dst l4 =>
    if ver = 4 && ihl = 5 && !frag && ck && len && c.ipv4 ≠ 0 && (dst = c.ipv4 || isBroadcast4 c dst) then
      l4Ok true (dst ≠ c.ipv4) l4
    else none
  | .ipv6 ext len _ dst l4 =>
    if !ext && len && dst6Ok c dst then l4Ok false (dst = allNodes) l4 else none
  | .arp req target _ => if req && c.ipv4 ≠ 0 && target = c.ipv4 then some .arp else none
  | .other _ => if f.etherType = 0x0800 || f.etherType = 0x86DD || f.etherType = 0x0806 then none else some .other
  | .pause .. => some .other

/-- The source of a frame, for replies. -/
def frameSource (f : Frame) : Source :=
  match f.body with
  | .ipv4 _ _ _ _ _ src _ (.udp sp _ _ _) => ⟨f.src, beBytes 4 src.toNat, sp, f.tags ≠ []⟩
  | .ipv4 _ _ _ _ _ src _ _ => ⟨f.src, beBytes 4 src.toNat, 0, f.tags ≠ []⟩
  | .ipv6 _ _ src _ (.udp sp _ _ _) => ⟨f.src, beBytes 16 src.toNat, sp, f.tags ≠ []⟩
  | .ipv6 _ _ src _ _ => ⟨f.src, beBytes 16 src.toNat, 0, f.tags ≠ []⟩
  | .arp _ _ sender => ⟨f.src, beBytes 4 sender.toNat, 0, f.tags ≠ []⟩
  | _ => ⟨f.src, [], 0, f.tags ≠ []⟩

/-! ### Filters (R391 to R394) -/

/-- Filter `i` of a port matches a frame. -/
def filterMatches (vlan act : Word) (f : Frame) : Bool :=
  let vid := match f.tags with | t :: _ => t.1 | [] => 0
  let pcp := match f.tags with | t :: _ => t.2 | [] => 0
  let mask := field vlan 27 16
  bitOf act 31 && (vid &&& mask) = (field vlan 11 0 &&& mask) && (field act 23 16).testBit pcp &&
  (field act 15 0 = 0 || field act 15 0 = f.etherType)

/-- The ring that the filters of port `n` steer a frame to; none drops it. -/
def NetBlk.steer (b : NetBlk) (n : Nat) (f : Frame) : Option Nat :=
  if 2 ≤ f.tags.length || f.etherType < 0x0600 then none
  else
    match (List.range 32).find? (fun i => filterMatches (tget 0 b.filtVlan (32 * n + i)) (tget 0 b.filtAct (32 * n + i)) f) with
    | some i =>
      let a := tget 0 b.filtAct (32 * n + i)
      if bitOf a 30 then some (field a 29 24) else none
    | none => none

/-! ### Skelkan checks at intake (R331, R334 to R336) -/

/-- What intake finds: PART for the event, and the load generation that the packet is stamped with. -/
inductive IntakeResult where
  | drop
  | pass (part : Nat) (keyGen : Option Word) (unprotected : Bool)
deriving DecidableEq, Repr

/-- The checks of R331, R334 and R335 on a packet. `bulk`: port 48621. -/
def Lane.intakeCheck (x : Lane) (id : Nat) (b : List Byte) (bulk : Bool) : IntakeResult :=
  let type := if bulk then 4 else 1
  if !headerOk b type (if bulk then 8248 else 1472) id then .drop
  else match readHeader b with
    | none => .drop
    | some h =>
      if h.part = 0xFF then .pass 0 none true
      else match x.keyOf (if bulk then 2 else 1) h.part with
        | some k => if tagOk b h k.2.1 (if bulk then 4 else 0) then .pass h.part (some k.2.2) false else .drop
        | none => if bulk then .drop else .pass h.part none false

/-! ### Intake rings and PAUSE (R395 to R399) -/

/-- Bytes that frames hold in intake ring `r`. -/
def Lane.ringFill (x : Lane) (r : Nat) : Nat :=
  ((x.intake.filter (fun e => match e.body with | .net _ (some _) q _ _ _ _ => q = r | _ => false)).map (·.body.size)).sum

/-- Bytes that frames hold in the four intake rings of port `n`. -/
def Lane.portFill (x : Lane) (n : Nat) : Nat := ((List.range 4).map (fun i => x.ringFill (48 + 4 * n + i))).sum

/-- Fill of a port's intake rings in percent of 1 MiB. -/
def Lane.fillPercent (x : Lane) (n : Nat) : Nat := x.portFill n * 100 / 1048576

/-- HIGH and LOW of NET_PORT_CTL. -/
def pctHigh (w : Word) : Nat := field w 15 8
def pctLow (w : Word) : Nat := field w 23 16

/-- Beats of `q` pause quanta at a port's speed, rounded up. -/
def quantaBeats (q : Nat) (speed10 : Bool) : Nat := ((if speed10 then q * 512 else q * 5120) + 99) / 100

/-- A port sends a PAUSE frame. -/
def Lane.sendPause (x : Lane) (n now q : Nat) : Lane :=
  x.onPort n (fun p => { p with txPause := p.txPause + 1, pauseOut := q :: p.pauseOut, pauseSent := some now })

/-- PAUSE sending after the fill of the intake rings changed (R398, R399). -/
def Lane.pauseCheck (x : Lane) (n now : Nat) : Lane :=
  let p := x.port n
  let fill := x.fillPercent n
  if p.pausing && fill ≤ pctLow p.ctl then
    ((x.sendPause n now 0).onPort n (fun q => { q with pausing := false, pauseFirst := none, pauseSent := none,
                                                       pauseCapped := false })).endCause (portBit n 2)
  else if !p.pausing && bitOf p.ctl 2 && pctHigh p.ctl ≤ fill then
    (x.sendPause n now 0xFFFF).onPort n (fun q => { q with pausing := true, pauseFirst := some now })
  else x


/-- Order in which the entry point of a stream takes frames: lowest ring first (R395). -/
def EventBody.ringNo : EventBody → Nat
  | .net _ _ r _ _ _ _ => r
  | _ => 0

/-- A network event enters its pair's stream, or stays in its intake ring while events are held back (R395). -/
def Lane.enterNet (x : Lane) (l : LaneId) (pair part : Nat) (body : EventBody) : Lane :=
  if x.holdsBack body.size then
    (({ x with intake := x.intake ++ [Event.mk 3 pair part 0 l 0 body] }).onRing body.ringNo (fun g =>
      { g with posted := g.posted + 1, dropping := false })).countHeld 1
  else (x.enter l 3 pair part body).onRing body.ringNo (fun g =>
    { g with posted := g.posted + 1, taken := g.taken + 1, dropping := false })

/-- The beat at which a network event enters its stream. -/
def EventBody.stamped (b : EventBody) (now : Nat) : EventBody :=
  match b with
  | .net lan f r p k s _ => .net lan f r p k s now
  | b => b

/-- Frames leave the intake rings when an epoch opens, lowest ring first, until events are held back again; none passes one that
stays (R67, R395). -/
def Lane.drainIntake (x : Lane) (l : LaneId) (now : Nat) : Lane :=
  let order := (List.range 64).flatMap (fun r => x.intake.filter (fun e => e.body.ringNo = r))
  let y := order.foldl (fun (z : Lane) e =>
    if z.holdsBack e.body.size then { z.countHeld 0 with intake := z.intake ++ [e] }
    else (z.enter l 3 e.stream e.part (e.body.stamped now)).onRing e.body.ringNo (fun g => g.took 1)) { x with intake := [] }
  (y.pauseCheck 0 now).pauseCheck 1 now

/-! ### Receiving a frame -/

/-- A valid PAUSE loads the port's timer (R396). -/
def Lane.takePause (x : Lane) (n quanta now : Nat) : Lane :=
  let p := x.port n
  let y := x.onPort n (fun q => { q with rxPause := q.rxPause + 1 })
  if !bitOf p.ctl 1 then y
  else
    let running := match p.paused with | some t => decide (now < t) | none => false
    if quanta = 0 then
      (y.onPort n (fun q => { q with paused := none, pausedSince := none, pauseLong := false })).endCause (portBit n 1)
    else
      y.onPort n (fun q => { q with paused := some (now + quantaBeats quanta p.speed10),
                                    pausedSince := if running then q.pausedSince else some now })

/-- A steered frame that passed Table 10-3 enters its ring, with the Skelkan checks of intake for UDP (R331, R395). -/
def Lane.takeFrameIn (x : Lane) (l : LaneId) (n ring id now : Nat) (f : Frame) (k : NetKind) : Lane :=
  let drop := x.onPort n (fun p => { p with rxSkelkanDrop := p.rxSkelkanDrop + 1 })
  let put := fun (y : Lane) (part : Nat) (payload : List Byte) (gen : Option Word) =>
    let body : EventBody := .net (lanCode l n) (some f) ring payload gen (frameSource f) now
    if 262144 < y.ringFill ring + body.size then (y.onPort n (fun p => { p with rxRingDrop := p.rxRingDrop + 1 })).onRing ring Ring.dropOne
    else if y.releases then (y.enterNet l n part body).pauseCheck n now else y
  match k with
  | .udp dport payload =>
    match x.intakeCheck id payload (decide (dport = 48621)) with
    | .drop => drop
    | .pass part gen unprot =>
      if unprot && 2000 ≤ (x.port n).unprotected then drop
      else put (if unprot then x.onPort n (fun p => { p with unprotected := p.unprotected + 1 }) else x) part payload gen
  | _ => put x 0 [] none

/-- The rate limits of Table 10-3: 100 ARP frames, and 100 ICMP frames, in each interval of 1 s. -/
def Lane.rateLimit (x : Lane) (n : Nat) (k : NetKind) : Option Lane :=
  match k with
  | .arp => if 100 ≤ (x.port n).arpCount then none else some (x.onPort n (fun p => { p with arpCount := p.arpCount + 1 }))
  | .icmp => if 100 ≤ (x.port n).icmpCount then none else some (x.onPort n (fun p => { p with icmpCount := p.icmpCount + 1 }))
  | _ => some x

/-- NET_FRAME_RECEIVED: a port receives a frame (R385 to R396); while T1 is lost nothing passes (R34). -/
def Lane.netFrame (x0 : Lane) (l : LaneId) (n id : Nat) (f : Frame) (now : Nat) : Lane :=
  let x := x0.netBoundary n
  let c := (x.port n).pair
  if !(x.port n).en || x.blk.lane.role = .off || x.clockLost 1 then x
  else if !dstOk c f.dst then x
  else if !f.fcsOk then x.onPort n (fun p => { p with rxFcsErr := p.rxFcsErr + 1 })
  else if f.clientLen < 46 || 9000 < f.clientLen || groupBit f.src then
    x.onPort n (fun p => { p with rxSizeErr := p.rxSizeErr + 1 })
  else
    let y := x.onPort n (fun p => { p with rxFrames := p.rxFrames + 1 })
    match f.body with
    | .pause op q =>
      if (f.dst = 0x0180C2000001#48 || f.dst = c.mac) && f.etherType = 0x8808 && op = 1 then y.takePause n q now
      else y.onPort n (fun p => { p with rxFilterDrop := p.rxFilterDrop + 1 })
    | _ =>
      if f.dst = 0x01154E000100#48 && f.etherType = 0x88FB then
        y.onPort n (fun p => { p with rxSupervision := p.rxSupervision + 1 })
      else match y.blk.net.steer n f with
        | none => y.onPort n (fun p => { p with rxFilterDrop := p.rxFilterDrop + 1 })
        | some ring =>
          match (headerCheck c f).bind (fun k => (y.rateLimit n k).map (fun z => (k, z))) with
          | none => y.onPort n (fun p => { p with rxHdrDrop := p.rxHdrDrop + 1 })
          | some (k, z) => z.takeFrameIn l n ring id now f k

/-! ### Answers (R388, R389) -/

/-- The Internet checksum of bytes. -/
def inetChecksum (bs : List Byte) : Nat :=
  let rec sum : List Byte → Nat
    | a :: b :: r => a.toNat * 256 + b.toNat + sum r
    | [a] => a.toNat * 256
    | [] => 0
  let t := sum bs
  let u := t / 65536 + t % 65536
  65535 - (u / 65536 + u % 65536)

/-- An ICMP message with its checksum placed at bytes 2 and 3; `pseudo` is what precedes it in the sum. -/
def icmpMessage (type : Nat) (pseudo rest : List Byte) : List Byte :=
  beBytes 1 type ++ beBytes 1 0 ++ beBytes 2 (inetChecksum (pseudo ++ beBytes 1 type ++ zeros 3 ++ rest)) ++ rest

/-- The header of an IPv6 datagram with `n` bytes of payload: traffic class and flow label 0 (R389). -/
def ip6Header (n next hop : Nat) (src dst : BitVec 128) : List Byte :=
  beBytes 4 0x60000000 ++ beBytes 2 n ++ beBytes 1 next ++ beBytes 1 hop ++ beBytes 16 src.toNat ++ beBytes 16 dst.toNat

/-- The header of an IPv4 datagram with `n` bytes of payload: DF 1, TTL 64 and DSCP 0, its checksum computed last (R389,
Table 10-1). -/
def ip4Header (n proto : Nat) (ipId : BitVec 16) (src : Word) (dst : List Byte) : List Byte :=
  let a := beBytes 2 0x4500 ++ beBytes 2 (20 + n) ++ beBytes 2 ipId.toNat ++ beBytes 2 0x4000 ++ beBytes 1 64 ++ beBytes 1 proto
  let b := beBytes 4 src.toNat ++ dst
  a ++ beBytes 2 (inetChecksum (a ++ b)) ++ b

/-- The pseudo-header of an ICMPv6 message. -/
def pseudo6 (src dst : BitVec 128) (n : Nat) : List Byte :=
  beBytes 16 src.toNat ++ beBytes 16 dst.toNat ++ beBytes 4 n ++ zeros 3 ++ beBytes 1 58

/-- The address from which a pair answers a datagram sent to `dst`: the address asked, or the pair's own for a multicast. -/
def answerFrom (c : PairCfg) (dst : BitVec 128) : BitVec 128 :=
  if dst = c.ipv6 || dst = linkLocal c.mac then dst else if c.ipv6 = 0 then linkLocal c.mac else c.ipv6

/-- The EtherType of an answer, then what follows the IP header. -/
def arpAnswer (c : PairCfg) (f : Frame) : Option (List Byte) :=
  match f.body with
  | .arp true target sender =>
    if c.ipv4 ≠ 0 && target = c.ipv4 then
      some (beBytes 2 0x0806 ++ beBytes 2 1 ++ beBytes 2 0x0800 ++ beBytes 1 6 ++ beBytes 1 4 ++ beBytes 2 2 ++
        beBytes 6 c.mac.toNat ++ beBytes 4 c.ipv4.toNat ++ beBytes 6 f.src.toNat ++ beBytes 4 sender.toNat)
    else none
  | _ => none

def solicitAnswer (c : PairCfg) (f : Frame) : Option (List Byte) :=
  match f.body with
  | .ipv6 _ _ src _ (.solicit target _) =>
    if (c.ipv6 ≠ 0 && target = c.ipv6) || target = linkLocal c.mac then
      some (beBytes 2 0x86DD ++ ip6Header 32 58 255 target src ++ icmpMessage 136 (pseudo6 target src 32)
        (beBytes 4 0x60000000 ++ beBytes 16 target.toNat ++ beBytes 1 2 ++ beBytes 1 1 ++ beBytes 6 c.mac.toNat))
    else none
  | _ => none

def echoAnswer (c : PairCfg) (f : Frame) : Option (List Byte) :=
  match f.body with
  | .ipv4 _ _ _ _ _ _ _ (.echo id sq data) =>
    some (beBytes 2 0x0800 ++ icmpMessage 0 [] (beBytes 2 id ++ beBytes 2 sq ++ data))
  | .ipv6 _ _ src dst (.echo id sq data) =>
    some (beBytes 2 0x86DD ++ ip6Header (8 + data.length) 58 64 (answerFrom c dst) src ++
      icmpMessage 129 (pseudo6 (answerFrom c dst) src (8 + data.length)) (beBytes 2 id ++ beBytes 2 sq ++ data))
  | _ => none

/-- The kinds of frame that the lane manager answers. -/
def isArp (f : Frame) : Bool := match f.body with | .arp .. => true | _ => false
def isSolicit (f : Frame) : Bool := match f.body with | .ipv6 _ _ _ _ (.solicit ..) => true | _ => false
def isEcho (f : Frame) : Bool :=
  match f.body with
  | .ipv4 _ _ _ _ _ _ _ (.echo ..) => true
  | .ipv6 _ _ _ _ (.echo ..) => true
  | _ => false

/-- A lane answers the oldest released frame of a kind on the pair that carried it; the frame's source MAC address receives
the answer (R388). -/
def Lane.answerFrame (x : Lane) (p : Frame → Bool) (ans : PairCfg → Frame → Option (List Byte)) (now : Nat) : Lane :=
  match x.netQueue.find? (fun e => p e.2) with
  | none => x
  | some e =>
    let y := { x with netQueue := x.netQueue.erase e }
    match ans (if e.1 = 0 then x.blk.net.estate else x.blk.net.floor) e.2 with
    | some bytes => y.postTx (56 + 2 * e.1) now (frameSource e.2) 0 bytes
    | none => y

/-! ### Transmission (R373 to R378) -/

/-- A lane's frames leave in store-and-forward (R377). -/
def State.cutThrough (s : State) (l : LaneId) (n : Nat) : Bool :=
  let p := (s.lane l).port n
  let role := (s.lane l).blk.lane.role
  (role = .standby || role = .active || role = .halted) && bitOf p.ctl 3 && p.sfHold.isNone &&
  !(s.pkg.life = .maker || s.pkg.life = .returned)

/-- 100 ms in T5 beats (R376). -/
def ageBeats : Nat := 10000000

/-- Entries of port `n` that have waited longer than 100 ms are dropped and counted (R376). -/
def Lane.dropAged (x : Lane) (n now : Nat) : Lane :=
  let old := fun (t : TxEntry) => (t.ring = 56 + 2 * n || t.ring = 57 + 2 * n) && decide (t.beat + ageBeats < now)
  let k := fun (r : Nat) => (x.txRings.filter (fun t => old t && t.ring = r)).length
  let lo := 56 + 2 * n
  ((({ x with txRings := x.txRings.filter (fun t => !old t) }).onRing lo (fun g => g.took (k lo))).onRing (lo + 1)
    (fun g => g.took (k (lo + 1)))).onPort n (fun p => { p with txAgedDrop := p.txAgedDrop + w32 (k lo + k (lo + 1)) })

/-- The entry that port `n` serves next (R375, R378), and the count of frames of the lower ring that follows. -/
def Lane.nextTx (x : Lane) (n : Nat) : Option (TxEntry × Nat) :=
  let lo := x.txOf (56 + 2 * n)
  let hi := x.txOf (57 + 2 * n)
  let served := (x.port n).lowServed
  match (lo ++ hi).find? (·.resend) with
  | some t => some (t, served)
  | none =>
    match lo, hi with
    | [], [] => none
    | t :: _, [] => some (t, 0)
    | [], t :: _ => some (t, 0)
    | t :: _, u :: _ => if 4 ≤ served then some (u, 0) else some (t, served + 1)

/-- The address from which a pair sends a UDP datagram over IPv6: its own, or its link-local one where it has none or the receiver's
is link-local (log entry 97). -/
def udpFrom (c : PairCfg) (dst : BitVec 128) : BitVec 128 :=
  if c.ipv6 = 0 || dst.toNat / 2 ^ 118 = 0x3FA then linkLocal c.mac else c.ipv6

/-- A UDP datagram with its ports, length and checksum, which is always computed; `pseudo` is the pseudo-header but for its length
(R389, Table 10-1). -/
def udpBytes (pseudo : List Byte) (sport dport : Nat) (payload : List Byte) : List Byte :=
  let len := 8 + payload.length
  let ck := inetChecksum (pseudo ++ beBytes 4 len ++ beBytes 4 17 ++ beBytes 2 sport ++ beBytes 2 dport ++ beBytes 2 len ++ zeros 2 ++
    payload)
  beBytes 2 sport ++ beBytes 2 dport ++ beBytes 2 len ++ beBytes 2 (if ck = 0 then 0xFFFF else ck) ++ payload

/-- EtherType and data of an entry's frame. -/
def TxEntry.client (t : TxEntry) : Nat × List Byte :=
  if t.sport ≠ 0 then
    if t.dst.ip.length = 4 then
      (0x0800, ip4Header (8 + t.payload.length) 17 t.ipId t.cfg.ipv4 t.dst.ip ++
        udpBytes (beBytes 4 t.cfg.ipv4.toNat ++ t.dst.ip) t.sport t.dst.port.toNat t.payload)
    else
      let dst : BitVec 128 := BitVec.ofNat 128 (beNat t.dst.ip)
      let src := udpFrom t.cfg dst
      (0x86DD, ip6Header (8 + t.payload.length) 17 64 src dst ++
        udpBytes (beBytes 16 src.toNat ++ beBytes 16 dst.toNat) t.sport t.dst.port.toNat t.payload)
  else
    let et := beAt t.payload 0 2
    let rest := t.payload.drop 2
    (et, if et = 0x0800 then ip4Header rest.length 1 t.ipId t.cfg.ipv4 t.dst.ip ++ rest else rest)

/-- LanId of the port that lane `l` sends from (Table 10-2). -/
def lanId (l : LaneId) : Nat := match l with | .a => 0xA | .b => 0xB

/-- The frame that lane `l` sends for an entry: addresses, the pair's tag where one is configured, the data padded to the shortest
frame, the PRP trailer and the FCS (R379 to R381, Table 10-1, Table 10-2). -/
def TxEntry.frame (t : TxEntry) (l : LaneId) : List Byte :=
  let c := t.client
  let tag := if bitOf t.cfg.vlan 12 then beBytes 2 0x8100 ++ beBytes 2 (t.cfg.vlan.toNat % 65536 &&& 0xEFFF) else []
  let data := c.2 ++ zeros (40 - c.2.length)
  let bs := beBytes 6 t.dst.mac.toNat ++ beBytes 6 t.cfg.mac.toNat ++ tag ++ beBytes 2 c.1 ++ data ++
    beBytes 2 t.prpSeq.toNat ++ beBytes 2 (lanId l * 4096 + data.length % 4096) ++ beBytes 2 0x88FB
  bs ++ leBytes 4 (crc32 bs).toNat

/-- TX_FRAME_START: a free port takes its next frame and begins sending it; without link the frame is dropped (R376), a
paused port sends none (R396), a renegotiating port none, a lane with closed gates none (R107), and none while T1 is lost (R34). -/
def State.txStart (s : State) (l : LaneId) (n now : Nat) : State :=
  let x := ((s.lane l).netBoundary n).dropAged n now
  let p := x.port n
  let paused := match p.paused with | some t => decide (now < t) | none => false
  let idle := s.onLane l (fun _ => x.onPort n (fun q => { q with sending := none }))
  if n < 2 && p.en && !x.blk.lane.gatesClosed && !x.clockLost 1 then
    match x.nextTx n with
    | none => idle
    | some (t, served) =>
      if !p.link then
        s.onLane l (fun _ => (({ x with txRings := x.txRings.erase t }).onRing t.ring (fun g => g.took 1)).onPort n (fun q =>
          { q with txLinkDrop := q.txLinkDrop + 1, sending := none, lowServed := served }))
      else if paused then idle
      else
        (s.onLane l (fun _ => (({ x with txRings := x.txRings.erase t }).onRing t.ring (fun g => g.took 1)).onPort n (fun q =>
          { q with txFrames := q.txFrames + 1, sending := some t, lowServed := served }))).onPkg
          (fun k => { k with sent := (l, n, { t with wire := t.frame l }, true) :: k.sent })
  else s

/-- TX_UNDERRUN: the FIFO runs empty during a cut-through frame (R378). -/
def State.txUnderrun (s : State) (l : LaneId) (n now : Nat) : State :=
  match ((s.lane l).port n).sending with
  | none => s
  | some t =>
    if n < 2 && s.cutThrough l n && !t.resend then
      let us := now :: ((s.lane l).port n).underruns.filter (fun u => decide (now < u + secBeats))
      let hold := decide (16 ≤ us.length)
      let s1 := (s.onLane l (fun x =>
        (({ x with txRings := { t with resend := true } :: x.txRings }).onRing t.ring (fun g => { g with taken := g.taken - 1
          })).onPort n (fun p =>
          { p with txUnderrun := p.txUnderrun + 1, sending := none, underruns := us,
                   sfHold := if hold then some (now + 10 * secBeats) else p.sfHold }))).onPkg
        (fun k => { k with sent := markBad l n k.sent })
      if hold then s1.flag l (portBit n 3) true else s1
    else s

/-- A frame that no supervision network needs but the pair sends of itself (R382): EtherType, SupVersion 1, sequence number and
the TLV of type 20 with the pair's MAC address. -/
def supervisionBytes (c : PairCfg) (seq : BitVec 16) : List Byte :=
  beBytes 2 0x88FB ++ beBytes 2 1 ++ beBytes 2 seq.toNat ++ beBytes 1 20 ++ beBytes 1 6 ++ beBytes 6 c.mac.toNat ++ zeros 2

/-- Both pairs post their supervision frames (R382). -/
def Lane.postSupervision (x : Lane) (now : Nat) : Lane :=
  let dst : Source := ⟨0x01154E000100#48, [], 0, false⟩
  let b := x.blk.net
  ((x.postTx 56 now dst 0 (supervisionBytes b.estate b.supSeq0)).postTx 58 now dst 0
    (supervisionBytes b.floor b.supSeq1)).onNet (fun k => { k with supSeq0 := k.supSeq0 + 1, supSeq1 := k.supSeq1 + 1 })

/-- The supervision frames that are due at a pick that closed at `closed` are posted (R382). -/
def Lane.supervise (x : Lane) (now closed : Nat) : Lane :=
  match x.blk.net.supDue with
  | some t => if t ≤ closed then (x.postSupervision now).onNet (fun b => { b with supDue := none }) else x
  | none => x

/-! ### Speed (R400 to R402) -/

/-- The speed that a pin demands of a port: POLICY_PIN item 0x02 first, then the pair's SPEED (R402). -/
def Lane.pinnedSpeed (x : Lane) (n : Nat) : Option Bool :=
  match (x.port n).pin with
  | some v => some (decide (v = 1))
  | none =>
    let c := if n = 0 then x.blk.net.estate.speed else x.blk.net.floor.speed
    if c = 1 then some true else if c = 2 then some false else none

/-- SPEED_DECISION: the active lane's lane manager lowers or raises a port, or carries out a pin, where R401 allows it. -/
def State.speedDecision (s : State) (l : LaneId) (n : Nat) (up : Bool) (now : Nat) : State :=
  let x := s.lane l
  let y := s.lane l.other
  let p := x.port n
  let q := y.port n
  let target := (x.pinnedSpeed n).getD up
  if n < 2 && s.active.isSome && x.inService && y.inService && q.link && q.speedBeat + 10 * secBeats ≤ now && p.reneg.isNone &&
      target ≠ p.speed10 && (target || p.lowerSuspended.isNone) then
    s.onLane l (fun z => z.onPort n (fun k => { k with reneg := some (now, target), link := false, sending := none }))
  else s

/-- LINK_UP: a port gains link; a change of speed is complete (R401). -/
def State.linkUp (s : State) (l : LaneId) (n now : Nat) : State :=
  if n < 2 then
    let p := (s.lane l).port n
    let first := p.speedBeat = 0 && p.reneg.isNone && !p.speed10
    (s.onLane l (fun x => x.onPort n (fun k =>
      match k.reneg with
      | some (_, t) => { k with link := true, reneg := none, speed10 := t, speedBeat := now, speedChanges := k.speedChanges + 1 }
      | none => { k with link := true, speed10 := if first then true else k.speed10,
                         speedBeat := if first then now else k.speedBeat }))).onLane l (fun x => x.endCause (portBit n 0))
  else s

/-- LINK_LOSS: class N for the port (R403). -/
def State.linkLoss (s : State) (l : LaneId) (n : Nat) : State :=
  if n < 2 && ((s.lane l).port n).link then
    (s.onLane l (fun x => x.onPort n (fun k => { k with link := false }))).flag l (portBit n 0) true
  else s

/-- RENEGOTIATION_TIMEOUT: no link at the new speed within 2 s (R401). -/
def State.renegTimeout (s : State) (l : LaneId) (n now : Nat) : State :=
  match ((s.lane l).port n).reneg with
  | some (t, _) =>
    if n < 2 && t + 2 * secBeats ≤ now then
      (s.onLane l (fun x => x.onPort n (fun k => { k with reneg := none, lowerSuspended := some (now + 3600 * secBeats) }))).flag
        l 2099 false
    else s
  | none => s

/-! ### The service port (Table 09-2, R329, R580) -/

/-- The oldest packet of the receive buffer enters the floor pair's stream of the active lane, as a frame without a PRP
trailer, or is dropped and counted under R331. -/
def State.takeSp (s : State) (l : LaneId) (b : List Byte) : State :=
  let drop := s.onPkg (fun p => { p with sp := { p.sp with drops := p.sp.drops + 1 } })
  let put := fun (t : State) (part : Nat) (gen : Option Word) =>
    t.onLane l (fun x => x.enter l 3 1 part (.net 4 none 0 b gen ⟨0, [], 0, false⟩ s.pkg.beat))
  match (s.lane l).intakeCheck (s.lane l).man.moduleId.toNat b false with
  | .drop => drop
  | .pass part gen unprot =>
    if unprot then
      (if 2000 ≤ s.pkg.sp.unprotected then drop
       else put (s.onPkg (fun p => { p with sp := { p.sp with unprotected := p.sp.unprotected + 1 } })) part gen)
    else put s part gen

/-- Whether a packet of the receive buffer is one that intake passes. -/
def State.spPasses (s : State) (l : LaneId) (b : List Byte) : Bool :=
  match (s.lane l).intakeCheck (s.lane l).man.moduleId.toNat b false with
  | .drop => false
  | .pass _ _ unprot => !unprot || decide (s.pkg.sp.unprotected < 2000)

/-- Packets of the receive buffer `bs` enter the stream in order, until one is held back: it and those behind it stay, and each is
counted once (R67). -/
def State.drainSpFrom (l : LaneId) : List (List Byte) → State → State
  | [], s => s
  | b :: r, s =>
    if s.spPasses l b && (s.lane l).holdsBack (EventBody.net 4 none 0 b none ⟨0, [], 0, false⟩ 0).size then
      (s.onLane l (fun x => x.countHeld (r.length + 1 - s.pkg.sp.held))).onPkg (fun p => { p with sp := { p.sp with
        held := max p.sp.held (r.length + 1) } })
    else State.drainSpFrom l r ((s.onPkg (fun p => { p with sp := { p.sp with rx := r, held := min p.sp.held r.length } })).takeSp l b)

/-- Packets of the receive buffer enter the stream while events are not held back. -/
def State.drainSp (s : State) : State :=
  match s.active with
  | none => s
  | some l => State.drainSpFrom l s.pkg.sp.rx s

/-- SP_WRITE: a packet of `length` bytes is clocked in. -/
def State.spWrite (s : State) (bytes : List Byte) (length : Nat) (complete : Bool) : State :=
  if !complete || 1472 < length || bytes.length < length || 4 ≤ s.pkg.sp.rx.length then
    s.onPkg (fun p => { p with sp := { p.sp with drops := p.sp.drops + 1 } })
  else (s.onPkg (fun p => { p with sp := { p.sp with rx := p.sp.rx ++ [bytes.take length] } })).drainSp

/-- SP_READ: length, then the oldest unread reply, which leaves the buffer only when its last byte has been clocked out. -/
def State.spRead (s : State) (complete : Bool) : State :=
  s.onPkg (fun p => { p with sp :=
    match p.sp.replies with
    | [] => { p.sp with lastOut := zeros 2 }
    | r :: rest => { p.sp with lastOut := beBytes 2 r.length ++ r, replies := if complete then rest else r :: rest } })

/-- SP_STATUS: bit 0 REPLY_READY, bit 1 RX_FULL. -/
def State.spStatus (s : State) : State :=
  s.onPkg (fun p => { p with sp := { p.sp with
    lastOut := beBytes 1 (b2n (p.sp.replies ≠ []) + 2 * b2n (decide (4 ≤ p.sp.rx.length))) } })

/-! ### Event packets on their way (R364, R499) -/

/-- The subscription of partition `p`, changed. -/
def Lane.onSub (x : Lane) (p : Nat) (f : Subscription → Option Subscription) : Lane :=
  x.onSender p (fun q => { q with sub := q.sub.bind f })

/-- EVENT_RESEND: a lane resends every unacknowledged packet 100 ms after each sending, byte for byte. The service port carries no
event packets (Table 09-1). -/
def State.eventResend (s : State) (l : LaneId) (p now : Nat) : State :=
  match ((s.lane l).sender p).sub with
  | none => s
  | some q =>
    if q.via = .service then s else
    let due := q.unacked.filter (fun e => decide (e.last + ageBeats ≤ now))
    let s1 := s.onLane l (fun x => x.onSub p (fun q => some { q with
      unacked := q.unacked.map (fun e => if e.last + ageBeats ≤ now then { e with last := now } else e) }))
    if (s.lane l).releases then due.foldl (fun (t : State) e => t.sendPacket l q.via q.src e.bytes) s1 else s

/-- SUBSCRIPTION_END: the oldest unacknowledged packet was first sent 60 s ago (R499). -/
def State.subscriptionEnd (s : State) (l : LaneId) (p now : Nat) : State :=
  match ((s.lane l).sender p).sub with
  | none => s
  | some q =>
    match q.unacked with
    | e :: _ =>
      if e.first + 60 * secBeats ≤ now then
        (s.onLane l (fun x => x.onSender p (fun r => { r with sub := none }))).flag l 2090 false
      else s
    | [] => s

/-! ### The rows of chapter 10 and of the service port -/

def execNetFrameReceived (l : LaneId) (port : Nat) (f : Frame) (beat : Nat) (s : State) : Host.Outcome State Fault Refusal :=
  let t := s.at_ beat
  .next (if port < 2 then t.onLane l (fun x => x.netFrame l port x.man.moduleId.toNat f t.pkg.beat) else t)

def execPauseTimerExpiry (l : LaneId) (port beat : Nat) (s : State) : Host.Outcome State Fault Refusal :=
  let t := s.at_ beat
  .next (match ((t.lane l).port port).paused with
    | some e => if port < 2 && e ≤ t.pkg.beat then
        t.onLane l (fun x => (x.onPort port (fun p => { p with paused := none, pausedSince := none, pauseLong := false
          })).endCause (portBit port 1))
      else t
    | none => t)

def execPauseRepeat (l : LaneId) (port beat : Nat) (s : State) : Host.Outcome State Fault Refusal :=
  let t := s.at_ beat
  let p := (t.lane l).port port
  .next (match p.pauseSent with
    | some e =>
      if port < 2 && p.pausing && !p.pauseCapped && pctLow p.ctl < (t.lane l).fillPercent port &&
          e + quantaBeats 0xFFFF p.speed10 / 2 ≤ t.pkg.beat then
        t.onLane l (fun x => x.sendPause port t.pkg.beat 0xFFFF)
      else t
    | none => t)

def execPauseLong (l : LaneId) (port beat : Nat) (s : State) : Host.Outcome State Fault Refusal :=
  let t := s.at_ beat
  .next (match ((t.lane l).port port).pausedSince with
    | some e =>
      if port < 2 && e + secBeats ≤ t.pkg.beat && ((t.lane l).port port).paused.isSome then
        (t.onLane l (fun x => x.onPort port (fun p => { p with pauseLong := true }))).flag l (portBit port 1) true
      else t
    | none => t)

def execPauseCapped (l : LaneId) (port beat : Nat) (s : State) : Host.Outcome State Fault Refusal :=
  let t := s.at_ beat
  .next (match ((t.lane l).port port).pauseFirst with
    | some e =>
      if port < 2 && e + secBeats ≤ t.pkg.beat && ((t.lane l).port port).pausing && !((t.lane l).port port).pauseCapped then
        (t.onLane l (fun x => x.onPort port (fun p => { p with pauseCapped := true }))).flag l (portBit port 2) true
      else t
    | none => t)

def execArpRequest (l : LaneId) (s : State) : Host.Outcome State Fault Refusal :=
  .next (s.onLane l (fun x => x.answerFrame isArp arpAnswer s.pkg.beat))

def execNeighbourSolicitation (l : LaneId) (s : State) : Host.Outcome State Fault Refusal :=
  .next (s.onLane l (fun x => x.answerFrame isSolicit solicitAnswer s.pkg.beat))

def execEchoRequest (l : LaneId) (s : State) : Host.Outcome State Fault Refusal :=
  .next (s.onLane l (fun x => x.answerFrame isEcho echoAnswer s.pkg.beat))

def execIntakeInterval (beat : Nat) (s : State) : Host.Outcome State Fault Refusal :=
  let t := s.at_ beat
  let z := fun (x : Lane) =>
    (x.onPort 0 (fun p => { p with unprotected := 0, arpCount := 0, icmpCount := 0 })).onPort 1
      (fun p => { p with unprotected := 0, arpCount := 0, icmpCount := 0 })
  .next (if beat % secBeats = 0 then
    { t with a := z t.a, b := z t.b, pkg := { t.pkg with sp := { t.pkg.sp with unprotected := 0 } } } else t)

def execPrpSourceAgeout (l : LaneId) (pair : Nat) (mac : BitVec 48) (beat : Nat) (s : State) :
    Host.Outcome State Fault Refusal :=
  let t := s.at_ beat
  let keep := fun (q : List PrpSource) => q.filter (fun e => !(e.mac = mac && decide (e.lastBeat + 60 * secBeats ≤ t.pkg.beat)))
  .next (t.onLane l (fun x => x.onMan (fun m =>
    if pair = 0 then { m with prpEstate := keep m.prpEstate } else { m with prpFloor := keep m.prpFloor })))

def execTxFrameStart (l : LaneId) (port beat : Nat) (s : State) : Host.Outcome State Fault Refusal :=
  .next ((s.at_ beat).txStart l port (s.at_ beat).pkg.beat)

def execTxUnderrun (l : LaneId) (port beat : Nat) (s : State) : Host.Outcome State Fault Refusal :=
  .next ((s.at_ beat).txUnderrun l port (s.at_ beat).pkg.beat)

def execSfHoldEnd (l : LaneId) (port beat : Nat) (s : State) : Host.Outcome State Fault Refusal :=
  let t := s.at_ beat
  .next (match ((t.lane l).port port).sfHold with
    | some e => if port < 2 && e ≤ t.pkg.beat then
        t.onLane l (fun x => (x.onPort port (fun p => { p with sfHold := none })).endCause (portBit port 3)) else t
    | none => t)

def execTxAgedDrop (l : LaneId) (port beat : Nat) (s : State) : Host.Outcome State Fault Refusal :=
  let t := s.at_ beat
  .next (if port < 2 then t.onLane l (fun x => x.dropAged port t.pkg.beat) else t)

def execPrpSupervisionTimer (l : LaneId) (beat : Nat) (s : State) : Host.Outcome State Fault Refusal :=
  let t := s.at_ beat
  .next (if (t.lane l).blk.net.supNext ≤ t.pkg.beat then
    t.onLane l (fun x => x.onNet (fun b =>
      { b with supDue := some b.supNext, supNext := (t.pkg.beat / (2 * secBeats) + 1) * (2 * secBeats) })) else t)

def execLinkLoss (l : LaneId) (port : Nat) (s : State) : Host.Outcome State Fault Refusal := .next (s.linkLoss l port)

def execLinkUp (l : LaneId) (port beat : Nat) (s : State) : Host.Outcome State Fault Refusal :=
  .next ((s.at_ beat).linkUp l port (s.at_ beat).pkg.beat)

def execSpeedDecision (l : LaneId) (port : Nat) (up : Bool) (beat : Nat) (s : State) : Host.Outcome State Fault Refusal :=
  .next ((s.at_ beat).speedDecision l port up (s.at_ beat).pkg.beat)

def execRenegotiationTimeout (l : LaneId) (port beat : Nat) (s : State) : Host.Outcome State Fault Refusal :=
  .next ((s.at_ beat).renegTimeout l port (s.at_ beat).pkg.beat)

def execLowerSuspendedEnd (l : LaneId) (port beat : Nat) (s : State) : Host.Outcome State Fault Refusal :=
  let t := s.at_ beat
  .next (match ((t.lane l).port port).lowerSuspended with
    | some e => if port < 2 && e ≤ t.pkg.beat then
        t.onLane l (fun x => x.onPort port (fun p => { p with lowerSuspended := none })) else t
    | none => t)

def execEventResend (l : LaneId) (part beat : Nat) (s : State) : Host.Outcome State Fault Refusal :=
  .next ((s.at_ beat).eventResend l part (s.at_ beat).pkg.beat)

def execSubscriptionEnd (l : LaneId) (part beat : Nat) (s : State) : Host.Outcome State Fault Refusal :=
  .next ((s.at_ beat).subscriptionEnd l part (s.at_ beat).pkg.beat)

def execSpWrite (bytes : List Byte) (length : Nat) (complete : Bool) (s : State) : Host.Outcome State Fault Refusal :=
  .next (s.spWrite bytes length complete)

def execSpRead (complete : Bool) (s : State) : Host.Outcome State Fault Refusal := .next (s.spRead complete)

def execSpStatus (s : State) : Host.Outcome State Fault Refusal := .next s.spStatus

end Sys2Proof.Machine
end

