-- ==== Sys2Proof/Machine/Can.lean ====
section
/-! DEFINITION. The CAN FD field buses (chapter 11): capture and intake, transmission, bus-off, and the two opcodes that
configure them. CAN frames are received and sent in one step each, so every instant between steps is a frame boundary. -/

namespace Sys2Proof.Machine

/-! ### Lengths (R422) -/

/-- The smallest DLC whose length holds `n` bytes. -/
def dlcFor (n : Nat) : Nat :=
  if n ≤ 8 then n else if n ≤ 12 then 9 else if n ≤ 16 then 10 else if n ≤ 20 then 11 else if n ≤ 24 then 12
  else if n ≤ 32 then 13 else if n ≤ 48 then 14 else 15

/-- The length of a DLC. -/
def dlcLen (d : Nat) : Nat :=
  if d ≤ 8 then d else if d = 9 then 12 else if d = 10 then 16 else if d = 11 then 20 else if d = 12 then 24
  else if d = 13 then 32 else if d = 14 then 48 else 64

/-! ### Mode bits (Table 11-8) -/

def busEn (w : Word) : Bool := bitOf w 0
def busSingle (w : Word) : Bool := bitOf w 1
def busFd (w : Word) : Bool := bitOf w 2
def busAuto (w : Word) : Bool := bitOf w 3

/-- A frame agrees with a mailbox's ID, MASK and XTD. -/
def mailboxMatches (id mask : Word) (f : CanFrame) : Bool :=
  bitOf id 31 && bitOf id 29 = f.xtd && (field id 28 0 &&& field mask 28 0) = (f.id.toNat &&& field mask 28 0)

/-! ### Receiving (R413 to R418) -/

/-- The lowest-numbered enabled receive mailbox that captures a frame (R413). -/
def BusSt.rxMatch (b : BusSt) (f : CanFrame) : Option Nat :=
  (List.range 64).find? (fun m => mailboxMatches (tget {} b.rx m).id (tget {} b.rx m).mask f)

/-- A frame is captured with the next receive index. -/
def BusSt.nextHeld (b : BusSt) (f : CanFrame) (stamp : Word) : CanHeld := ⟨f, b.nextIndex, stamp⟩

/-- A frame is stored in the receive FIFO, or dropped and counted when it is full (R415, R417). -/
def BusSt.toFifo (b : BusSt) (f : CanFrame) (stamp : Word) : BusSt :=
  if 32 ≤ b.fifo.length then { b with rxFifoDrop := b.rxFifoDrop + 1 }
  else { b with fifo := b.fifo ++ [b.nextHeld f stamp], nextIndex := b.nextIndex + 1 }

/-- A controller captures a received frame (R413 to R417); a remote frame goes no further (Table 11-1). -/
def BusSt.capture (b : BusSt) (f : CanFrame) (stamp : Word) : BusSt :=
  if f.remote then { b with rxNoMatch := b.rxNoMatch + 1 }
  else
    let c : BusSt := { b with rxFrames := b.rxFrames + 1 }
    match c.rxMatch f with
    | none => { c with rxNoMatch := c.rxNoMatch + 1 }
    | some m =>
      let mb := tget {} c.rx m
      let h := c.nextHeld f stamp
      if bitOf mb.id 30 then
        let lost := if mb.locked then mb.shadow.isSome else mb.content.isSome
        { c with rx := tput {} c.rx m (if mb.locked then { mb with shadow := some h } else { mb with content := some h })
                 nextIndex := c.nextIndex + 1
                 rxOverwrite := if lost then c.rxOverwrite + 1 else c.rxOverwrite }
      else if mb.locked || mb.content.isSome then c.toFifo f stamp
      else { c with rx := tput {} c.rx m { mb with content := some h }, nextIndex := c.nextIndex + 1 }

/-- The captured frames that wait, each with the mailbox that holds it; none is the FIFO. -/
def BusSt.waitingFrames (b : BusSt) : List (Option Nat × CanHeld) :=
  (b.rx.filterMap (fun e => e.2.content.map (fun h => (some e.1, h)))) ++ (b.fifo.take 1).map (fun h => (none, h))

/-- The frame with the lowest receive index (R413, R418). -/
def BusSt.lowest (b : BusSt) : Option (Option Nat × CanHeld) :=
  match b.waitingFrames with
  | [] => none
  | q :: r => some (r.foldl (fun a e => if serialBefore e.2.index a.2.index then e else a) q)

/-- The engine has read a frame: the mailbox unlocks and its shadow becomes its content (R416). -/
def BusSt.readDone (b : BusSt) (q : Option Nat) : BusSt :=
  match q with
  | none => { b with fifo := b.fifo.drop 1 }
  | some m => { b with rx := tmod {} b.rx m (fun mb => { mb with content := mb.shadow, shadow := none, locked := false }) }

/-- The engine begins to read the frame that comes next: its mailbox is locked (R415, R418). -/
def BusSt.beginRead (b : BusSt) : BusSt :=
  match b.lowest with
  | some (some m, _) => { b with rx := tmod {} b.rx m (fun mb => { mb with locked := true }) }
  | _ => b

/-- A captured frame waits at the entry point of its bus's stream: it is counted once as held back (R67, R418). -/
def Lane.holdCan (x : Lane) (n : Nat) (index : BitVec 24) : Lane :=
  if (x.bus n).heldIndex = some index then x.countHeld 0
  else (x.countHeld 1).onBus n (fun b => { b with heldIndex := some index })

/-- CAN_INTAKE: the frame with the lowest receive index enters its bus's stream through ring 60; while events are held back it
stays where it is (R418). In a lane that has just rejoined, frames that arrive before its first epoch opens go no further (R412). -/
def Lane.canIntake (x : Lane) (l : LaneId) (n : Nat) : Lane :=
  match (x.bus n).lowest with
  | none => x
  | some (q, h) =>
    let body : EventBody := .can h.f h.stamp (decide (l = .b))
    if !x.inService then x
    else if x.joining then x.onBus n (fun b => b.readDone q)
    else if x.holdsBack body.size then x.holdCan n h.index
    else
      let y := ((x.onBus n (fun b => { b.readDone q with heldIndex := none })).onRing 60 (fun g =>
        { g with posted := g.posted + 1, taken := g.taken + 1 })).enter l 2 n 0 body
      if y.holdsBack 0 then y else y.onBus n BusSt.beginRead

/-! ### Transmitting (R421 to R424) -/

/-- Word `i` of a ring entry. -/
def entryWord (bs : List Byte) (i : Nat) : Word := w32 (leNat ((bs.drop (4 * i)).take 4))

/-- The lane manager moves a CAN transmit entry of ring 16 to ring 61, or drops it (R421). Ring 61 keeps the
beat of posting with the entry. -/
def Lane.moveCanTx (x : Lane) (l : LaneId) (bs : List Byte) (now : Nat) : Lane :=
  let w := entryWord bs 0
  let n := field w 10 8
  let b := x.bus n
  let len := field w 22 16
  let total := if busSingle b.ctl then len else len + 1
  let idBad := if bitOf w 14 then decide (2 ^ 29 ≤ (entryWord bs 1).toNat) else decide (2 ^ 11 ≤ (entryWord bs 1).toNat)
  let bad := !busEn b.ctl || (bitOf w 12 && !busFd b.ctl) || (bitOf w 13 && !bitOf w 12) || idBad ||
    (if bitOf w 12 then 64 < total else 8 < total)
  if bad then (x.onBus n (fun b => { b with txBad := b.txBad + 1 })).setBit l 2083 false
  else x.onRing 61 (fun g => g.offer 61 (RingEntry.mk (bs.take (8 + len) ++ zeros (8 + len - bs.length)) 0 true now))

/-- The transmit mailbox that takes a frame: none matches, or the lowest-numbered free one. -/
def BusSt.txMatches (b : BusSt) (f : CanFrame) : List Nat :=
  (List.range 16).filter (fun m => mailboxMatches (tget {} b.tx m).id (tget {} b.tx m).mask f)

/-- The queue's oldest frames move into mailboxes until one has to wait (R423). -/
def BusSt.fill : Nat → BusSt → BusSt
  | 0, b => b
  | k + 1, b =>
    match b.queue with
    | [] => b
    | q :: r =>
      match b.txMatches q.1 with
      | [] => BusSt.fill k { b with queue := r, txBad := b.txBad + 1 }
      | ms =>
        match ms.find? (fun m => (tget {} b.tx m).content.isNone) with
        | some m => BusSt.fill k { b with queue := r, tx := tmod {} b.tx m (fun t => { t with content := some q }) }
        | none => b

/-- The frame with `data` that a transmit entry asks for (R421, R422): FD, BRS, XTD and the identifier of the entry, the smallest
length that holds the data, with zeros after it, and the error state of the controller. -/
def txFrameOf (state : Nat) (data bytes : List Byte) : CanFrame :=
  let w := entryWord bytes 0
  let dlc := dlcFor data.length
  ⟨bitOf w 12, bitOf w 13, bitOf w 14, BitVec.ofNat 29 (entryWord bytes 1).toNat, dlc, decide (state = 1), false,
    data ++ zeros (dlcLen dlc - data.length)⟩

/-- CAN_TX_TAKE: a lane takes the next entry of ring 61 (R422, R423, R426). A lane with closed gates takes none (R107). -/
def State.canTake (s : State) (l : LaneId) : State :=
  let x := s.lane l
  match (x.ring 61).take with
  | none => s
  | some (e, g) =>
    if x.blk.lane.gatesClosed || !x.releases then s
    else
      let w := entryWord e.bytes 0
      let n := field w 10 8
      let b := x.bus n
      let len := field w 22 16
      let single := busSingle b.ctl
      let data := (if single then [] else [b.seq]) ++ (e.bytes.drop 8).take len
      let f := txFrameOf b.state data e.bytes
      let b1 := if single then b else { b with seq := b.seq + 1 }
      let off := { b1 with txOffDrop := b1.txOffDrop + 1 }
      let b2 :=
        if single && l = .b then (if s.a.inService then b1 else off)
        else if b1.state = 2 then off
        else if 64 ≤ b1.queue.length then { b1 with txQfullDrop := b1.txQfullDrop + 1 }
        else BusSt.fill 65 { b1 with queue := b1.queue ++ [(f, e.posted)] }
      s.onLane l (fun x => (x.onRing 61 (fun _ => g)).onBus n (fun _ => b2))

/-- CAN_TX_COMPLETE: the frame of a mailbox completes transmission; the queue moves on. -/
def State.canComplete (s : State) (l : LaneId) (n m : Nat) : State :=
  let b := (s.lane l).bus n
  match (tget {} b.tx m).content with
  | none => s
  | some q =>
    if (s.lane l).blk.lane.gatesClosed || !busEn b.ctl || b.state = 2 || b.state = 3 || b.stuck ||
        (busSingle b.ctl && l = .b) || (s.lane l).clockLost 2 then s
    else
      (s.onLane l (fun x => x.onBus n (fun b => BusSt.fill 65
        { b with tx := tmod {} b.tx m (fun t => { t with content := none }), txFrames := b.txFrames + 1 }))).onPkg
          (fun p => { p with canSent := (l, n, q.1) :: p.canSent })

/-- CAN_TX_AGED: frames that were posted 100 ms ago are withdrawn and counted (R424). -/
def BusSt.dropOld (b : BusSt) (now : Nat) : BusSt :=
  let old := fun (q : CanFrame × Nat) => decide (q.2 + ageBeats ≤ now)
  let inMail := (b.tx.filter (fun e => match e.2.content with | some q => old q | none => false)).length
  let k := (b.queue.filter old).length + inMail
  BusSt.fill 65 { b with
    queue := b.queue.filter (fun q => !old q)
    tx := b.tx.foldl (fun t e => tput {} t e.1
      { e.2 with content := match e.2.content with | some q => if old q then none else some q | none => none }) []
    txAgedDrop := b.txAgedDrop + BitVec.ofNat 32 k }

/-! ### Errors and bus-off (R425 to R428) -/

/-- Collector bits of bus `n` (Table 14-1). -/
def busBit (n : Nat) : Nat := 2060 + n
def stuckBit (n : Nat) : Nat := 2068 + n

/-- Frames of a bus that its mailboxes and queue hold. -/
def BusSt.txHeld (b : BusSt) : Nat := b.queue.length + (b.tx.filter (fun e => e.2.content.isSome)).length

/-- BUS_OFF: a controller enters bus-off (R426, R427). -/
def State.enterBusOff (s : State) (l : LaneId) (n now : Nat) : State :=
  let b := (s.lane l).bus n
  if n < 8 && busEn b.ctl && b.state < 2 then
    let ts := now :: b.offBeats.filter (fun t => decide (now < t + secBeats))
    let wait := decide (8 ≤ ts.length)
    (s.onLane l (fun x => x.onBus n (fun b =>
      { b with state := 2, offBeats := ts, busoff := b.busoff + 1,
               txOffDrop := b.txOffDrop + BitVec.ofNat 32 b.txHeld,
               queue := [], tx := b.tx.foldl (fun t e => tput {} t e.1 { e.2 with content := none }) [],
               recovering := busAuto b.ctl && !wait,
               waitUntil := if busAuto b.ctl && wait then some (now + secBeats) else none }))).flag l (busBit n) false
  else s

/-- Recovery from bus-off is requested on a pair. -/
def BusSt.requestRecovery (b : BusSt) : BusSt := if b.state = 2 then { b with recovering := true, waitUntil := none } else b

/-- BUS_OFF_RECOVERY: recovery completes with TEC and REC at 0. -/
def State.busRecovered (s : State) (l : LaneId) (n : Nat) : State :=
  let b := (s.lane l).bus n
  if n < 8 && b.state = 2 && b.recovering then
    (s.onLane l (fun x => x.onBus n (fun b => { b with state := 0, recovering := false, tec := 0, recCnt := 0 }))).flag l
      (busBit n) false
  else s

/-- CAN_BUS_ERROR: an error on a pair changes TEC or REC; at 128 in either the controller is error-passive, and each change of
state is class N (R425). -/
def State.busError (s : State) (l : LaneId) (n tec rec now : Nat) : State :=
  let b := (s.lane l).bus n
  if n < 8 && busEn b.ctl && b.state < 2 then
    let s1 := s.onLane l (fun x => x.onBus n (fun b => { b with tec := tec % 512, recCnt := rec % 256 }))
    if 256 ≤ tec then s1.enterBusOff l n now
    else
      let st := if 128 ≤ tec || 128 ≤ rec then 1 else 0
      if st = b.state then s1
      else (s1.onLane l (fun x => x.onBus n (fun b => { b with state := st }))).flag l (busBit n) false
  else s

/-! ### Configuration (R430, R431) -/

/-- CAN_NBT, CAN_DBT and CAN_TDC of a timing. -/
def nbtWord (c : CanArgs) : Word :=
  w32 ((c.nbrp - 1) * 2 ^ 24 + (c.ntseg1 - 1) * 2 ^ 16 + (c.ntseg2 - 1) * 2 ^ 8 + (c.nsjw - 1))
def dbtWord (c : CanArgs) : Word :=
  w32 ((c.dbrp - 1) * 2 ^ 24 + (c.dtseg1 - 1) * 2 ^ 16 + (c.dtseg2 - 1) * 2 ^ 8 + (c.dsjw - 1))

/-- The value checks of R409 (Table 11-2). -/
def timingOk (c : CanArgs) : Bool :=
  let nbit := c.nbrp * (1 + c.ntseg1 + c.ntseg2)
  let dbit := c.dbrp * (1 + c.dtseg1 + c.dtseg2)
  1 ≤ c.nbrp && c.nbrp ≤ 256 && 1 ≤ c.ntseg1 && c.ntseg1 ≤ 256 && 1 ≤ c.ntseg2 && c.ntseg2 ≤ 128 &&
  1 ≤ c.nsjw && c.nsjw ≤ c.ntseg2 && 1 ≤ c.dbrp && c.dbrp ≤ 32 && 1 ≤ c.dtseg1 && c.dtseg1 ≤ 32 &&
  1 ≤ c.dtseg2 && c.dtseg2 ≤ 16 && 1 ≤ c.dsjw && c.dsjw ≤ c.dtseg2 && c.tdco ≤ 127 &&
  80 ≤ nbit && 16 ≤ dbit && dbit ≤ nbit

/-- The command changes SINGLE_PAIR, FD or a timing field. -/
def BusSt.timingChanges (b : BusSt) (c : CanArgs) : Bool :=
  (c.mode / 2 % 4 ≠ field b.ctl 2 1) || nbtWord c ≠ b.nbt || dbtWord c ≠ b.dbt || w32 c.tdco ≠ b.tdc

def checkCanConfig (x : Lane) (h : Hdr) (c : CanArgs) : Option Status :=
  if h.sender.getD 0 ≠ 0 then some .notPermitted
  else if 7 < c.bus || !timingOk c then some .badParam
  else if busEn (x.bus c.bus).ctl && (x.bus c.bus).timingChanges c then some .rejectedRunning
  else none

/-- A bus takes its mode bits and timing: EN starts or stops the controller, and an unchanged setting in bus-off also requests
recovery. -/
def BusSt.configure (b : BusSt) (c : CanArgs) : BusSt :=
  let same := !b.timingChanges c
  let b1 := { b with ctl := w32 (c.mode % 16), nbt := nbtWord c, dbt := dbtWord c, tdc := w32 c.tdco }
  if c.mode % 2 = 0 then { b1 with state := 3, recovering := false, waitUntil := none }
  else if b.state = 3 then { b1 with state := 0, tec := 0, recCnt := 0 }
  else if same then b1.requestRecovery else b1

def runCanConfig (x : Lane) (now : Nat) (c : CanArgs) : Lane × Answer :=
  ((x.onBus c.bus (fun b => b.configure c)).startFlash .config now, .done .ok [])

/-- Identifier bits of a format. -/
def formatLimit (xtd : Bool) : Nat := if xtd then 2 ^ 29 else 2 ^ 11

def checkMailboxSet (h : Hdr) (m : MailboxArgs) : Option Status :=
  let xtd := bitOf m.id 31
  if h.sender.getD 0 ≠ 0 then some .notPermitted
  else if 7 < m.bus || 1 < m.dir || (if m.dir = 0 then 63 < m.mailbox else 15 < m.mailbox) || 1 < m.type ||
      (m.type = 1 && m.dir = 1) || formatLimit xtd ≤ m.id.toNat % 2 ^ 31 || formatLimit xtd ≤ m.mask.toNat || 1 < m.en then
    some .badParam
  else none

/-- A mailbox's ID register: EN, TYPE, XTD and identifier (Table 11-8). -/
def mailboxWord (m : MailboxArgs) : Word :=
  w32 (m.en * 2 ^ 31 + m.type * 2 ^ 30 + b2n (bitOf m.id 31) * 2 ^ 29 + m.id.toNat % 2 ^ 29)

/-- One mailbox of a bus is written; a frame that it holds stays (R431). -/
def Lane.setMailbox (x : Lane) (m : MailboxArgs) : Lane :=
  x.onBus m.bus (fun b =>
    if m.dir = 0 then { b with rx := tmod {} b.rx m.mailbox (fun k => { k with id := mailboxWord m, mask := m.mask }) }
    else BusSt.fill 65 { b with tx := tmod {} b.tx m.mailbox (fun k => { k with id := mailboxWord m, mask := m.mask }) })

def runMailboxSet (x : Lane) (now : Nat) (m : MailboxArgs) : Lane × Answer :=
  ((x.setMailbox m).startFlash .config now, .done .ok [])

/-! ### The rows of chapter 11 -/

/-- CAN_FRAME_CAPTURE: `sof` is the module beat count at the frame's start-of-frame bit, from which its stamp derives (R419). While T2
is lost nothing passes (R34). -/
def execCanFrameCapture (l : LaneId) (bus : Nat) (f : CanFrame) (sof : Nat) (s : State) :
    Host.Outcome State Fault Refusal :=
  let t := s.at_ sof
  let b := (t.lane l).bus bus
  let stamp := canTime ((t.lane l).beatSeen sof)
  .next (if bus < 8 && busEn b.ctl && b.state < 2 && !b.stuck && (!f.fd || busFd b.ctl) && !(busSingle b.ctl && l = .b) &&
      !(t.lane l).clockLost 2 then
    t.onLane l (fun x => x.onBus bus (fun b => b.capture f stamp)) else t)

def execCanIntake (l : LaneId) (bus : Nat) (s : State) : Host.Outcome State Fault Refusal :=
  -- a lane that has just rejoined contributes no frame to the epoch that was open then (R412)
  .next (if bus < 8 then s.onLane l (fun x =>
      let y := x.canIntake l bus
      if x.joining then { y with open_ := x.open_, openBytes := x.openBytes, held := x.held, arrivals := x.arrivals } else y)
    else s)

def execCanTxTake (l : LaneId) (beat : Nat) (s : State) : Host.Outcome State Fault Refusal := .next ((s.at_ beat).canTake l)

def execCanTxComplete (l : LaneId) (bus mailbox : Nat) (s : State) : Host.Outcome State Fault Refusal :=
  .next (s.canComplete l bus mailbox)

def execCanTxAged (l : LaneId) (bus beat : Nat) (s : State) : Host.Outcome State Fault Refusal :=
  let t := s.at_ beat
  .next (if bus < 8 then t.onLane l (fun x => x.onBus bus (fun b => b.dropOld t.pkg.beat)) else t)

def execBusOff (l : LaneId) (bus beat : Nat) (s : State) : Host.Outcome State Fault Refusal :=
  .next ((s.at_ beat).enterBusOff l bus (s.at_ beat).pkg.beat)

def execBusOffRecovery (l : LaneId) (bus : Nat) (s : State) : Host.Outcome State Fault Refusal := .next (s.busRecovered l bus)

def execRecoveryWaitEnd (l : LaneId) (bus beat : Nat) (s : State) : Host.Outcome State Fault Refusal :=
  let t := s.at_ beat
  .next (match ((t.lane l).bus bus).waitUntil with
    | some e => if bus < 8 && e ≤ t.pkg.beat then
        t.onLane l (fun x => x.onBus bus (fun b => { b with waitUntil := none, recovering := true })) else t
    | none => t)

def execStuckDom (l : LaneId) (bus : Nat) (s : State) : Host.Outcome State Fault Refusal :=
  .next (if bus < 8 && busEn ((s.lane l).bus bus).ctl then
    (s.onLane l (fun x => x.onBus bus (fun b => { b with stuck := true }))).flag l (stuckBit bus) true else s)

def execStuckDomCleared (l : LaneId) (bus : Nat) (s : State) : Host.Outcome State Fault Refusal :=
  .next (if bus < 8 then
    s.onLane l (fun x => (x.onBus bus (fun b => { b with stuck := false })).endCause (stuckBit bus)) else s)

def execCanBusError (l : LaneId) (bus tec rec : Nat) (s : State) : Host.Outcome State Fault Refusal :=
  .next (s.busError l bus tec rec s.pkg.beat)

/-- RECOVER: the lane manager writes CAN_BUS_CTL with RECOVER = 1 (R427). -/
def execRecover (l : LaneId) (bus : Nat) (v : Word) (s : State) : Host.Outcome State Fault Refusal :=
  .next (if bus < 8 && bitOf v 4 then s.onLane l (fun x => x.onBus bus BusSt.requestRecovery) else s)

end Sys2Proof.Machine
end

