-- ==== Sys2Proof/Machine/Points.lean ====
section
/-! DEFINITION. Point channels (chapter 06): unit types, frames, status words, safe values, output updates and what drives an
output stage. -/

namespace Sys2Proof.Machine

/-! ### Unit configuration -/

/-- TYPE of a unit configuration word (Table 06-14). -/
def cfgType (w : Word) : Nat := field w 19 16
/-- SAFE_MODE of a unit configuration word. -/
def cfgSafeMode (w : Word) : Nat := field w 25 24
/-- FILTER of a unit configuration word, in 0.1 ms. -/
def cfgFilter (w : Word) : Nat := field w 15 8
/-- EN of a unit configuration word. -/
def cfgEn (w : Word) : Bool := bitOf w 31

/-- Types that drive an output: AO_V10, AO_I20, DO and PWM (Table 06-1). -/
def isOutputType (t : Nat) : Bool := 9 ≤ t && t ≤ 12
/-- Types that convert a voltage or current or sensor: AI. -/
def isAiType (t : Nat) : Bool := 1 ≤ t && t ≤ 6

/-- Configuration, parameter and stated safe word of point `p` as in force in a lane. -/
def Lane.unitCfg (x : Lane) (p : Nat) : Word := tget 0 x.blk.pnt.cfg p
def Lane.unitParam (x : Lane) (p : Nat) : Word := tget 0 x.blk.pnt.param p
def Lane.unitSafeWord (x : Lane) (p : Nat) : Word := tget 0 x.blk.pnt.safe p
/-- The type of point `p` in force; a unit that is not enabled acts as type NONE (assumption 26). -/
def Lane.unitType (x : Lane) (p : Nat) : Nat := if cfgEn (x.unitCfg p) then cfgType (x.unitCfg p) else 0

/-- The scan divisor of region `r` (25 at reset, Table 06-14). -/
def Lane.scanDiv (x : Lane) (r : Nat) : Nat := tget 25 x.blk.pnt.scanDiv r

/-- Measuring ends of AI types (Table 06-17). -/
def aiEnds (t : Nat) : Int × Int :=
  match t with
  | 1 => (-500000, 10500000)
  | 2 => (-10500000, 10500000)
  | 3 => (0, 24000000)
  | 4 => (0, 24000000)
  | 5 => (-60000, 260000)
  | _ => (-50000, 130000)

/-- Range of AI types below and above which UNDER and OVER are set (Table 06-1). -/
def aiRange (t : Nat) : Int × Int :=
  match t with
  | 1 => (0, 10000000)
  | 2 => (-10000000, 10000000)
  | 3 => (0, 20000000)
  | 4 => (3600000, 20000000)
  | 5 => (-50000, 250000)
  | _ => (-40000, 120000)

/-- A mean whose rounding the spec leaves open: the quotient below or the one above (assumption 27). -/
def meanOf (vs : List Int) : Int :=
  let n : Int := vs.length
  let q := vs.sum / n
  if vs.sum % n = 0 then q else if Config.roundChoice vs.sum n then q + 1 else q

/-- The word of an AI unit in a frame: the mean of its conversions, limited to the measuring ends; an open or shorted
sensor reports the end it implies (R204, R589, Table 06-17). -/
def aiWord (t : Nat) (u : UnitSample) : Int :=
  let e := aiEnds t
  if u.openWire && (t = 3 || t = 4) then 0
  else if u.openWire && t = 5 then e.2
  else if u.openWire && t = 6 then e.1
  else if u.short && t = 5 then e.1
  else if u.short && t = 6 then e.2
  else clampInt e.1 e.2 (meanOf u.conv)

/-- Rounds of 40 µs that a level must hold before the debounced state takes it (FILTER in 0.1 ms; assumption 28). -/
def debounceRounds (filter : Nat) : Nat := (filter * 100 + 39) / 40

/-- A debouncer over the levels of a frame's rounds: state, pending age, and rising edges counted (R204, Table 06-1). -/
def debounce (rounds : Nat) : List Int → Nat × Nat × Nat → Nat × Nat × Nat
  | [], s => s
  | v :: r, (st, age, edges) =>
    let lv := if v ≠ 0 then 1 else 0
    if lv = st then debounce rounds r (st, 0, edges)
    else if rounds ≤ age + 1 then debounce rounds r (lv, 0, edges + lv)
    else debounce rounds r (st, age + 1, edges)

/-! ### Literals and terms (R217 to R223) -/

/-- A comparator with hysteresis; T and H are resolved to their top 12 bits (R217, R218). -/
def comparator (lit : Literal) (prev code : Nat) : Nat :=
  let t := lit.t / 16 * 16
  let h := lit.h / 16 * 16
  if 2 * t + h < 2 * code then 1 else if 2 * code + h < 2 * t then 0 else prev

/-- A comparator when a configuration is first applied (R218). -/
def comparatorStart (lit : Literal) (code : Nat) : Nat := if lit.t / 16 * 16 < code then 1 else 0

/-- A fault of unit `p`, of its cluster or of its region stands in a collector that runs (R218). -/
def State.unitFault (s : State) (p : Nat) : Bool :=
  (s.a.collects && s.a.unitFaulted p) || (s.b.collects && s.b.unitFaulted p)

/-- The comparators of a die take their first state under its image, from the signals of both planes (R218). -/
def FrontEnd.startComparators (f : FrontEnd) : FrontEnd :=
  match f.image with
  | none => f
  | some im =>
    let start := fun (codes : Tab Nat) =>
      (List.range 64).foldl (fun t i => tput 0 t i (comparatorStart (tget {} im.literals i) (tget 0 codes i))) []
    { f with compA := start f.codeA, compB := start f.codeB }

/-- A literal's value in one plane (R218). -/
def State.literal (s : State) (r i : Nat) (comp : Nat) : Bool :=
  let f := s.fe r
  match f.image with
  | none => false
  | some im =>
    let lit := tget {} im.literals i
    if !lit.en then false
    else if s.unitFault (64 * r + i) || f.openWire.contains i || f.short.contains i then lit.faultValue
    else if lit.pol then comp = 0 else comp = 1

/-- 64 truth values as a mask. -/
def maskOf (p : Nat → Bool) : BitVec 64 := BitVec.ofNat 64 (((List.range 64).map (fun i => if p i then 2 ^ i else 0)).sum)

/-- The 64 literals of region `r` in planes A and B. -/
def State.literalsA (s : State) (r : Nat) : BitVec 64 := maskOf (fun i => s.literal r i (tget 0 (s.fe r).compA i))
def State.literalsB (s : State) (r : Nat) : BitVec 64 := maskOf (fun i => s.literal r i (tget 0 (s.fe r).compB i))

/-- A local product: every literal of P is 1 and every literal of N is 0; false with no bit set (R219). -/
def productTrue (lits : BitVec 64) (pn : BitVec 64 × BitVec 64) : Bool :=
  (pn.1 ||| pn.2) ≠ 0 && (lits &&& pn.1) = pn.1 && (lits &&& pn.2) = 0

/-- Local term `j` of an image over one plane's literals: the OR of its products (R220). -/
def localTerm (im : HedImage) (lits : BitVec 64) (j : Nat) : Bool := (tget [] im.terms j).any (productTrue lits)

/-- Local term `j` of region `r` in either plane; during a switch, of the old or the new configuration (R223, Table 06-12). -/
def State.localTrue (s : State) (r j : Nat) : Bool :=
  let f := s.fe r
  let la := s.literalsA r
  let lb := s.literalsB r
  let of := fun (o : Option HedImage) => match o with
    | some im => localTerm im la j || localTerm im lb j
    | none => false
  of f.image || of f.old

/-- The literals of region `r` that a lane uses for cross-region terms, in planes A and B: its newest vector, or fault
values once R227's time-out has passed. -/
def Lane.literalsOf (x : Lane) (r : Nat) : BitVec 64 × BitVec 64 :=
  match x.blk.hed.vectors.lookup r with
  | some v => (v.2.1, v.2.2.1)
  | none =>
    let m := match x.blk.hed.image.lookup r with
      | some im => maskOf (fun i => (tget {} im.literals i).en && (tget {} im.literals i).faultValue)
      | none => 0
    (m, m)

/-- A cross product over one plane: the AND of its references; false with no reference (R221). -/
def crossProduct (lits : Nat → BitVec 64) (refs : List (Nat × Bool)) : Bool :=
  refs ≠ [] && refs.all (fun q => ((lits (q.1 / 64)).getLsbD (q.1 % 64)) != q.2)

/-- The 64 cross-region terms of region `r` as a lane computes them: true while either plane's copy is true, and during a
switch while the old or the new configuration's term is true (R221, R223, Table 06-12). -/
def Lane.crossTerms (x : Lane) (r : Nat) : BitVec 64 :=
  let la := fun (n : Nat) => (x.literalsOf n).1
  let lb := fun (n : Nat) => (x.literalsOf n).2
  let of := fun (o : Option HedImage) (j : Nat) => match o with
    | some im => (tget [] im.cross j).any (fun q => crossProduct la q || crossProduct lb q)
    | none => false
  maskOf (fun j => of (x.blk.hed.image.lookup r) j || of (x.blk.hed.old.lookup r) j)

/-- Whether cross-region term `j` holds at the front-end die of region `r`: as last applied, or held inhibiting at class G,
without heartbeats, or while the lanes disagree on it (R102, R492, R494). -/
def State.crossTrue (s : State) (r j : Nat) : Bool :=
  let f := s.fe r
  s.pkg.halted || f.noHeartbeat || f.cross.getLsbD j || f.disagreeCross.getLsbD j

/-- Unit `i` of region `r` is inhibited (R222). -/
def State.inhibited (s : State) (r i : Nat) : Bool :=
  let t : Target := match (s.fe r).image with | some im => tget {} im.targets i | none => {}
  (t.localEn && s.localTrue r i) || (t.crossEn && s.crossTrue r i)

/-! ### Safe values (R212, R213) -/

/-- A partition's state puts all its owned outputs at safe values (Table 04-10). -/
def Part.outputsSafe (p : Part) : Bool :=
  match p.state with
  | .noProgram => true
  | .waitTime => true
  | .safe => true
  | _ => false

/-- The owner's state puts output point `p` at its safe value; a point whose word no owner has committed since power-on stays there
(Table 04-10, R164, R239). -/
def Lane.ownerSafe (x : Lane) (p : Nat) : Bool :=
  (x.part (x.pointOwner p)).outputsSafe || !x.man.committed.contains (p / 8)

/-- A loop writes outputs to unit `p`: OUT_EN is set and OUT names it (Table 07-8). -/
def LoopSt.drivesPoint (o : LoopSt) (p : Nat) : Bool :=
  bitOf (o.recNow.getD 1 0) 31 && field (o.recNow.getD 1 0) 24 16 = p

/-- A loop whose OUT is unit `p` is at its safe value (R213). -/
def Lane.loopHolds (x : Lane) (p : Nat) : Bool := x.blk.loop.loops.any (fun e => e.2.safe && e.2.drivesPoint p)

/-- Unit `p` is at its safe value in a lane's view (R213). -/
def Lane.unitSafe (x : Lane) (p : Nat) : Bool :=
  x.unitFaulted p || x.loopHolds p || (isOutputType (x.unitType p) && x.ownerSafe p)

/-- Point `i` is forced to a word, or not, as of the cycle or loop output write of pick `n` (R191). -/
def Manager.setForced (m : Manager) (i : Nat) (n : Word) (w : Option Word) : Manager :=
  { m with forced := (match w with | some v => oset m.forced i v | none => odel m.forced i), forcedAt := oset m.forcedAt i n }

/-- Whether a later pick's loop output write has settled the force of point `i` (R191). -/
def Manager.forcedLater (m : Manager) (i : Nat) (n : Word) : Bool :=
  match m.forcedAt.lookup i with | some k => serialBefore n k | none => false

/-- The rank 4 or 5 word of output point `p` in a lane (Table 06-6): an output force in effect (R192), else the word of the
loop that writes it (R260), else the output image. -/
def Lane.outWord (x : Lane) (p : Nat) : Word :=
  match x.man.forced.lookup p with
  | some w => w
  | none =>
    match x.blk.loop.loops.findSome? (fun e => if e.2.mode ≠ 0 && e.2.drivesPoint p then e.2.outWord else none) with
    | some w => w
    | none => tget 0 x.man.outImage p

/-- An output word as its stage drives it: AO and PWM words are held to their range, a DO takes bit 0 (R200). -/
def driveWord (t : Nat) (w : Word) : Word :=
  let v := w.toInt
  match t with
  | 9 => w32 (clampInt 0 10000000 v).toNat
  | 10 => w32 (clampInt 0 20000000 v).toNat
  | 11 => w &&& 1#32
  | 12 => w32 (clampInt 0 100000 v).toNat
  | _ => 0

/-- The lane whose configuration the front-end dies use: the active lane. -/
def State.cfgLane (s : State) : Lane := s.lane s.activeLane

/-- The stage's inhibit state, 0 or the energised word of its type (R222). -/
def State.inhibitWord (s : State) (p : Nat) : Word :=
  match (s.fe (p / 64)).image with
  | some im => if (tget {} im.targets (p % 64)).inhState then (if s.cfgLane.unitType p = 12 then 100000#32 else 1#32) else 0
  | none => 0

/-- What the output stage of point `p` drives, in the order of Table 06-6: 0 is the de-energised state of every type. -/
def State.drives (s : State) (p : Nat) : Word :=
  let r := p / 64
  let i := p % 64
  let f := s.fe r
  let x := s.cfgLane
  let t := x.unitType p
  let mode := cfgSafeMode (x.unitCfg p)
  if s.pkg.inReset || !f.running || !isOutputType t || decide (0 < tget 0 x.blk.pnt.retyped p) then 0
  else if f.stageFault.contains i || f.overcurrent.contains i then 0
  else if s.inhibited r i then s.inhibitWord p
  else if s.pkg.halted || f.noHeartbeat || f.safeUnits.contains i then
    (if mode = 1 then driveWord t (tget 0 f.driven i)
     else if mode = 2 then driveWord t (x.unitSafeWord p) else 0)
  else driveWord t (tget 0 f.driven i)

/-- Output point `p` is driven by a source of rank 1 to 4 of Table 06-6 in a lane's view (R262). -/
def State.overridden (s : State) (l : LaneId) (p : Nat) : Bool :=
  let f := s.fe (p / 64)
  f.stageFault.contains (p % 64) || f.overcurrent.contains (p % 64) || s.inhibited (p / 64) (p % 64) ||
  s.pkg.halted || f.noHeartbeat || (s.lane l).unitSafe p || ((s.lane l).man.forced.lookup p).isSome

/-- The word that output point `p` drives now in a lane's view: known from the source that drives it (R262, R272). -/
def State.drivenNow (s : State) (l : LaneId) (p : Nat) : Word :=
  let f := s.fe (p / 64)
  let x := s.lane l
  let t := x.unitType p
  let mode := cfgSafeMode (x.unitCfg p)
  if f.stageFault.contains (p % 64) || f.overcurrent.contains (p % 64) then 0
  else if s.inhibited (p / 64) (p % 64) then s.inhibitWord p
  else if s.pkg.halted || f.noHeartbeat || x.unitSafe p then
    (if mode = 1 then driveWord t (tget 0 f.driven (p % 64)) else if mode = 2 then driveWord t (x.unitSafeWord p) else 0)
  else driveWord t (x.outWord p)

/-! ### Status and frames -/

/-- PNT_UNIT_STAT of a unit as its front-end die reports it (Table 06-14). -/
def State.unitStat (s : State) (p : Nat) : Word :=
  let r := p / 64
  let i := p % 64
  let f := s.fe r
  let lit := s.literal r i (tget 0 f.compA i) || s.literal r i (tget 0 f.compB i)
  let isSafe := s.unitFault p || s.pkg.halted || f.noHeartbeat || f.safeUnits.contains i
  w32 (b2n isSafe + 2 * b2n (s.inhibited r i) + 4 * b2n (f.openWire.contains i) + 8 * b2n (f.short.contains i) +
    16 * b2n (f.overRange.contains i) + 32 * b2n (f.underRange.contains i) + 64 * b2n (f.overcurrent.contains i) +
    128 * b2n (f.testFail.contains i) + 256 * b2n lit)

/-- Put or remove a unit in a list of units. -/
def setIn (l : List Nat) (i : Nat) (b : Bool) : List Nat := if b then insSorted i l else l.filter (· ≠ i)

/-- A front-end die takes one unit's conversions of a frame: the word it forms and its state after (R204, R199, R589). -/
def FrontEnd.takeSample (f : FrontEnd) (t filter : Nat) (u : UnitSample) : FrontEnd × Word :=
  let i := u.unit
  if t = 0 then
    ({ f with openWire := setIn f.openWire i false, short := setIn f.short i false,
              overRange := setIn f.overRange i false, underRange := setIn f.underRange i false }, 0)
  else if isAiType t then
    let v := aiWord t u
    let rg := aiRange t
    ({ f with openWire := setIn f.openWire i (u.openWire || (decide (t = 4) && decide (v < 500000))),
              short := setIn f.short i u.short,
              overRange := setIn f.overRange i (decide (rg.2 < v)),
              underRange := setIn f.underRange i (decide (v < rg.1)) }, BitVec.ofInt 32 v)
  else if t = 7 || t = 8 then
    let d := debounce (debounceRounds filter) u.conv (tget 0 f.level i, (tget (0, 0) f.pendLevel i).2, 0)
    let g := { f with level := tput 0 f.level i d.1, pendLevel := tput (0, 0) f.pendLevel i (0, d.2.1),
                      count := if t = 8 then tput 0 f.count i (tget 0 f.count i + w32 d.2.2) else f.count,
                      openWire := setIn f.openWire i u.openWire, short := setIn f.short i u.short }
    (g, if t = 7 then w32 d.1 else tget 0 g.count i)
  else if t = 11 then (f, if u.conv.getLastD 0 = 0 then 0 else 1)
  else (f, BitVec.ofInt 32 (meanOf u.conv))

/-- The word a unit carries in a frame: 0 while its terminals stay high-impedance after a change of type (R202), else as
formed. -/
def Lane.heldAtZero (x : Lane) (p : Nat) : Bool := decide (0 < tget 0 x.blk.pnt.retyped p)

/-- LIVE unit changes take effect at the region's next frame (R237, R445); a change of TYPE clears the unit's counter and
holds it at high impedance for two frames (R201, R202). -/
def PntBlk.applyPending (b : PntBlk) (r : Nat) : PntBlk :=
  let due := b.pendingUnits.filter (fun u => decide (u.1 / 64 = r))
  let b1 := { b with
    retyped := (b.retyped.map (fun e => if e.1 / 64 = r then (e.1, e.2 - 1) else e)).filter (fun e => e.2 ≠ 0)
    scanDiv := match b.pendingScan.lookup r with | some n => tput 25 b.scanDiv r n | none => b.scanDiv
    pendingScan := odel b.pendingScan r
    pendingUnits := b.pendingUnits.filter (fun u => decide (u.1 / 64 ≠ r)) }
  due.foldl (fun (c : PntBlk) u =>
    { c with
      cfg := tput 0 c.cfg u.1 u.2.1, param := tput 0 c.param u.1 u.2.2.1, safe := tput 0 c.safe u.1 u.2.2.2
      retyped := if cfgType u.2.1 = cfgType (tget 0 c.cfg u.1) then c.retyped else tput 0 c.retyped u.1 2 }) b1

/-- Points of region `r` whose TYPE the pending changes alter, with the old and new types. -/
def PntBlk.retypes (b : PntBlk) (r : Nat) : List (Nat × Nat × Nat) :=
  (b.pendingUnits.filter (fun u => decide (u.1 / 64 = r) && cfgType u.2.1 ≠ cfgType (tget 0 b.cfg u.1))).map
    (fun u => (u.1, cfgType (tget 0 b.cfg u.1), cfgType u.2.1))

/-! ### Agreed frames and point-change events (R96, R206) -/

/-- The newest agreed frame of region `r`. -/
def Lane.newestFrame (x : Lane) (r : Nat) : SFrame := ((tget [] x.blk.pnt.frames r).head?).getD ⟨0, [], 0⟩

/-- The deadband of an AI unit, or the event step of a CNT unit, in word units; 0 disables the event (Table 06-14, R206). -/
def eventStep (t : Nat) (param : Word) : Nat :=
  if t ≤ 4 || t = 8 then param.toNat else if t = 5 || t = 6 then field param 31 16 * 10 else 0

/-- Whether unit `p` enters a point-change event with a frame (R206). -/
def Lane.pointChanged (x : Lane) (p : Nat) (old new : UnitView) : Bool :=
  let t := x.unitType p
  let step := eventStep t (x.unitParam p)
  let last := tget 0 x.man.lastEvent p
  old.stat ≠ new.stat ||
  (t = 7 && old.word ≠ new.word) ||
  (t = 8 && step ≠ 0 && old.word.toNat / step ≠ new.word.toNat / step) ||
  (isAiType t && step ≠ 0 && decide (step < (new.word.toInt - last.toInt).natAbs))

/-- The word that programs see of point `p` in a frame (R199, Table 06-5); `good` is its word before it went to its safe value. -/
def Lane.inputWord (x : Lane) (p : Nat) (v : UnitView) (good : Word) : Word :=
  if isOutputType (x.unitType p) || !bitOf v.stat 0 then v.word
  else
    let mode := cfgSafeMode (x.unitCfg p)
    if mode = 1 then good else if mode = 2 then x.unitSafeWord p else 0

/-- A unit of a frame as the lane that agrees it keeps it, after the frame before. -/
def Lane.viewUnit (x : Lane) (p : Nat) (v prev : UnitView) : UnitView :=
  let good := if bitOf v.stat 0 then prev.good else v.word
  { v with seen := x.inputWord p v good, good := good }

/-- One lane takes an agreed frame of region `r`: it becomes the newest, and its changed units enter events in ascending
unit order. -/
def Lane.takeFrame (x : Lane) (l : LaneId) (r : Nat) (f : SFrame) : Lane :=
  let prev := x.newestFrame r
  let kept : SFrame := { f with units := (List.range 64).foldl (fun t i =>
    tput {} t i (x.viewUnit (64 * r + i) (tget {} f.units i) (tget {} prev.units i))) [] }
  let y := x.onPnt (fun b => { b with frames := tput [] b.frames r ((kept :: tget [] b.frames r).take 8) })
  (List.range 64).foldl (fun (z : Lane) i =>
    let p := 64 * r + i
    let v := tget {} f.units i
    if x.pointChanged p (tget {} prev.units i) v then
      (z.onMan (fun m => { m with lastEvent := tput 0 m.lastEvent p v.word })).enter l 1 r (x.pointOwner p)
        (.point p f.number v.word v.stat)
    else z) y

/-! ### Output updates (R99 to R103) -/

/-- The update of region `r` leaves for its front-end die: every output word, the units at safe values and the cross-region terms
last sent (R99, R227). A lane whose gates are closed sends nothing (R107). -/
def Lane.putUpdate (x : Lane) (r now : Nat) : Lane :=
  if x.blk.lane.gatesClosed then x
  else
    let us := (List.range 64).filter (fun i => isOutputType (x.unitType (64 * r + i)))
    let words := us.foldl (fun t i => tput 0 t i (x.outWord (64 * r + i))) []
    { x with updates := x.updates ++
      [⟨r, tget 0 x.man.updateNo r, tget 0 x.repeats r, words, us.filter (fun i => x.unitSafe (64 * r + i)),
        tget 0 x.blk.hed.sent r, now⟩] }

/-- A commit or loop output write sends an update of region `r` under the next update number, which both lanes assign identically
because both make the same commits and writes (R99, R100). -/
def Lane.sendUpdate (x : Lane) (r now : Nat) : Lane :=
  ({ x with man := { x.man with updateNo := tput 0 x.man.updateNo r (tget 0 x.man.updateNo r + 1) },
            lastUpdate := tput 0 x.lastUpdate r now, repeats := tput 0 x.repeats r 0 } : Lane).putUpdate r now

/-- The lane's timer repeats the update of region `r` under its number (R99; that a repetition takes no new number is DESIGN CHOICE,
log entry 125, so that the lanes' numbers stay identical). -/
def Lane.repeatUpdate (x : Lane) (r now : Nat) : Lane :=
  ({ x with lastUpdate := tput 0 x.lastUpdate r now, repeats := tput 0 x.repeats r (tget 0 x.repeats r + 1) } : Lane).putUpdate
    r now

/-- Outputs on which two updates differ: word, or safe-value state (R100). -/
def updateDiffs (u v : Update) : List Nat :=
  (List.range 64).filter (fun i => tget 0 u.words i ≠ tget 0 v.words i || u.safe.contains i ≠ v.safe.contains i)

/-- The front-end die drives a lane's update: words of units not at safe values, and the units at safe values (R99). A unit
on which the lanes disagree keeps what they last agreed on (R102). -/
def FrontEnd.driveUpdate (f : FrontEnd) (u : Update) : FrontEnd :=
  let safe := (List.range 64).filter (fun i => if f.disagree.contains i then f.agreedSafe.contains i else u.safe.contains i)
  { f with
    driven := (List.range 64).foldl (fun t i =>
      if safe.contains i then t
      else tput 0 t i (if f.disagree.contains i then tget 0 f.agreed i else tget 0 u.words i)) f.driven
    safeUnits := safe }

/-- What a pair of updates, or of inhibit messages, differs in is taken in (R101 to R103): `ds` and `c` are the outputs and terms that
differ. Those that differed in the pair before too are held. -/
def FrontEnd.differ (f : FrontEnd) (ds : List Nat) (c : BitVec 64) (now : Nat) : FrontEnd :=
  let held := ds.filter f.lastDiff.contains
  let hc := c &&& f.lastCross
  { f with
    lastDiff := ds, lastCross := c, disagree := held, disagreeCross := hc
    disagreeBeat := if held = [] && hc = 0 then f.disagreeBeat else some (f.disagreeBeat.getD now)
    agreeRun := if ds = [] && c = 0 then f.agreeRun + 1 else 0 }

/-- A pair of inhibit messages differs in terms `c` (R228): as `differ`, for the terms alone; a pair that agrees is no update. -/
def FrontEnd.differTerms (f : FrontEnd) (c : BitVec 64) (now : Nat) : FrontEnd :=
  let hc := c &&& f.lastCross
  { f with
    lastCross := c, disagreeCross := hc
    disagreeBeat := if hc = 0 then f.disagreeBeat else some (f.disagreeBeat.getD now)
    agreeRun := if c = 0 then f.agreeRun else 0 }

/-- The front-end die compares a pair of updates output by output (R100 to R103). -/
def FrontEnd.compare (f : FrontEnd) (ua ub : Update) (now : Nat) : FrontEnd :=
  let ds := updateDiffs ua ub
  let same := (List.range 64).filter (fun i => !ds.contains i)
  ({ f with
    agreed := same.foldl (fun t i => tput 0 t i (tget 0 ua.words i)) f.agreed
    agreedSafe := same.foldl (fun t i => setIn t i (ua.safe.contains i)) f.agreedSafe }).differ ds (ua.cross ^^^ ub.cross) now

/-- The front-end comparison of a region shows a disagreement (R104). -/
def FrontEnd.shows (f : FrontEnd) : Bool := f.disagreeBeat.isSome || f.lastDiff ≠ [] || f.lastCross ≠ 0

/-- Both lanes count an output disagreement, once for each pair that differs, however many outputs differ in it (the spec does not
say whether outputs count singly: DESIGN CHOICE, log entry 123), and the hold-off restarts (R101, R116). -/
def State.countDisagree (s : State) : State :=
  let f := fun (x : Lane) => (x.onLaneBlk (fun b => { b with outDisagree := b.outDisagree + 1 })).restartHoldoff
  { s with a := f s.a, b := f s.b }

/-- A bit's cause is present again in the lanes that still hold the bit. -/
def State.renewCause (s : State) (b : Nat) : State :=
  let f := fun (x : Lane) => if x.hasBit b then x.onFlt (fun k => { k with cause := insSorted b k.cause }) else x
  { s with a := f s.a, b := f s.b }

/-- After a comparison in region `r`: a disagreement is counted in both lanes and renews the cause of the region's bit, which is gone
once 16 consecutive pairs have agreed (R101, R103). -/
def State.afterCompare (s : State) (r : Nat) : State :=
  let f := s.fe r
  if f.lastDiff ≠ [] || f.lastCross ≠ 0 then s.countDisagree.renewCause (bitRegion r 6)
  else if 16 ≤ f.agreeRun then s.endCauseBoth (bitRegion r 6)
  else s

/-- The newest update of a lane at a front-end die. -/
def FrontEnd.updateOf (f : FrontEnd) : LaneId → Option Update
  | .a => f.updA
  | .b => f.updB

/-- Updates of a lane that wait for the other lane's. -/
def FrontEnd.waitOf (f : FrontEnd) : LaneId → List Update
  | .a => f.waitA
  | .b => f.waitB

/-- The cross-region terms of a lane's last update or inhibit message. -/
def FrontEnd.crossOf (f : FrontEnd) : LaneId → BitVec 64
  | .a => f.crossA
  | .b => f.crossB

/-- A lane's update has arrived: its newest, with its terms. -/
def FrontEnd.putUpdate (f : FrontEnd) (l : LaneId) (u : Update) : FrontEnd :=
  match l with
  | .a => { f with updA := some u, crossA := u.cross }
  | .b => { f with updB := some u, crossB := u.cross }

/-- Set the updates of a lane that wait for their pair. -/
def FrontEnd.setWait (f : FrontEnd) (l : LaneId) (q : List Update) : FrontEnd :=
  match l with
  | .a => { f with waitA := q }
  | .b => { f with waitB := q }

/-- Update `u` was sent after update `v` (R100). -/
def Update.after (u v : Update) : Bool := v.number < u.number || (u.number = v.number && v.again < u.again)

/-- An update meets the other lane's of its number: the pair is compared, and what either lane sent before it waits no longer;
without one it waits (R100). -/
def FrontEnd.pairUpdate (f : FrontEnd) (l : LaneId) (u : Update) (now : Nat) : FrontEnd × Bool :=
  match (f.waitOf l.other).find? (fun v => v.number = u.number && v.again = u.again) with
  | none => (f.setWait l (f.waitOf l ++ [u]), false)
  | some v =>
    let g := (f.setWait l ((f.waitOf l).filter (fun w => w.after u))).setWait l.other ((f.waitOf l.other).filter (fun w => w.after u))
    ((match l with | .a => g.compare u v now | .b => g.compare v u now), true)

/-- The front-end die of a region receives a lane's update, compares it with the other lane's of its number, and drives the active
lane's (R99 to R103). -/
def State.receiveUpdate (s : State) (l : LaneId) (u : Update) (now : Nat) : State :=
  let r := u.region
  let s1 := s.onFe r (fun f => f.putUpdate l u)
  let s2 :=
    if s.a.inService && s.b.inService then
      let q := (s1.fe r).pairUpdate l u now
      let s3 := s1.onFe r (fun _ => q.1)
      if q.2 then s3.afterCompare r else s3
    else s1.onFe r (fun f => { f with waitA := [], waitB := [] })
  match s.active with
  | some k =>
    s2.onFe r (fun f => match f.updateOf k with
      | some v => { f.driveUpdate v with cross := if k = l then u.cross else f.cross }
      | none => f)
  | none => s2

/-- Every front-end die selects the values of the lane that is active now (step 4 of Table 03-4); the disagreement windows
are settled by the departure (Table 03-5). -/
def State.selectLane (s : State) (l : LaneId) : State :=
  s.onPkg (fun p => { p with rfe := (List.range 8).foldl (fun t r =>
    let f := tget {} t r
    let g : FrontEnd := { f with lastDiff := [], lastCross := 0, disagree := [], disagreeCross := 0, disagreeBeat := none,
                                 waitA := [], waitB := [], cross := f.crossOf l }
    tput {} t r (match f.updateOf l with | some u => g.driveUpdate u | none => g)) p.rfe })

/-- Lane `l` sends an update for every region (R99). -/
def Lane.sendAllUpdates (x : Lane) (now : Nat) : Lane := (List.range 8).foldl (fun y r => y.sendUpdate r now) x

/-! ### Events of the front-end dies -/

/-- REGION_FRAME: the frame of a region closes (R204). Its front-end die forms one value per unit, keeps its last four
frames and sends the frame to both lanes; LIVE unit changes take effect with it (R237). -/
def State.regionFrame (s : State) (r : Nat) (samples : List UnitSample) : State :=
  if r < 8 && (s.fe r).running then
    let retypes := s.cfgLane.blk.pnt.retypes r
    let upd := fun (x : Lane) => if x.collects then
        let y := x.onPnt (fun b => b.applyPending r)
        (x.blk.pnt.retypes r).foldl (fun (z : Lane) q =>
          z.detail 0x0005 (x.pointOwner q.1) (beBytes 2 q.1 ++ beBytes 1 q.2.1 ++ beBytes 1 q.2.2 ++ zeros 12)) y
      else x
    let s0 : State := { s with a := upd s.a, b := upd s.b }
    let s1 := if retypes = [] then s0 else s0.flagBoth 2092 false
    let x := s1.cfgLane
    let f0 := retypes.foldl (fun (f : FrontEnd) q =>
      { f with count := tput 0 f.count (q.1 % 64) 0, level := tput 0 f.level (q.1 % 64) 0,
               pendLevel := tput (0, 0) f.pendLevel (q.1 % 64) (0, 0) }) (s1.fe r)
    let step := fun (a : FrontEnd × Tab UnitView) (u : UnitSample) =>
      let t := x.unitType (64 * r + u.unit)
      let q := a.1.takeSample t (cfgFilter (x.unitCfg (64 * r + u.unit))) u
      (q.1, tput {} a.2 u.unit { word := if x.heldAtZero (64 * r + u.unit) then 0 else q.2 })
    let q := (samples.filter (fun u => decide (u.unit < 64))).foldl step (f0, [])
    let s2 := s1.onFe r (fun _ => q.1)
    let views := (List.range 64).foldl (fun (t : Tab UnitView) i =>
      tput {} t i { word := (tget {} q.2 i).word, stat := s2.unitStat (64 * r + i) }) []
    let number := (q.1.frameNo + 1) % 65536
    let frame : SFrame := ⟨number, views, Config.frameCrc (number, views)⟩
    let s3 := s2.onFe r (fun f => { f with frameNo := frame.number, frames := (frame :: f.frames).take 4 })
    let give := fun (y : Lane) => if y.inService then { y with frameIn := y.frameIn ++ [(r, frame, true)] } else y
    let s4 := { s3 with a := give s3.a, b := give s3.b }
    -- process conditions of input units (Table 06-4)
    (samples.filter (fun u => decide (u.unit < 64) && !isOutputType (x.unitType (64 * r + u.unit)))).foldl
      (fun (z : State) u =>
        let g := z.fe r
        let bad := g.openWire.contains u.unit || g.short.contains u.unit || g.overRange.contains u.unit ||
          g.underRange.contains u.unit
        if bad then z.flagBoth (bitProcess (64 * r + u.unit)) true
        else z.endCauseBoth (bitProcess (64 * r + u.unit))) s4
  else s

/-- SAMPLE_FRAME: a lane receives its copy of a frame and sends its number and CRC to its partner (steps 1 and 2 of Table
03-3); with one lane in service a good copy is agreed at once. -/
def State.sampleFrame (s : State) (l : LaneId) (r : Nat) (linkOk : Bool) : State :=
  match (s.lane l).frameIn.find? (fun e => e.1 = r) with
  | none => s
  | some e =>
    let s1 := s.onLane l (fun x => { x with frameIn := x.frameIn.erase e })
    if !(s.lane l).inService then s1
    else
      let s2 := s1.onLane l (fun x => { x with ownFrame := oset x.ownFrame r (e.2.1, linkOk) })
      if (s.lane l.other).inService then s2.send l (.frame r e.2.1 linkOk)
      else if linkOk then (s2.onLane l (fun x => { x with ownFrame := odel x.ownFrame r })).onLane l
        (fun x => x.takeFrame l r e.2.1)
      else s2

/-- Three of the beats recorded lie within any 8 ms (R95). -/
def threeWithin8ms (now : Nat) (bs : List Nat) : List Nat × Bool :=
  let r := now :: bs.filter (fun t => decide (now < t + 800000))
  (r, decide (3 ≤ r.length))

/-- A lane records a link error against its own link; three within 8 ms are class L (R95), and the hold-off restarts (R116). -/
def State.linkError (s : State) (l : LaneId) : State :=
  let q := threeWithin8ms s.pkg.beat (s.lane l).blk.lane.linkErrBeats
  let s1 := (s.onLane l (fun x => (x.onLaneBlk (fun b => { b with linkErrBeats := q.1 })).restartHoldoff)).onLane l.other
    Lane.restartHoldoff
  if q.2 then s1.raise l 165 true else s1

/-- A lane settles a frame on the active lane's copy; three within 8 ms are class L for the standby lane (R95). -/
def State.unresolved (s : State) (l : LaneId) : State :=
  let q := threeWithin8ms s.pkg.beat (s.lane l).blk.lane.unresolvedBeats
  let s1 := s.onLane l (fun x => x.onLaneBlk (fun b =>
    { b with unresolvedBeats := q.1, imgUnresolved := b.imgUnresolved + 1 }))
  if q.2 && decide (s.active ≠ some l) then s1.raise l 166 true else s1

/-- The first frame message of a region in a lane's inbox. -/
def frameMsg (r : Nat) (m : Msg) : Bool := match m with | .frame q _ _ => q = r | _ => false

/-- The copy that a lane received first is the frame that the front-end die keeps (step 4 of Table 03-3): its link CRC was good, and
it has the kept frame's number and CRC. -/
def firstCopyGood (own : SFrame × Bool) (kept : SFrame) : Bool :=
  own.2 && own.1.number = kept.number && own.1.crc = kept.crc

/-- FRAME_CHECK: a lane that holds its copy and its partner's message agrees the frame (steps 2 to 5 of Table 03-3): the lanes
compare number and CRC. `resentOk`: the two resent copies are equal and valid. With one lane in service Table 03-3 names no partner: a
copy with a bad link CRC is then resent, the die's kept copy is taken whatever `resentOk` says, and no link error is recorded (DESIGN
CHOICE, log entry 123). When the resent copies differ, the lane whose first copy is not the die's frame records the link error
(DEDUCED, log entry 123). -/
def State.frameCheck (s : State) (l : LaneId) (r : Nat) (resentOk : Bool) : State :=
  let x := s.lane l
  let y := s.lane l.other
  match x.ownFrame.lookup r with
  | none => s
  | some own =>
    let take := fun (t : State) (f : SFrame) =>
      (t.onLane l (fun x => { x with ownFrame := odel x.ownFrame r })).onLane l (fun x => x.takeFrame l r f)
    let kept := ((s.fe r).frames.find? (fun f => f.number = own.1.number)).getD own.1
    if !y.inService then
      let s1 := s.onLane l (fun x => { x with inbox := x.inbox.filter (fun m => !frameMsg r m) })
      let s2 := if own.2 then s1
        else s1.onLane l (fun x => x.onLaneBlk (fun b => { b with imgMismatch := b.imgMismatch + 1 }))
      take s2 (if own.2 then own.1 else kept)
    else
      match x.inbox.find? (frameMsg r) with
      | some (.frame q f ok) =>
        let s1 := s.onLane l (fun x => { x with inbox := x.inbox.erase (.frame q f ok) })
        if own.2 && ok && decide (own.1.number = f.number) && decide (own.1.crc = f.crc) then take s1 own.1
        else
          let s2 := s1.onLane l (fun x => x.onLaneBlk (fun b => { b with imgMismatch := b.imgMismatch + 1 }))
          if resentOk then
            let s3 := take s2 kept
            if firstCopyGood own kept then s3 else s3.linkError l
          else
            let s3 := (take s2 (if s.active = some l then own.1 else f)).unresolved l
            if firstCopyGood own kept then s3 else s3.linkError l
      | _ => s

/-- OUTPUT_UPDATE: the front-end die of a region receives the next update of a lane. -/
def State.outputUpdate (s : State) (l : LaneId) (r now : Nat) : State :=
  match (s.lane l).updates.find? (fun u => u.region = r) with
  | none => s
  | some u => (s.onLane l (fun x => { x with updates := x.updates.erase u })).receiveUpdate l u now

/-- REGION_UPDATE_TIMER: a lane in service that has sent no update for a region for 500 µs sends one (R99). -/
def State.regionUpdateTimer (s : State) (l : LaneId) (r now : Nat) : State :=
  if r < 8 && (s.lane l).inService && tget 0 (s.lane l).lastUpdate r + 50000 ≤ now then
    s.onLane l (fun x => x.repeatUpdate r now)
  else s

/-- UPDATE_TIMEOUT: a lane whose next update has not arrived within 1,000 µs of its previous one counts as disagreeing on
every output of the region (R100). -/
def State.updateTimeout (s : State) (l : LaneId) (r now : Nat) : State :=
  match (s.fe r).updateOf l with
  | some u =>
    if u.beat + 100000 ≤ now && s.a.inService && s.b.inService then
      let s1 := (s.onFe r (fun f => f.differ (List.range 64) (BitVec.allOnes 64) now)).afterCompare r
      match s.active with
      | some k => s1.onFe r (fun f => match f.updateOf k with | some v => f.driveUpdate v | none => f)
      | none => s1
    else s
  | none => s

/-- DISAGREEMENT_WINDOW: neither fault line was set within 1 ms of the second disagreeing update, so the region goes to its
safe values, class S (R103). -/
def State.disagreementWindow (s : State) (r now : Nat) : State :=
  match (s.fe r).disagreeBeat with
  | some t =>
    if t + msBeats ≤ now && !s.a.faultLine && !s.b.faultLine && s.a.inService && s.b.inService then
      (s.onFe r (fun f => { f with disagreeBeat := none })).raiseBoth (bitRegion r 6) (decide ((s.fe r).agreeRun < 16))
    else s
  | none => s

/-- One cluster's test slot (R207, R210, R211). -/
def State.testOne (s : State) (r ms now : Nat) (t : SlotResult) : State :=
  let i := 8 * t.cluster + ms % 8
  let p := 64 * r + i
  let ty := s.cfgLane.unitType p
  if ty = 0 then s
  else
    let ok := t.injectOk && t.stageOk
    let cnt := fun (x : Lane) => if x.inService then x.onPnt (fun b =>
      { b with testRuns := b.testRuns + 1, testFails := if ok then b.testFails else b.testFails + 1 }) else x
    let s1 : State := { s with a := cnt s.a, b := cnt s.b }
    let c := 8 * r + t.cluster
    let f := s.fe r
    let out := isOutputType ty
    let others := (List.range 8).any (fun k =>
      let j := 8 * t.cluster + k
      decide (j ≠ i) && f.testFail.contains j && decide (now < tget 0 f.failBeat j + 800000))
    let clean := if ok then tget 0 f.cleanSlots t.cluster + 1 else 0
    let s2 := s1.onFe r (fun g =>
      { g with
        testFail := setIn g.testFail i (!ok)
        stageFault := setIn g.stageFault i (out && !t.stageOk)
        failBeat := if ok then g.failBeat else tput 0 g.failBeat i now
        cleanSlots := tput 0 g.cleanSlots t.cluster (min clean 8)
        openWire := if out then setIn g.openWire i t.openLoad else g.openWire
        short := if out then setIn g.short i t.short else g.short })
    let s3 := if ok then (if f.overcurrent.contains i then s2 else s2.endCauseBoth (bitUnit p))
      else s2.raiseBoth (bitUnit p) true
    let s4 := if !ok && others then s3.raiseBoth (bitCluster c) true
      else if 8 ≤ clean then s3.endCauseBoth (bitCluster c) else s3
    if out then
      (if t.openLoad || t.short then s4.flagBoth (bitProcess p) true else s4.endCauseBoth (bitProcess p))
    else s4

/-- TEST_SLOT: one unit per cluster of a region runs its test slot (R207). -/
def State.testSlot (s : State) (r ms now : Nat) (results : List SlotResult) : State :=
  if r < 8 && (s.fe r).running then
    (results.filter (fun t => decide (t.cluster < 8))).foldl (fun z t => z.testOne r ms now t) s
  else s

/-- OVERCURRENT: an output current above its limit turns the stage off, class S for the unit (R210). -/
def State.overcurrent (s : State) (p now : Nat) : State :=
  if p < 512 && (s.fe (p / 64)).running && isOutputType (s.cfgLane.unitType p) then
    (s.onFe (p / 64) (fun f => { f with overcurrent := insSorted (p % 64) f.overcurrent,
                                        overBeat := tput 0 f.overBeat (p % 64) now })).raiseBoth (bitUnit p) true
  else s

/-- READBACK_FAULT: a DO or AO readback differs from its command, class S for the unit; the stage is off (R210, Table
06-6). -/
def State.readbackFault (s : State) (p : Nat) : State :=
  if p < 512 && (s.fe (p / 64)).running && isOutputType (s.cfgLane.unitType p) then
    (s.onFe (p / 64) (fun f => { f with testFail := insSorted (p % 64) f.testFail,
                                        stageFault := insSorted (p % 64) f.stageFault })).raiseBoth (bitUnit p) true
  else s

/-- FIELD_SUPPLY_FAULT (R216): below 16.0 V, above 32.0 V, above 8.0 A or above 9.6 A. -/
def State.fieldFault (s : State) (r : Nat) (k : FieldSupply) : State :=
  if r < 8 && (s.fe r).running then
    let b := match k with | .low => 1 | .high => 2 | .load96 => 3 | .load8 => 7
    (s.onFe r (fun f => { f with fs := some k })).raiseBoth (bitRegion r b) true
  else s

/-- FIELD_SUPPLY_RESTORED (Table 14-3): the causes of the supply bits are gone. -/
def State.fieldRestored (s : State) (r : Nat) : State :=
  if r < 8 then
    [1, 2, 3, 7].foldl (fun (z : State) k => z.endCauseBoth (bitRegion r k)) (s.onFe r (fun f => { f with fs := none }))
  else s

/-- FRONT_END_RESTART (Table 14-3): the cause of the region's internal fault is gone. -/
def State.frontEndRestart (s : State) (r : Nat) : State :=
  if r < 8 && (s.fe r).internalFault then
    (s.onFe r (fun f => { f with internalFault := false })).endCauseBoth (bitRegion r 0)
  else s

/-- FRONT_END_HEARTBEAT_LOSS (R494): no heartbeat of either lane for 20 µs. -/
def State.noHeartbeats (s : State) (r now : Nat) : State :=
  let silent := fun (x : Lane) => !x.blk.lane.heartbeat || x.blk.lane.hbBeat + 2000 ≤ now
  if r < 8 && (s.fe r).running && silent s.a && silent s.b then s.onFe r (fun f => { f with noHeartbeat := true }) else s

end Sys2Proof.Machine
end

