-- ==== Sys2Proof/Machine/LoopMath.lean ====
section
/-! DEFINITION. The loop engine's numbers and one loop's sample (R250 to R274). -/

namespace Sys2Proof.Machine

/-! ### Numbers (R250) -/

/-- Mantissa and exponent of a coefficient word. -/
def coefM (c : Word) : Int := signed 16 (field c 15 0)
def coefE (c : Word) : Nat := field c 19 16

/-- Saturate to the 40-bit accumulator. -/
def accSat (a : Int) : Int := clampInt (-(2 ^ 39)) (2 ^ 39 - 1) a

/-- A coefficient times a value, as an accumulator adds it. -/
def prod (c : Word) (v : Int) : Int :=
  let mv := coefM c * v
  if 7 ≤ coefE c then mv * 2 ^ (coefE c - 7) else (mv + 2 ^ (6 - coefE c)) / 2 ^ (7 - coefE c)

/-- A value at accumulator scale. -/
def atAcc (v : Int) : Int := v * 65536

/-- Saturate to a 16-bit value. -/
def valueSat (v : Int) : Int := clampInt (-32768) 32767 v

/-- Store an accumulator as a value. -/
def store (a : Int) : Int := valueSat ((a + 32768) / 65536)

/-- A sum of accumulator terms, saturating at each addition. -/
def accSum (l : List Int) : Int := l.foldl (fun a b => accSat (a + b)) 0

/-- The values in the low and high half of a bank word. -/
def valueLo (w : Word) : Int := signed 16 (field w 15 0)
def valueHi (w : Word) : Int := signed 16 (field w 31 16)

/-- A point word of a unit type as a number: a count is a number modulo 2^32 (Table 06-4), every other word is signed. -/
def pointVal (t : Nat) (w : Word) : Int := if t = 8 then (w.toNat : Int) else w.toInt

/-- Scale a point word to a value between LO and HI (R251). -/
def scaleIn (w lo hi : Int) : Int :=
  if hi = lo then valueSat (Config.scaleDegenerate w lo)
  else
    let d := 2 * (hi - lo)
    let n := 2 * 32767 * (w - lo) + (hi - lo)
    -- floor of n / d for either sign of d
    valueSat (if 0 < d then n / d else (-n) / (-d))

/-- The point word of a value (R261). -/
def scaleOut (u lo hi : Int) : Word :=
  BitVec.ofInt 32 (lo + (2 * (hi - lo) * u + 32767) / (2 * 32767))

/-! ### Records and banks -/

/-- Word `i` of a loop's record in force. -/
def LoopSt.rw (o : LoopSt) (i : Nat) : Word := o.recNow.getD i 0
/-- The active bank. -/
def LoopSt.bank (o : LoopSt) : List Word := if o.active = 0 then o.bank0 else o.bank1
/-- Word `i` of the active bank. -/
def LoopSt.bw (o : LoopSt) (i : Nat) : Word := o.bank.getD i 0
/-- LOOP_REC as last written has GROUP in word 10. -/
def LoopSt.group (o : LoopSt) : Nat := field (o.recWords.getD 10 0) 2 0
/-- PAT_BASE, PAT_LEN, ANCHOR, SECT2 and PERSIST in force. -/
def LoopSt.patBase (o : LoopSt) : Nat := field (o.rw 11) 19 0
def LoopSt.patLen (o : LoopSt) : Nat := field (o.rw 12) 16 0
def LoopSt.anchor (o : LoopSt) : Nat := field (o.rw 10) 9 8
def LoopSt.sect2 (o : LoopSt) : Nat := field (o.rw 10) 5 4
def LoopSt.persist (o : LoopSt) : Bool := bitOf (o.rw 10) 12
/-- Number of residual samples that make a plausibility fault. -/
def LoopSt.nres (o : LoopSt) : Nat := field (o.bw 23) 15 8
/-- The loop's output is enabled, and its OUT unit. -/
def LoopSt.outEn (o : LoopSt) : Bool := bitOf (o.rw 1) 31
def LoopSt.outPoint (o : LoopSt) : Nat := field (o.rw 1) 24 16

/-! ### Sections (R254 to R259) -/

/-- One section's sample: its state after, and its output. -/
def Section.advance (z : Section) (kp ki ad bd lim : Word) (x : Int) (hold : Bool) : Section × Int :=
  let i := if hold then z.i
    else clampInt (atAcc (valueLo lim)) (atAcc (valueHi lim)) (accSat (z.i + prod ki x))
  let d := store (accSum [prod ad z.d, prod bd x, -prod bd z.x])
  (⟨i, d, x⟩, store (accSum [prod kp x, i, atAcc d]))

/-- Integration is held: while tracking, or while a step that is not zero would move a clamped output towards its limit
(R257, R262). -/
def holds (ki : Word) (x sign : Int) (hi lo tracking : Bool) : Bool :=
  let step := prod ki x * sign
  tracking || (hi && decide (0 < step)) || (lo && decide (step < 0))

/-- The bumpless change of coefficients for the section that gives U (R271): `x` is the swap sample's input. -/
def Section.bumpSwap (z : Section) (kpOld kpNew limNew : Word) (x : Int) : Section :=
  let o := store (accSum [prod kpOld x, z.i, atAcc z.d])
  let n := store (accSum [prod kpNew x, z.i, atAcc z.d])
  { z with i := clampInt (atAcc (valueLo limNew)) (atAcc (valueHi limNew)) (accSat (z.i + atAcc (o - n))) }

/-- Clamp a section's integrator to its limits. -/
def Section.clampI (z : Section) (lim : Word) : Section :=
  { z with i := clampInt (atAcc (valueLo lim)) (atAcc (valueHi lim)) z.i }

/-! ### One loop's sample -/

/-- The inputs of one sample of a loop. -/
structure LoopIn where
  y : Int
  y2 : Int
  f : Int
  /-- first input point with an input fault -/
  bad : Option Nat
  stale : Bool
  tracking : Bool
  /-- tracking by another source than the loop's own safe value -/
  trackOther : Bool
  /-- the word driven at the instant, converted back -/
  du : Int
  sample : Nat
  instant : Nat
  timeValid : Bool
  calPhase : Nat
  pat : Nat → Int
  deriving Inhabited

/-- What a sample leaves beside the loop's state. -/
structure LoopResult where
  st : LoopSt
  /-- event codes of Table 07-3 and values -/
  events : List (Nat × Int) := []
  learn : Option (Nat × Int) := none
  save : Bool := false
  plausOn : Bool := false
  plausOff : Bool := false
  inOn : Bool := false
  inOff : Bool := false
  /-- the loop came to its safe value, or left it -/
  moved : Bool := false

/-- The phase of a sample and a slip event (R264, R266, R267): counted in MANUAL and AUTO, and taken from the calendar at the loop's
first sample in AUTO and after each TIME_SET. -/
def LoopSt.nextPhase (o : LoopSt) (i : LoopIn) : Nat × Option (Nat × Nat) :=
  if o.patLen = 0 then (0, none)
  else if o.anchor = 0 then (i.sample % o.patLen, none)
  else if o.takePhase || (o.mode = 2 && o.lastMode ≠ 2) then (i.calPhase % o.patLen, none)
  else
    let p := (o.phase + 1) % o.patLen
    if p = 0 && i.calPhase % o.patLen ≠ 0 then (i.calPhase % o.patLen, some (p, i.calPhase % o.patLen)) else (p, none)

/-- The pattern term r and the phase of a loop at a sample. -/
def LoopSt.patternOff (o : LoopSt) (i : LoopIn) : Bool := o.patLen ≠ 0 && o.anchor ≠ 0 && !i.timeValid

/-- Bumpless initialisation to `u0` (R259): `ffr` is KFF·f + FF_BIAS + r at accumulator scale. The section that gives U takes what
makes the output equal `u0`. -/
def LoopSt.bumpless (o : LoopSt) (e y2 ffr u0 : Int) : LoopSt :=
  let u := u0 - (ffr + 32768) / 65536
  let z1 : Section :=
    if o.sect2 = 0 then ⟨atAcc u - prod (o.bw 0) e, 0, e⟩
    else if o.sect2 = 1 then ⟨-prod (o.bw 0) e, 0, e⟩
    else ⟨atAcc y2 - prod (o.bw 0) e, 0, e⟩
  let z2 : Section := if o.sect2 = 0 then ⟨o.s2.i, 0, 0⟩ else ⟨atAcc u, 0, 0⟩
  { o with s1 := z1.clampI (o.bw 8), s2 := z2.clampI (o.bw 9) }

/-- The law in AUTO (R254 to R257): state, and the unclamped output v. -/
def LoopSt.law (o : LoopSt) (e y2 ffr : Int) (tracking : Bool) : LoopSt × Int :=
  let kp2 := coefM (o.bw 4)
  let sign1 : Int := if o.sect2 = 0 then 1 else kp2.sign
  let s1a := if o.sect2 = 0 && o.swapOld ≠ [] && o.swapBumpless
    then o.s1.bumpSwap (o.swapOld.getD 0 0) (o.bw 0) (o.bw 8) e else o.s1
  let r1 := s1a.advance (o.bw 0) (o.bw 1) (o.bw 2) (o.bw 3) (o.bw 8) e
    (holds (o.bw 1) e sign1 o.clampHi o.clampLo tracking)
  if o.sect2 = 0 then ({ o with s1 := r1.1 }, store (accSum [atAcc r1.2, ffr]))
  else
    let x2 := if o.sect2 = 1 then r1.2 else store (atAcc (r1.2 - y2))
    let s2a := if o.swapOld ≠ [] && o.swapBumpless
      then o.s2.bumpSwap (o.swapOld.getD 4 0) (o.bw 4) (o.bw 9) x2 else o.s2
    let r2 := s2a.advance (o.bw 4) (o.bw 5) (o.bw 6) (o.bw 7) (o.bw 9) x2
      (holds (o.bw 5) x2 1 o.clampHi o.clampLo tracking)
    ({ o with s1 := r1.1, s2 := r2.1 }, store (accSum [atAcc r2.2, ffr]))

/-- The model and its residual (R272 to R274): yhat, history, rho. -/
def LoopSt.model (o : LoopSt) (y du : Int) : Int × List Int × Int :=
  if o.reanchor || o.lastMode = 0 then (y, List.replicate 256 du, 0)
  else
    let h := (du :: o.history).take 256
    let yh := store (accSum [prod (o.bw 17) o.yhat, prod o.bmEff (h.getD (field (o.bw 23) 7 0) du), atAcc o.cmEff.toInt])
    (yh, h, valueSat (y - yh))

/-- A loop that is OFF at its sample (R258, R260): it computes nothing, writes nothing, and no supervision runs, so that the
causes of its bits end (assumption 31). -/
def LoopSt.offSample (o : LoopSt) : LoopResult :=
  { st := { o with lastMode := 0, outWord := none, plaus := false, inFault := false, reanchor := true, devAlarm := false,
                   safe := o.safe && !o.leaveSafe, leaveSafe := false, learning := false, swapOld := [], skipCompare := true,
                   wasTracking := false, clampHi := false, clampLo := false, resCount := 0,
                   lstat := w32 (b2n (o.safe && !o.leaveSafe)) },
    events := if o.safe && o.leaveSafe then [(0x07, o.out)] else []
    plausOff := o.plaus, inOff := o.inFault, moved := o.safe && o.leaveSafe }

/-- One sample of a loop in MANUAL or AUTO. -/
def LoopSt.onSample (o : LoopSt) (i : LoopIn) : LoopResult :=
  let auto := o.mode = 2
  let rt := field (o.bw 23) 31 16
  let m := o.model i.y i.du
  let rho := m.2.2
  let exceeds := decide (rt < rho.natAbs)
  let resCount := if exceeds then o.resCount + 1 else 0
  -- faults (R252, R273, R274)
  let inOn := i.bad.isSome && !o.inFault
  let inOff := i.bad.isNone && o.inFault
  let inFault := i.bad.isSome
  let okCount := if exceeds then 0 else o.okCount + 1
  let plausOn := !o.plaus && o.nres ≠ 0 && decide (o.nres ≤ resCount)
  let plausOff := o.plaus && decide (o.nres ≤ okCount)
  let plaus := (o.plaus && !plausOff) || plausOn
  let leaves := o.safe && o.leaveSafe && !inFault && !plaus
  let safe := (o.safe && !leaves) || inFault || plaus
  let enters := safe && !o.safe
  let tracking := if leaves then i.trackOther else i.tracking
  -- pattern (R264, R266, R267)
  let off := o.patternOff i
  let e := valueSat (o.spNow - i.y)
  let ph := if off then (o.phase, none) else o.nextPhase i
  let kr := o.bw 13
  let r := if !auto || off || o.patLen = 0 then 0 else store (prod kr (i.pat ((ph.1 + field (o.bw 16) 31 16) % o.patLen)))
  let ffr := accSum [if bitOf (o.rw 1) 15 then prod (o.bw 11) i.f else 0, atAcc (valueLo (o.bw 12)), atAcc r]
  -- bumpless initialisation (R259, R276, R286)
  let u0 : Option Int :=
    if !auto then none
    else if o.start.isSome then o.start
    else if o.lastMode ≠ 2 then some (if o.lastMode = 1 then o.out else i.du)
    else if leaves then some i.du
    else if o.wasTracking && !tracking then some (o.history.headD i.du)
    else none
  let o1 := match u0 with | some u => o.bumpless e i.y2 ffr u | none => o
  -- the output (R256, R258)
  let q := if auto then o1.law e i.y2 ffr tracking else (o1, o.manNow)
  let lo : Int := field (o.bw 10) 15 0
  let hi : Int := field (o.bw 10) 31 16
  let u := clampInt lo hi q.2
  let cHi := decide (hi < q.2)
  let cLo := decide (q.2 < lo)
  let learning := o.learnEn && auto && !tracking && !safe && !cHi && !cLo && !off && o.patLen ≠ 0
  let qf : Int := field (o.bw 16) 15 0
  let learn := if learning then
      some (ph.1, store (accSum [qf * i.pat ph.1 * 2, prod o.klEff e])) else none
  -- alarms (Table 07-3)
  let dev : Int := field (o.bw 24) 15 0
  let hys : Int := field (o.bw 24) 31 16
  let devOn := !o.devAlarm && decide (dev ≠ 0) && decide (dev < e.natAbs)
  let devOff := o.devAlarm && (decide (dev = 0) || decide ((e.natAbs : Int) < dev - hys))
  -- sums of R558 and R559
  let passed := auto && !off && o.patLen ≠ 0 && ph.1 = 0 && o.lastMode = 2
  let enterAuto := auto && o.lastMode ≠ 2
  let bad := o.blkBad || exceeds || safe || tracking
  -- the phase passes 0 (R268)
  let crossed := o.patLen ≠ 0 && !off && o.lastMode ≠ 0 && (ph.1 = 0 || decide (ph.1 < o.phase))
  let blkRes := o.blkRes + rho
  let blkProd := o.blkProd + rho * (i.du - o.lastDriven)
  let full := o.nres ≠ 0 && o.blkCount + 1 = 64
  let st : LoopSt := { q.1 with
    out := u, fbv := i.y, res := rho, resCount := resCount
    yhat := if enters then i.y else m.1, history := if enters then List.replicate 256 i.du else m.2.1
    okCount := if plausOn then 0 else okCount
    plaus := plaus, inFault := inFault, clampHi := cHi, clampLo := cLo
    phase := ph.1, takePhase := off
    swapOld := [], start := if auto then none else o.start
    learning := learning, safe := safe, leaveSafe := false, reanchor := false
    wasTracking := tracking, devAlarm := (o.devAlarm && !devOff) || devOn, lastMode := o.mode
    esum := if auto && o.patLen ≠ 0 then (if passed then e.natAbs ^ 2 else o.esum + e.natAbs ^ 2) else o.esum
    esumLast := if passed then some o.esum else o.esumLast
    skipCompare := if enterAuto then true else if passed then false else o.skipCompare
    periodDone := if passed && o.learning && !o.skipCompare then
        (match o.esumLast with | some s => some (o.esum, s) | none => o.periodDone) else o.periodDone
    blkCount := if o.nres = 0 || full then 0 else o.blkCount + 1
    blkRes := if o.nres = 0 || full then 0 else blkRes
    blkProd := if o.nres = 0 || full then 0 else blkProd
    blkBad := if o.nres = 0 || full then false else bad
    blkDone := if full && !bad then some (blkRes, blkProd) else o.blkDone
    lastDriven := i.du
    lstat := w32 (b2n safe + 8 * b2n tracking + 16 * b2n cHi + 32 * b2n cLo + 64 * b2n inFault + 128 * b2n plaus +
      256 * b2n exceeds + 512 * b2n ((o.devAlarm && !devOff) || devOn) + 1024 * b2n i.stale + 2048 * b2n off +
      4096 * b2n learning) }
  let ev := fun (b : Bool) (c : Nat) (v : Int) => if b then [(c, v)] else []
  { st := st
    events :=
      ev inOn 0x06 (i.bad.getD 0) ++ ev plausOn 0x05 rho ++
      ev ph.2.isSome 0x0C (((ph.2.getD (0, 0)).1 * 65536 + (ph.2.getD (0, 0)).2 : Nat) : Int) ++
      ev devOn 0x01 e ++ ev devOff 0x02 e ++
      ev ((cHi || cLo) && !(o.clampHi || o.clampLo)) 0x03 u ++ ev ((o.clampHi || o.clampLo) && !(cHi || cLo)) 0x04 u ++
      ev leaves 0x07 u
    learn := learn
    save := crossed && o.persist && o.anchor ≠ 0
    plausOn := plausOn, plausOff := plausOff, inOn := inOn, inOff := inOff, moved := enters || leaves }

/-- One sample of a loop. -/
def LoopSt.sampleStep (o : LoopSt) (i : LoopIn) : LoopResult := if o.mode = 0 then o.offSample else o.onSample i

/-! ### Changes (R248, R270, R561) -/

/-- A coefficient held between two others of its own exponent's kind, compared by what they represent. -/
def coefValue (c : Word) : Int := coefM c * 2 ^ coefE c

/-- A coefficient with another mantissa. -/
def coefWith (c : Word) (m : Int) : Word := w32 (field c 31 16 * 65536 + twos 16 m)

/-- The mantissa that a coefficient value has at an exponent, rounded towards zero and saturated. -/
def mantissaAt (c : Word) (e : Nat) : Int := valueSat ((coefValue c).tdiv (2 ^ e))

/-- A coefficient with the exponent of `base`, clamped between two coefficients. -/
def coefClamp (c lo hi base : Word) : Word :=
  let v := clampInt (coefValue lo) (coefValue hi) (coefValue c)
  w32 (coefE base * 65536 + twos 16 (valueSat (v.tdiv (2 ^ coefE base))))

/-- The adapted values restart from the active bank (R270), or follow their pins, clamped to its limits (R561). -/
def LoopSt.restartAdapted (o : LoopSt) : LoopSt :=
  let kl := match o.pinKl with | some k => coefClamp k (o.bw 14) (o.bw 15) (o.bw 15) | none => o.bw 15
  let bm := match o.pinModel with
    | some v => coefClamp (coefWith o.bmEff (valueLo v)) (o.bw 19) (o.bw 20) (o.bw 18)
    | none => o.bw 18
  let cm := match o.pinModel with
    | some v => BitVec.ofInt 16 (clampInt (valueLo (o.bw 22)) (valueHi (o.bw 22)) (valueHi v))
    | none => BitVec.ofNat 16 (field (o.bw 21) 15 0)
  { o with klEff := kl, bmEff := bm, cmEff := cm }

/-- A change of a loop takes effect at a sample (R248). Pattern memory is changed by the caller. -/
def LoopSt.applyChange (o : LoopSt) (c : LoopChange) : LoopSt :=
  match c with
  | .record ws _ => { o with recNow := ws, skipCompare := true }
  | .cmd v => { o with mode := if field v 1 0 = 3 then o.mode else field v 1 0, learnEn := bitOf v 4 }
  | .sp v => { o with spNow := valueLo v }
  | .man v => { o with manNow := valueLo v }
  | .swap bumpless =>
    let old := o.bank
    let p : LoopSt := { o with active := 1 - o.active, gen := o.gen + 1, pending := false, written := false,
                               swapOld := if old = [] then zeros32 else old, swapBumpless := bumpless, skipCompare := true }
    let same := p.bw 17 = old.getD 17 0 && p.bw 18 = old.getD 18 0 && p.bw 21 = old.getD 21 0 &&
      field (p.bw 23) 7 0 = field (old.getD 23 0) 7 0
    { p.restartAdapted with reanchor := p.reanchor || !same }
  | .clear .. => o
  | .write .. => o
  | .adapt kl bm cm =>
    { o with klEff := if o.pinKl.isSome then o.klEff else kl,
             bmEff := if o.pinModel.isSome then o.bmEff else bm,
             cmEff := if o.pinModel.isSome then o.cmEff else cm }
  | .pin 4 v => { o with pinKl := v, klEff := v.getD o.klEff }
  | .pin _ v =>
    { o with pinModel := v,
             bmEff := match v with | some w => coefWith o.bmEff (valueLo w) | none => o.bmEff,
             cmEff := match v with | some w => BitVec.ofNat 16 (field w 31 16) | none => o.cmEff }
  | .leave => { o with leaveSafe := true }
  | .group .. => o
  | .pinDelay _ => o
where
  /-- A bank of zeros. -/
  zeros32 : List Word := List.replicate 32 0

/-- Group changes (R248): PERIOD, PHASE, EN and PIN_DELAY come into force. -/
def GroupSt.applyChange (g : GroupSt) (c : LoopChange) : GroupSt :=
  match c with
  | .group period phase en => { g with period := period, phaseNow := phase, enNow := decide (en = 1) }
  | .pinDelay v => { g with pinNow := v }
  | _ => g

/-- A sample message names a change (R248): its pick, or the cycle that committed it or a later one. -/
def ChangeName.namedBy (c : ChangeName) (m : SampleMsg) : Bool :=
  match c with
  | .pick n => n = m.pick || serialBefore n m.pick
  | .cycle p k n =>
    let q := m.cycles.getD p (0, 0)
    decide (k < q.1) || (decide (k = q.1) && decide (n ≤ q.2))

/-- The pick that names a command's change, and the change. -/
def pickOf (c : ChangeName × LoopChange) : Option (Word × LoopChange) :=
  match c.1 with | .pick n => some (n, c.2) | .cycle .. => none

/-- The cycle of partition `p` names a change. -/
def ChangeName.ofPart (c : ChangeName) (p : Nat) : Bool := match c with | .pick _ => false | .cycle q .. => q = p

def LoopChange.isAdapt (c : LoopChange) : Bool := match c with | .adapt .. => true | _ => false

/-- An adaptation of the message among the commands' changes: at its pick, before the commands of that pick. -/
def insertAdapt (a : Adaptation) (cs : List (Word × LoopChange)) : List (Word × LoopChange) :=
  cs.takeWhile (fun c => serialBefore c.1 a.pick) ++ (a.pick, .adapt a.kl a.bm a.cm) ::
    cs.dropWhile (fun c => serialBefore c.1 a.pick)

/-- The changes that a sample message names, in the order of R248, and those that stay; the adapted values are those that the message
carries (Table 07-1), `adapt` of them for this loop. -/
def namedChanges (m : SampleMsg) (adapt : List Adaptation) (cs : List (ChangeName × LoopChange)) :
    List LoopChange × List (ChangeName × LoopChange) :=
  let named := cs.filter (fun c => c.1.namedBy m && !c.2.isAdapt)
  let picks := adapt.foldl (fun l a => insertAdapt a l) (named.filterMap pickOf)
  let commits := (List.range 16).flatMap (fun p => (named.filter (fun c => c.1.ofPart p)).map (·.2))
  (picks.map (·.2) ++ commits, cs.filter (fun c => !c.1.namedBy m))

end Sys2Proof.Machine
end

