-- ==== Sys2Proof/Machine/Loops.lean ====
section
/-! DEFINITION. The loop engine (chapter 07): groups, samples, output timing and the loop opcodes. -/

namespace Sys2Proof.Machine

/-! ### Registers as last written, and changes (R248, R446) -/

/-- A group samples: the engine and the group are enabled. -/
def Lane.groupLive (x : Lane) (g : Nat) : Bool := x.blk.loop.en && (x.group g).enNow

/-- Pattern samples written from index `i` of the pattern memory. -/
def Lane.patternWrite (x : Lane) (i : Nat) (vs : List (BitVec 16)) : Lane :=
  x.onLoopBlk (fun b => { b with pattern := tputList 0 b.pattern i vs })

/-- Pattern samples of a span set to 0. -/
def Lane.patternZero (x : Lane) (i n : Nat) : Lane :=
  x.onLoopBlk (fun b => { b with pattern := b.pattern.filter (fun e => e.1 < i || i + n ≤ e.1) })

/-- One sample of the pattern memory, as a value. -/
def Lane.patternAt (x : Lane) (i : Nat) : Int := (tget 0 x.blk.loop.pattern i).toInt

/-- A change of loop `n` takes effect in a lane (R248, R263). -/
def Lane.changeLoop (x : Lane) (n : Nat) (c : LoopChange) : Lane :=
  let o := x.loop n
  let y := match c with
    | .record ws _ =>
      let base := field (ws.getD 11 0) 19 0
      let len := field (ws.getD 12 0) 16 0
      if base = o.patBase && len = o.patLen then x else x.patternZero base len
    | .clear off cnt => x.patternZero (o.patBase + off) cnt
    | .write off vs => x.patternWrite (o.patBase + off) vs
    | _ => x
  y.onLoop n (fun p => p.applyChange c)

/-- A change of loop `n` waits for the first sample of its group that names it (R248). -/
def Lane.queueLoop (x : Lane) (n : Nat) (name : ChangeName) (c : LoopChange) : Lane :=
  x.onLoop n (fun o => { o with changes := o.changes ++ [(name, c)] })

/-- A change of group `g` waits for the group's first sample that names it; a group that does not sample takes it at once, since only
EN brings a sample (log entry 30). -/
def Lane.queueGroup (x : Lane) (g : Nat) (name : ChangeName) (c : LoopChange) : Lane :=
  if x.groupLive g then x.onGroup g (fun o => { o with changes := o.changes ++ [(name, c)] })
  else x.onGroup g (fun o => o.applyChange c)

/-- LOOP_CMD, LOOP_SP or LOOP_MAN (register 0, 1, 2) of loop `n` is written: reserved bits are ignored, and a value outside its
field's range leaves the field as it was (R9, R447, Table 07-7). The flag says that a value was outside. -/
def Lane.writeLoopReg (x : Lane) (n reg : Nat) (v : Word) (name : ChangeName) : Lane × Bool :=
  match reg with
  | 0 =>
    let w := if field v 1 0 = 3 then ((x.loop n).cmd &&& 3#32) ||| (v &&& 0x10#32) else v &&& 0x13#32
    ((x.onLoop n (fun o => { o with cmd := w })).queueLoop n name (.cmd w), field v 1 0 = 3)
  | 1 => ((x.onLoop n (fun o => { o with sp := v &&& 0xFFFF#32 })).queueLoop n name (.sp (v &&& 0xFFFF#32)), false)
  | _ =>
    if 32767 < field v 15 0 then (x, true)
    else ((x.onLoop n (fun o => { o with man := v &&& 0xFFFF#32 })).queueLoop n name (.man (v &&& 0xFFFF#32)), false)

/-- LOOP_GRP_SLACK at a beat: the least slack of the samples of the last 1,000 ms (R285). -/
def GroupSt.slack (g : GroupSt) (now : Nat) : Int :=
  match g.slacks.filter (fun e => decide (now < e.1 + 100000000)) with
  | [] => 0
  | e :: r => r.foldl (fun a q => min a q.2) e.2

/-- A LOOP_STATUS record of loop `n` at a beat (Table 09-10). -/
def Lane.loopRecord (x : Lane) (n now : Nat) : List Byte :=
  let o := x.loop n
  let g := x.group (field (o.rw 10) 2 0)
  beBytes 1 n ++ beBytes 1 o.mode ++ beBytes 2 o.lstat.toNat ++ beBytes 2 (twos 16 o.spNow) ++ beBytes 2 (twos 16 o.fbv) ++
  beBytes 2 (twos 16 o.out) ++ beBytes 2 (twos 16 o.res) ++ beBytes 1 o.active ++ zeros 1 ++ beBytes 2 o.gen.toNat ++
  beBytes 4 o.klEff.toNat ++ beBytes 4 o.bmEff.toNat ++ beBytes 2 o.cmEff.toNat ++ beBytes 2 o.phase ++
  beBytes 1 (b2n g.delayed) ++ zeros 1 ++ beBytes 4 (twos 32 (g.slack now)) ++ zeros 2

/-! ### One group's sample in one lane -/

/-- The frame of a region that a sample message names, if the lane keeps it. -/
def Lane.frameNamed (x : Lane) (r number : Nat) : Option SFrame :=
  (tget [] x.blk.pnt.frames r).find? (fun f => f.number = number)

/-- The view of point `p` in the frames that a message names. -/
def Lane.viewNamed (x : Lane) (m : SampleMsg) (p : Nat) : UnitView :=
  match x.frameNamed (p / 64) (m.frames.getD (p / 64) 0) with
  | some f => tget {} f.units (p % 64)
  | none => {}

/-- A frame's status shows a condition that faults a loop's input: SAFE, OPEN, SHORT, OVER or UNDER (R252). -/
def inputBad (stat : Word) : Bool := (stat &&& 0x3D#32) ≠ 0

/-- The inputs of loop `n` at the sample of a message (R251 to R253, R262, R272). -/
def State.loopIn (s : State) (l : LaneId) (n : Nat) (m : SampleMsg) (prev : Option (List Nat)) : LoopIn :=
  let x := s.lane l
  let o := x.loop n
  let fb := field (o.rw 0) 8 0
  let fb2 := field (o.rw 0) 24 16
  let ff := field (o.rw 1) 8 0
  let ins := [fb] ++ (if bitOf (o.rw 0) 31 then [fb2] else []) ++ (if bitOf (o.rw 1) 15 then [ff] else [])
  let scaled := fun (p i : Nat) =>
    let v := pointVal (x.unitType p)
    scaleIn (v (x.viewNamed m p).seen) (v (o.rw i)) (v (o.rw (i + 1)))
  let secs := (x.group m.group).period / 1000000
  let t := if o.anchor = 1 then m.seconds else (m.weekday - 1) * 86400 + m.seconds
  { y := scaled fb 2
    y2 := if bitOf (o.rw 0) 31 then scaled fb2 4 else 0
    f := if bitOf (o.rw 1) 15 then scaled ff 6 else 0
    bad := ins.find? (fun p => inputBad (x.viewNamed m p).stat)
    stale := match prev with
      | some fs => ins.any (fun p => fs.getD (p / 64) 0 = m.frames.getD (p / 64) 0)
      | none => false
    tracking := o.outEn && s.overridden l o.outPoint
    trackOther := o.outEn && (s.onLane l (fun z => z.onLoop n (fun p => { p with safe := false }))).overridden l o.outPoint
    du := if o.outEn then scaleIn (s.drivenNow l o.outPoint).toInt (o.rw 8).toInt (o.rw 9).toInt else o.out
    sample := m.sample
    instant := m.instant
    timeValid := m.timeValid
    calPhase := t / max 1 secs
    pat := fun i => x.patternAt (o.patBase + i) }

/-- Named changes of loop `n` take effect; a swap enters its event, and the configuration is stored (R248, R270, R286). -/
def Lane.applyNamed (x : Lane) (l : LaneId) (n : Nat) (m : SampleMsg) (now : Nat) : Lane :=
  let q := namedChanges m (m.adapt.filter (fun a => a.loop = n)) (x.loop n).changes
  let y := x.onLoop n (fun o => { o with changes := q.2 })
  q.1.foldl (fun (z : Lane) c =>
    let w := z.changeLoop n c
    match c with
    | .swap _ => (w.enter l 5 m.group (w.loop n).owner (.loop n 0x08 (w32 m.sample) (w32 (w.loop n).gen.toNat))).startFlash
        .config now
    | _ => w) y

/-- The closing beat of the pick that a lane has released last (R288): no command of an earlier one is still to execute. -/
def Lane.closedBeat (x : Lane) : Nat := match x.lastInfo with | some i => i.beat | none => 0

/-- The samples kept for the replies of R288: those from a beat on, and the last before it. -/
def recent {α : Type} (beat : Nat) (l : List (Nat × α)) : List (Nat × α) :=
  l.takeWhile (fun q => decide (beat ≤ q.1)) ++ (l.dropWhile (fun q => decide (beat ≤ q.1))).take 1

/-- A loop that comes to MANUAL or AUTO drives its output from that sample on: the word that the point then drives, until its first
write (R260). -/
def Lane.takeOutput (x : Lane) (n : Nat) : Lane :=
  let o := x.loop n
  if o.mode ≠ 0 && o.outEn && o.outWord.isNone then x.onLoop n (fun p => { p with outWord := some (tget 0 x.man.outImage o.outPoint) })
  else x

/-- One loop's sample in one lane. -/
def State.computeLoop (s : State) (l : LaneId) (m : SampleMsg) (prev : Option (List Nat)) (n : Nat) : State :=
  let before := (s.lane l).loop n
  let touched := !(namedChanges m [] before.changes).1.isEmpty
  let s0 := s.onLane l (fun x => (x.applyNamed l n m s.pkg.beat).takeOutput n)
  let i := s0.loopIn l n m prev
  let o := (s0.lane l).loop n
  let r := o.sampleStep i
  let past := if touched || r.learn.isSome then (m.instant, before.patBase, (s.lane l).blk.loop.pattern) :: o.past else o.past
  let st := { r.st with past := recent (s.lane l).closedBeat past }
  let s1 := s0.onLane l (fun x =>
    let y := (x.onLoop n (fun _ => st)).onLoopBlk (fun b =>
      { b with waiting := if o.mode ≠ 0 && o.outEn then oset b.waiting n st.out else odel b.waiting n })
    match r.learn with
    | some q => y.patternWrite (o.patBase + q.1) [BitVec.ofInt 16 q.2]
    | none => y)
  let s2 := if r.inOn then s1.raise l (bitLoopInput n) true else if r.inOff then
    s1.onLane l (fun x => x.endCause (bitLoopInput n)) else s1
  let s3 := if r.plausOn then s2.raise l (bitLoopPlaus n) true else if r.plausOff then
    s2.onLane l (fun x => x.endCause (bitLoopPlaus n)) else s2
  let ev := fun (y : Lane) (e : Nat × Int) =>
    y.enter l 5 m.group o.owner (.loop n e.1 (w32 m.sample) (BitVec.ofInt 32 e.2))
  s3.onLane l (fun x =>
    let y := r.events.foldl ev x
    let y1 := if r.save then
        ev (y.startFlash (.pattern n) s.pkg.beat) (0x0B, (o.patLen : Int))
      else y
    let y2 := if (r.moved || (o.mode = 0 && o.lastMode ≠ 0)) && o.outEn
      then y1.sendUpdate (o.outPoint / 64) s.pkg.beat else y1
    y2.onLoop n (fun p => { p with shots := recent y2.closedBeat ((m.instant, y2.loopRecord n m.instant) :: p.shots) }))

/-- A loop goes to OFF at once (R277): from here its point drives its output-image word (R260), and changes of its mode that wait
leave it OFF. -/
def Lane.loopOff (x : Lane) (n now : Nat) : Lane :=
  let o := x.loop n
  let y := (x.onLoop n (fun p => { p with
    mode := 0, cmd := p.cmd &&& 0xFFFFFFFC#32, outWord := none, offDue := false
    changes := p.changes.map (fun c => match c.2 with | .cmd v => (c.1, .cmd (v &&& 0xFFFFFFFC#32)) | _ => c) })).onLoopBlk
    (fun b => { b with waiting := odel b.waiting n })
  if o.outEn then y.sendUpdate (o.outPoint / 64) now else y

/-- A cluster move sets loop `n` to OFF at the pick release (R277). A sample that the lane has still to compute belongs before it. -/
def Lane.loopOffByMove (x : Lane) (n now : Nat) : Lane :=
  if (x.group (x.loop n).group).awaiting then x.onLoop n (fun p => { p with offDue := true, cmd := p.cmd &&& 0xFFFFFFFC#32 })
  else x.loopOff n now

/-- A group event (Table 07-3): loop number 0. It goes to partition 0 and to the owners of the group's loops (R278). -/
def Lane.groupEvent (x : Lane) (l : LaneId) (g code sample : Nat) : Lane :=
  x.enter l 5 g 0 (.loop 0 code (w32 sample) (w32 g))

/-- A group enters delay mode (R281). -/
def Lane.enterDelay (x : Lane) (l : LaneId) (g sample : Nat) : Lane :=
  (x.onGroup g (fun o => { o with delayed := true, fallbacks := o.fallbacks + 1 })).groupEvent l g 0x09 sample

/-- The loops of group `g`, rising. -/
def Lane.groupLoops (x : Lane) (g : Nat) : List Nat :=
  (x.blk.loop.loops.filter (fun e => e.2.group = g)).map (·.1)

/-- A lane computes one sample of a group from its message (R246). -/
def State.computeSample (s : State) (l : LaneId) (m : SampleMsg) : State :=
  let g := m.group
  let q := namedChanges m [] ((s.lane l).group g).changes
  let s1 := s.onLane l (fun x =>
    let y := x.onGroup g (fun o => q.1.foldl GroupSt.applyChange { o with changes := q.2 })
    if (y.group g).pinNow && !(y.group g).delayed then (y.load true true s.pkg.beat).enterDelay l g m.sample else y)
  let prev := ((s.lane l).group g).frames
  let s2 := ((s1.lane l).groupLoops g).foldl (fun (z : State) n => z.computeLoop l m prev n) s1
  s2.onLane l (fun x =>
    let y := x.onGroup g (fun o => { o with awaiting := false, frames := some m.frames,
                                            msgs := o.msgs.filter (fun q => q.sample ≠ m.sample) })
    ((y.groupLoops g).filter (fun n => (y.loop n).offDue)).foldl (fun z n => z.loopOff n s.pkg.beat) y)

/-! ### Output writes (R260, R279, R281) -/

/-- Output forces at a loop output write (R191, R192): those of the force table as it stood before the commands of the last released
epoch. -/
def Lane.loopForce (x : Lane) (p : Nat) : Lane :=
  x.onMan (fun m => m.setForced p x.blk.pick.released (m.loopForces.lookup p))

/-- A lane writes the outputs of a group's loops that wait. -/
def Lane.writeOutputs (x : Lane) (g now : Nat) : Lane :=
  let ws := x.blk.loop.waiting.filter (fun w => (x.loop w.1).group = g)
  let y := ws.foldl (fun (z : Lane) w =>
    let o := z.loop w.1
    (z.onLoop w.1 (fun p => { p with outWord := some (scaleOut w.2 (o.rw 8).toInt (o.rw 9).toInt) })).loopForce o.outPoint) x
  let z := y.onLoopBlk (fun b => { b with waiting := b.waiting.filter (fun w => !ws.contains w) })
  let regions := (List.range 8).filter (fun r => ws.any (fun w => (x.loop w.1).outPoint / 64 = r))
  regions.foldl (fun (v : Lane) r => v.sendUpdate r now) z

/-- A judgement of sample `k` takes effect in a lane (Table 07-4, R285). -/
def Lane.judge (x : Lane) (l : LaneId) (g now k : Nat) (onTime : Bool) (slack : Int) : Lane :=
  let o := x.group g
  let inst := 100 * o.period * k
  let y := (x.load (decide (10 * slack < o.phaseNow) || (!o.delayed && !onTime)) (decide (4 * slack < o.phaseNow)) now).onGroup g (fun o =>
    { o with onTime := if onTime then min 16 (o.onTime + 1) else 0,
             slacks := (inst, slack) :: o.slacks.filter (fun e => decide (inst < e.1 + 100000000)),
             judged := if o.sample = k then some (onTime && (!o.delayed || (o.onTime = 16 && !o.pinNow))) else o.judged })
  if !o.delayed then (if onTime then y else y.enterDelay l g k)
  else if onTime && o.onTime = 16 && !o.pinNow then
    (y.onGroup g (fun o => { o with delayed := false })).groupEvent l g 0x0A k
  else y

/-! ### The rows of chapter 07 -/

/-- Seconds of the day, and weekday, of the calendar. -/
def Calendar.daySeconds (c : Calendar) : Nat := c.date.hour * 3600 + c.date.minute * 60 + c.date.second

/-- The adapted values that wait in a lane for a sample of a group. -/
def Lane.adaptations (x : Lane) (g : Nat) (pick : Word) : List Adaptation :=
  (x.groupLoops g).flatMap (fun n => (x.loop n).changes.filterMap (fun c => match c with
    | (.pick p, .adapt kl bm cm) => if p = pick || serialBefore p pick then some ⟨n, p, kl, bm, cm⟩ else none
    | _ => none))

/-- The sample message of the active lane (Table 07-1). -/
def State.sampleMsg (s : State) (l : LaneId) (g now : Nat) : SampleMsg :=
  let x := s.lane l
  let c := s.pkg.dom.cal
  { group := g
    sample := now / (100 * (x.group g).period)
    instant := now
    frames := (List.range 8).map (fun r => (x.newestFrame r).number)
    pick := x.blk.pick.released
    cycles := (List.range 16).map (fun p => ((x.part p).starts, (x.part p).cycle))
    seconds := c.daySeconds
    weekday := dtWeekday c.date
    timeValid := s.pkg.dom.timeValid
    adapt := x.adaptations g x.blk.pick.released }

/-- A lane in service meets the next sample instant of a group: a sample whose computation is not complete by then is class L
(R283). A lane that is late stays late until the further 1 ms is over (R247). -/
def State.meetInstant (s : State) (l : LaneId) (g sample now : Nat) : State :=
  let x := s.lane l
  if !x.inService then s
  else
    let s1 := if (x.group g).awaiting || decide (now < (x.group g).complete) then s.raise l 170 true else s
    s1.onLane l (fun y => y.onGroup g (fun o =>
      { o with sample := sample, instant := now, awaiting := true, judged := none, complete := 0 }))

/-- Group `h` is served before group `g` (R284). -/
def Lane.servedBefore (x : Lane) (h g : Nat) : Bool :=
  decide ((x.group h).period < (x.group g).period) || (decide ((x.group h).period = (x.group g).period) && decide (h < g))

/-- A sample instant of a group that is enabled stands at a beat and has not been met (R244). -/
def Lane.sampleDue (x : Lane) (g now : Nat) : Bool :=
  let o := x.group g
  x.groupLive g && now % (100 * o.period) = 0 && (o.instant ≠ now || o.frames.isNone)

/-- SAMPLE_INSTANT: at a multiple of 100 × PERIOD the active lane sends the sample message and computes the sample; in delay
mode it first writes the value of the sample before (R244, R246, Table 07-4). While a sample of a group that is served before it is
still to be taken at the same instant, the group waits (R284). -/
def State.sampleInstant (s : State) (g now : Nat) : State :=
  match s.active with
  | none => s
  | some l =>
    let x := s.lane l
    let o := x.group g
    if g < 8 && x.inService && x.sampleDue g now && (List.range 8).all (fun h => !(x.servedBefore h g && x.sampleDue h now)) then
      let k := now / (100 * o.period)
      let s1 := (s.meetInstant .a g k now).meetInstant .b g k now
      let s2 := if o.delayed then s1.onLane l (fun y => y.writeOutputs g now) else s1
      let m := s2.sampleMsg l g now
      let s3 := if (s2.lane l.other).inService then s2.send l (.sample m) else s2
      s3.computeSample l m
    else s

/-- A sample message or a judgement of group `g`: the link brings them in the order in which they were sent. -/
def groupMsg (g : Nat) (q : Msg) : Bool :=
  match q with
  | .sample m => m.group = g
  | .judgement h .. => h = g
  | _ => false

/-- SAMPLE_MESSAGE: the standby lane receives a sample message; in delay mode it writes the value of the sample before (Table
07-10). -/
def State.sampleMessage (s : State) (l : LaneId) (g : Nat) : State :=
  match (s.lane l).inbox.find? (groupMsg g) with
  | some (.sample m) =>
    let s1 := s.onLane l (fun x => { x with inbox := x.inbox.erase (.sample m) })
    if !(s.lane l).inService then s1
    else s1.onLane l (fun x =>
      let y := x.onGroup g (fun o => { o with msgs := o.msgs ++ [m] })
      if (x.group g).delayed then y.writeOutputs g s.pkg.beat else y)
  | _ => s

/-- A lane holds what a sample message names: the pick released, the cycles committed and the frames agreed (R246). -/
def Lane.canCompute (x : Lane) (m : SampleMsg) : Bool :=
  (m.pick = x.blk.pick.released || serialBefore m.pick x.blk.pick.released) &&
  (List.range 16).all (fun p =>
    let q := m.cycles.getD p (0, 0)
    decide (q.1 < (x.part p).starts) || (decide (q.1 = (x.part p).starts) && decide (q.2 ≤ (x.part p).cycle))) &&
  (List.range 8).all (fun r => (x.frameNamed r (m.frames.getD r 0)).isSome || (x.newestFrame r).number = m.frames.getD r 0)

/-- A group's sample that a lane can start now: its oldest message, once the lane holds all that it names. -/
def Lane.pendingSample (x : Lane) (g : Nat) : Option SampleMsg :=
  match (x.group g).msgs.head? with
  | some m => if x.canCompute m then some m else none
  | none => none

/-- SAMPLE_COMPUTATION: the standby lane starts a sample once it holds all that the message names, and once no pending sample of a
group that is served before it waits (R284). -/
def State.sampleComputation (s : State) (l : LaneId) (g : Nat) : State :=
  let x := s.lane l
  match x.pendingSample g with
  | some m =>
    if x.inService && (List.range 8).all (fun h => !(x.servedBefore h g && (x.pendingSample h).isSome)) then s.computeSample l m else s
  | none => s

/-- ON_TIME_JUDGEMENT: 2 beats before s_k + PHASE the active lane judges sample k, whose computation took `complete` beats,
and sends the result (R280). -/
def State.onTimeJudgement (s : State) (g complete now : Nat) : State :=
  match s.active with
  | none => s
  | some l =>
    let o := (s.lane l).group g
    if g < 8 && (s.lane l).inService && o.frames.isSome && o.judged.isNone && o.instant + o.phaseNow ≤ now + 2 then
      let onTime := decide (complete + 2 ≤ o.phaseNow) && !o.awaiting
      let slack : Int := (o.phaseNow : Int) - complete
      let s1 := s.onLane l (fun x => (x.judge l g now o.sample onTime slack).onGroup g (fun q => { q with complete := q.instant + complete }))
      if (s1.lane l.other).inService then s1.send l (.judgement g o.sample onTime slack) else s1
    else s

/-- JUDGEMENT_MESSAGE: the standby lane acts on the active lane's judgement once it has its own result (R280). A sample that it has
judged itself keeps that judgement. -/
def State.judgementMessage (s : State) (l : LaneId) (g : Nat) : State :=
  match (s.lane l).inbox.find? (groupMsg g) with
  | some (.judgement h k onTime slack) =>
    let o := (s.lane l).group g
    if (s.lane l).inService && o.awaiting && decide (o.sample = k) then s
    else
      let s1 := s.onLane l (fun x => { x with inbox := x.inbox.erase (.judgement h k onTime slack) })
      if (s.lane l).inService && !(decide (o.sample = k) && o.judged.isSome) then
        s1.onLane l (fun x => x.judge l g s.pkg.beat k onTime slack)
      else s1
  | _ => s

/-- OUTPUT_PHASE: at s_k + PHASE a lane that has its result and the judgement writes the group's outputs, on the main path
(R279, R280, Table 07-4). -/
def State.outputPhase (s : State) (l : LaneId) (g now : Nat) : State :=
  let o := (s.lane l).group g
  if g < 8 && (s.lane l).inService && o.judged = some true && !o.delayed && !o.awaiting && o.instant + o.phaseNow ≤ now then
    s.onLane l (fun x => x.writeOutputs g now)
  else s

/-- LATE_SAMPLE: a standby lane that has not started a sample within 1,000 µs of its instant is late (R247). -/
def State.lateSample (s : State) (l : LaneId) (g now : Nat) : State :=
  let o := (s.lane l).group g
  if g < 8 && (s.lane l).inService && s.active ≠ some l && o.awaiting && o.late.isNone && o.instant + 100000 ≤ now then
    (if (s.lane l).faultLine then s.leaveService l 167
     else s.onLane l (fun x => x.onGroup g (fun o => { o with late := some now })))
  else s

/-- LATE_SAMPLE_WINDOW: the fault line of a late lane is not set within a further 1 ms: it leaves service as class L. -/
def State.lateSampleWindow (s : State) (l : LaneId) (g now : Nat) : State :=
  match ((s.lane l).group g).late with
  | some t =>
    if g < 8 && (s.lane l).inService && s.active ≠ some l && t + msBeats ≤ now then
      (s.onLane l (fun x => x.onGroup g (fun o => { o with late := none }))).raise l 167 true
    else s
  | none => s

def execSampleInstant (group beat : Nat) (s : State) : Host.Outcome State Fault Refusal :=
  .next ((s.at_ beat).sampleInstant group (s.at_ beat).pkg.beat)

def execSampleMessage (l : LaneId) (group : Nat) (s : State) : Host.Outcome State Fault Refusal :=
  .next (s.sampleMessage l group)

def execSampleComputation (l : LaneId) (group beat : Nat) (s : State) : Host.Outcome State Fault Refusal :=
  .next ((s.at_ beat).sampleComputation l group)

def execOnTimeJudgement (group complete beat : Nat) (s : State) : Host.Outcome State Fault Refusal :=
  .next ((s.at_ beat).onTimeJudgement group complete (s.at_ beat).pkg.beat)

def execJudgementMessage (l : LaneId) (group : Nat) (s : State) : Host.Outcome State Fault Refusal :=
  .next (s.judgementMessage l group)

def execOutputPhase (l : LaneId) (group beat : Nat) (s : State) : Host.Outcome State Fault Refusal :=
  .next ((s.at_ beat).outputPhase l group (s.at_ beat).pkg.beat)

def execLateSample (l : LaneId) (group beat : Nat) (s : State) : Host.Outcome State Fault Refusal :=
  .next ((s.at_ beat).lateSample l group (s.at_ beat).pkg.beat)

def execLateSampleWindow (l : LaneId) (group beat : Nat) (s : State) : Host.Outcome State Fault Refusal :=
  .next ((s.at_ beat).lateSampleWindow l group (s.at_ beat).pkg.beat)

/-! ### Loop opcodes (R287, Table 07-5, Table 09-10) -/

/-- Bits that a loop record's words define (Table 07-8). -/
def recMask (i : Nat) : Word :=
  match i with
  | 0 => 0x81FF01FF#32
  | 1 => 0x81FF81FF#32
  | 10 => 0x00031337#32
  | 11 => 0x000FFFFF#32
  | 12 => 0x0001FFFF#32
  | 13 => 0x0000FFFF#32
  | 14 => 0
  | 15 => 0
  | _ => 0xFFFFFFFF#32

/-- HALT bits of a loop record's words (Table 07-8). -/
def recHalt (i : Nat) : Word :=
  match i with
  | 0 => 0x81FF01FF#32
  | 1 => 0x81FF81FF#32
  | 10 => 0x00000337#32
  | 11 => 0x000FFFFF#32
  | 12 => 0x0001FFFF#32
  | _ => 0

/-- Two spans of the pattern memory meet. -/
def spansMeet (b1 n1 b2 n2 : Nat) : Bool := n1 ≠ 0 && n2 ≠ 0 && decide (b1 < b2 + n2) && decide (b2 < b1 + n1)

/-- The value checks of a loop record (Table 07-5). -/
def Lane.recordOk (x : Lane) (n owner : Nat) (w : Nat → Word) : Bool :=
  let g := field (w 10) 2 0
  let anchor := field (w 10) 9 8
  let base := field (w 11) 19 0
  let len := field (w 12) 16 0
  let secs := (x.group g).period / 1000000
  let fb2 := bitOf (w 0) 31
  let ff := bitOf (w 1) 15
  let oe := bitOf (w 1) 31
  let out := field (w 1) 24 16
  let others := x.blk.loop.loops.filter (fun e => e.1 ≠ n)
  (List.range 16).all (fun i => (w i &&& recMask i) = w i) &&
  field (w 10) 5 4 ≠ 3 && (field (w 10) 5 4 ≠ 2 || fb2) && anchor ≠ 3 && field (w 10) 17 16 ≠ 3 &&
  (!bitOf (w 10) 12 || anchor ≠ 0) && len ≤ 65536 && base + len ≤ 1048576 &&
  others.all (fun e => !spansMeet base len (field (e.2.recWords.getD 11 0) 19 0) (field (e.2.recWords.getD 12 0) 16 0)) &&
  (anchor = 0 || ((x.group g).period % 1000000 = 0 && secs * len = (if anchor = 1 then 86400 else 604800))) &&
  w 2 ≠ w 3 && (!fb2 || w 4 ≠ w 5) && (!ff || w 6 ≠ w 7) && (!oe || w 8 ≠ w 9) &&
  x.pointOwner (field (w 0) 8 0) = owner && (!fb2 || x.pointOwner (field (w 0) 24 16) = owner) &&
  (!ff || x.pointOwner (field (w 1) 8 0) = owner) &&
  (!oe || ((cfgType (x.unitCfg out) = 9 || cfgType (x.unitCfg out) = 10 || cfgType (x.unitCfg out) = 12) &&
    others.all (fun e => !(bitOf (e.2.recWords.getD 1 0) 31 && field (e.2.recWords.getD 1 0) 24 16 = out))))

def checkLoopConfigLoop (x : Lane) (h : Hdr) (index owner : Nat) (words : List Word) : Option Status :=
  let o := x.loop index
  let w := fun (i : Nat) => words.getD i 0
  let c := fun (i : Nat) => o.recWords.getD i 0
  let p := h.sender.getD 0
  if 255 < index || 15 < owner then some .badParam
  else if p ≠ 0 && (o.owner ≠ p || owner ≠ p || field (w 10) 2 0 ≠ field (c 10) 2 0 ||
      field (w 11) 19 0 ≠ field (c 11) 19 0 || field (w 12) 16 0 ≠ field (c 12) 16 0) then some .notPermitted
  else if p ≠ 0 && bitOf (w 1) 31 && x.pointOwner (field (w 1) 24 16) ≠ p then some .notPermitted
  else if !x.recordOk index owner w then some .badParam
  else if o.mode ≠ 0 && (owner ≠ o.owner || (List.range 16).any (fun i => ((w i ^^^ c i) &&& recHalt i) ≠ 0)) then
    some .rejectedRunning
  else none

/-- LOOP_CONFIG of a loop: record and owner. -/
def runLoopConfigLoop (x : Lane) (e : Word) (now index owner : Nat) (words : List Word) : Lane × Answer :=
  let y := x.onLoop index (fun o => { o with owner := owner, recWords := words })
  ((y.queueLoop index (.pick e) (.record words owner)).startFlash .config now, .done .ok [])

def checkLoopConfigGroup (x : Lane) (h : Hdr) (index period phase en : Nat) : Option Status :=
  if 7 < index then some .badParam
  else if h.sender.getD 0 ≠ 0 then some .notPermitted
  else if period < 100 || 60000000 < period || phase < 1 || 65535 < phase || 100 * period ≤ phase || 1 < en then some .badParam
  else if (x.group index).en && period ≠ (x.group index).period then some .rejectedRunning
  else none

/-- LOOP_CONFIG of a group: PERIOD, PHASE and EN. -/
def runLoopConfigGroup (x : Lane) (e : Word) (now index period phase en : Nat) : Lane × Answer :=
  let y := x.onGroup index (fun g => { g with period := period, phase := phase, en := decide (en = 1) })
  ((y.queueGroup index (.pick e) (.group period phase en)).startFlash .config now, .done .ok [])

/-- Bits that a bank's words define (Table 07-2). -/
def bankMask (i : Nat) : Word :=
  if i ≤ 7 || i = 11 || (13 ≤ i && i ≤ 15) || (17 ≤ i && i ≤ 20) then 0x000FFFFF#32
  else if i = 12 || i = 21 then 0x0000FFFF#32
  else if 25 ≤ i then 0
  else 0xFFFFFFFF#32

/-- The value checks of a coefficient bank (Table 07-2, Table 07-5). -/
def bankOk (w : Nat → Word) (patLen : Nat) : Bool :=
  (List.range 32).all (fun i => (w i &&& bankMask i) = w i) &&
  valueLo (w 8) ≤ valueHi (w 8) && valueLo (w 9) ≤ valueHi (w 9) && valueLo (w 22) ≤ valueHi (w 22) &&
  0 ≤ valueLo (w 10) && valueLo (w 10) ≤ valueHi (w 10) &&
  coefValue (w 14) ≤ coefValue (w 15) && coefValue (w 19) ≤ coefValue (w 20) &&
  0 ≤ valueLo (w 16) && (patLen = 0 || field (w 16) 31 16 < patLen) &&
  0 ≤ valueHi (w 23) && 0 ≤ valueLo (w 24) && 0 ≤ valueHi (w 24)

/-- A partition other than 0 that does not own loop `n` may not name it (R152). -/
def Lane.loopDenied (x : Lane) (h : Hdr) (n : Nat) : Bool := h.sender.getD 0 ≠ 0 && (x.loop n).owner ≠ h.sender.getD 0

def checkLoopBankWrite (x : Lane) (h : Hdr) (loop : Nat) (words : List Word) : Option Status :=
  if 255 < loop then some .badParam
  else if x.loopDenied h loop then some .notPermitted
  else if !bankOk (fun i => words.getD i 0) (field ((x.loop loop).recWords.getD 12 0) 16 0) then some .badParam
  else if (x.loop loop).pending then some .busy
  else none

/-- LOOP_BANK_WRITE: the whole inactive bank (R269). -/
def runLoopBankWrite (x : Lane) (now loop : Nat) (words : List Word) : Lane × Answer :=
  let o := x.loop loop
  let b := 1 - o.active
  ((x.onLoop loop (fun p => if b = 0 then { p with bank0 := words, written := true }
      else { p with bank1 := words, written := true })).startFlash .config now,
   .done .ok (beBytes 1 b ++ zeros 1 ++ beBytes 2 o.gen.toNat))

def checkLoopBankSwap (x : Lane) (h : Hdr) (loop : Nat) (gen : BitVec 16) : Option Status :=
  if 255 < loop then some .badParam
  else if x.loopDenied h loop then some .notPermitted
  else if (x.loop loop).gen ≠ gen || !(x.loop loop).written then some .badParam
  else if (x.loop loop).pending then some .busy
  else none

/-- LOOP_BANK_SWAP: the swap is pending until its sample (R270). -/
def runLoopBankSwap (x : Lane) (e : Word) (now loop : Nat) (bumpless : Bool) : Lane × Answer :=
  let g := (x.loop loop).gen + 1
  (((x.onLoop loop (fun p => { p with pending := true })).queueLoop loop (.pick e) (.swap bumpless)).startFlash .config now,
   .done .ok (beBytes 2 g.toNat))

def checkLoopStatus (x : Lane) (h : Hdr) (first count : Nat) : Option Status :=
  if 256 < first + count then some .badParam
  else if (List.range count).any (fun i => x.loopDenied h (first + i)) then some .notPermitted
  else if count < 1 || 32 < count then some .badParam
  else none

/-- The closing beat of the pick that closed a command's epoch (R288). -/
def State.closingBeat (s : State) (l : LaneId) : Nat :=
  match (s.lane l).lastInfo with
  | some i => i.beat
  | none => s.pkg.beat

/-- LOOP_STATUS: each loop as it stood after the last sample before the closing beat (R288). -/
def State.runLoopStatus (s : State) (l : LaneId) (first count : Nat) : Answer :=
  let x := s.lane l
  let t := s.closingBeat l
  .done .ok ((List.range count).flatMap (fun i =>
    match (x.loop (first + i)).shots.find? (fun q => q.1 < t) with
    | some q => q.2
    | none => x.loopRecord (first + i) t))

/-- Checks of LOOP_PATTERN_CTL: a pattern that holds the samples named, at most `limit` of them. -/
def checkPattern (x : Lane) (h : Hdr) (p : PatternArgs) (limit : Nat) : Option Status :=
  if 255 < p.loop then some .badParam
  else if x.loopDenied h p.loop then some .notPermitted
  else if (x.loop p.loop).patLen = 0 then some .badParam
  else if (x.loop p.loop).patLen < p.offset + p.count || limit < p.count then some .badParam
  else none

/-- CLEAR and SAVE move no samples, so a TRANSFER that is not 0 does not fit (R356). -/
def checkPatternAlone (x : Lane) (h : Hdr) (p : PatternArgs) : Option Status :=
  match checkPattern x h p 65536 with
  | some st => some st
  | none => if p.transfer = 0 then none else some .badParam

/-- CLEAR (R288). -/
def runPatternClear (x : Lane) (e : Word) (p : PatternArgs) : Lane × Answer :=
  (x.queueLoop p.loop (.pick e) (.clear p.offset p.count), .done .ok [])

/-- The samples that a READ reports: as they stood after the last sample before the closing beat (R288). -/
def State.patternSamples (s : State) (l : LaneId) (p : PatternArgs) : List Byte :=
  let x := s.lane l
  let o := x.loop p.loop
  let t := s.closingBeat l
  let mem : Nat × Tab (BitVec 16) := ((o.past.filter (fun q => decide (t ≤ q.1))).getLast?.map (·.2)).getD (o.patBase, x.blk.loop.pattern)
  (List.range p.count).flatMap (fun i => beBytes 2 (tget 0 mem.2 (mem.1 + p.offset + i)).toNat)

/-- WRITE: samples from the packet or a completed transfer (R288). -/
def runPatternWrite (x : Lane) (e : Word) (loop offset : Nat) (samples : List (BitVec 16)) : Lane :=
  x.queueLoop loop (.pick e) (.write offset samples)

def checkPatternSave (x : Lane) (h : Hdr) (now : Nat) (p : PatternArgs) : Option Status :=
  match checkPatternAlone x h p with
  | some st => some st
  | none =>
    let saving := x.job.any (fun j => match j.1 with | .pattern _ => true | _ => false)
    let recent := match (x.loop p.loop).lastSave with | some t => decide (now < t + 60000000000) | none => false
    if saving || recent then some .busy else none

/-- SAVE (R268): the pattern is written to flash at once, and its event is entered. -/
def runPatternSave (x : Lane) (l : LaneId) (now : Nat) (p : PatternArgs) : Lane × Answer :=
  let o := x.loop p.loop
  let y := (x.onLoop p.loop (fun q => { q with lastSave := some now })).startFlash (.pattern p.loop) now
  (y.enter l 5 o.group o.owner (.loop p.loop 0x0B (w32 (x.group o.group).sample) (w32 o.patLen)), .done .ok [])

/-- Loops that a cluster move sets to OFF at a pick release (R277): a loop that uses a point of the cluster and whose owner is
not the new owner. -/
def Lane.loopsOffByMove (x : Lane) (cluster newOwner : Nat) : List Nat :=
  (x.blk.loop.loops.filter (fun e =>
    let w := fun (i : Nat) => e.2.recWords.getD i 0
    let uses := field (w 0) 8 0 / 8 = cluster || (bitOf (w 0) 31 && field (w 0) 24 16 / 8 = cluster) ||
      (bitOf (w 1) 15 && field (w 1) 8 0 / 8 = cluster) || (bitOf (w 1) 31 && field (w 1) 24 16 / 8 = cluster)
    e.2.recWords ≠ [] && uses && (e.2.mode ≠ 0 || field e.2.cmd 1 0 ≠ 0) && e.2.owner ≠ newOwner)).map (·.1)

end Sys2Proof.Machine
end

