-- ==== Sys2Proof/Machine/Keys.lean ====
section
/-! DEFINITION. Keys, tamper, attestation and life cycle (chapter 16). -/

namespace Sys2Proof.Machine

/-! ### The KEK and blobs (R516 to R519) -/

/-- The KEK that the two shares hold. -/
def Domain.kekValue (d : Domain) : Option (BitVec 256) := d.kek.map (fun q => q.1 ^^^ q.2)

/-- A KEK is installed as two shares under a fresh mask. -/
def Domain.install (d : Domain) (kek mask : BitVec 256) (gen : Word) : Domain :=
  { d with kek := some (mask, kek ^^^ mask), kekGen := gen, kekLost := false, latched := false, tamperSrc := 0 }

/-- What a blob's content says (Table 16-2). -/
structure BlobInfo where
  key : List Byte
  use : Nat
  part : Nat
  reserved : Nat
  keyId : Word
deriving DecidableEq, Repr

/-- The 40 bytes of a blob's content. -/
def readBlob (c : List Byte) : BlobInfo := ⟨c.take 32, beAt c 32 1, beAt c 33 1, beAt c 34 2, w32 (beAt c 36 4)⟩

/-- The attributes meet Table 16-2; `escrow` for the escrow use. -/
def attrsOk (b : BlobInfo) (escrow : Bool) : Bool :=
  b.reserved = 0 && (if escrow then b.use = 0x7E && b.part = 0 else (b.use = 1 || b.use = 2 || b.use = 3) && b.part < 16)

/-- The attribute bytes of a blob. -/
def attrBytes (use part : Nat) (keyId : Word) : List Byte := beBytes 1 use ++ beBytes 1 part ++ zeros 2 ++ beBytes 4 keyId.toNat

/-- SYS_STAT.KEK_LOST (R539). -/
def Domain.sysKekLost (d : Domain) : Bool := d.kekLost || d.latched

/-! ### Slots (R521 to R524, R341) -/

/-- The replay window, reply cache and sequence values restart when a partition's command key changes; the bulk key restarts
only the bulk values (R341). -/
def Sender.rekey (q : Sender) (use : Nat) : Sender :=
  if use = 1 then { q with high := 0, marked := [], kept := [], eventSeq := 1, bulkSeq := 1 }
  else if use = 2 then { q with bulkSeq := 1, bulkHigh := 0, bulkMarked := [] }
  else q

/-- A key is placed in a slot (R522). -/
def Lane.loadSlot (x : Lane) (n : Nat) (b : BlobInfo) (kekGen : Word) : Lane :=
  x.onSlot n (fun k => { k with key := some (b.key, b.use, b.part, b.keyId, kekGen), loadGen := k.loadGen + 1 })

/-- Every slot is emptied and its load generation advanced (R520, R526). -/
def Lane.clearSlots (x : Lane) : Lane := (List.range 64).foldl (fun (y : Lane) n =>
  y.onSlot n (fun k => { k with key := none, loadGen := k.loadGen + 1 })) x

/-- Stored blobs are unwrapped into their slots; of two that unwrap with the same PART and USE the lower slot wins (R524). -/
def Lane.unwrapAll (x : Lane) (kek : Option (BitVec 256)) (kekGen : Word) : Lane :=
  match kek with
  | none => x
  | some k =>
    x.flash.blobs.foldl (fun (y : Lane) e =>
      match Config.kwUnwrap k e.2.blob with
      | none => y
      | some c =>
        let b := readBlob c
        let taken := y.blk.key.slots.any (fun s => match s.2.key with
          | some (_, u, p, _, _) => u = b.use && p = b.part && decide (s.1 ≠ e.1)
          | none => false)
        if taken || !attrsOk b false then y else y.loadSlot e.1 b kekGen) x

/-! ### KEY_LOAD_BLOB and escrow restore (Table 16-3, R529) -/

/-- The life-cycle states in which keys load. -/
def loadsKeys (c : LifeCycle) : Bool := c = .issued || c = .sealed

/-- The slot checks of Table 16-3 on an unwrapped blob. -/
def Lane.slotCheck (x : Lane) (slot : Nat) (b : BlobInfo) : Option Status :=
  let other := x.blk.key.slots.any (fun s => match s.2.key with
    | some (_, u, p, _, _) => u = b.use && p = b.part && decide (s.1 ≠ slot)
    | none => false)
  match (x.slot slot).key with
  | some (_, u, p, _, _) => if u = b.use && p = b.part then (if other then some .badParam else none) else some .notPermitted
  | none => if other then some .badParam else none

/-- KEY_LOAD_BLOB: its checks, and the blob's content when they pass. -/
def State.checkKeyLoad (s : State) (l : LaneId) (h : Hdr) (slot : Nat) (blob : List Byte) : Status ⊕ BlobInfo :=
  if !loadsKeys s.pkg.life then .inl .lifecycleDenied
  else if 63 < slot || !h.reservedOk then .inl .badParam
  else match s.pkg.dom.kekValue with
    | none => .inl .keyLost
    | some k =>
      match Config.kwUnwrap k blob with
      | none => .inl .authFail
      | some c =>
        if !attrsOk (readBlob c) false then .inl .badParam
        else match (s.lane l).slotCheck slot (readBlob c) with
          | some st => .inl st
          | none => .inr (readBlob c)

/-- KEY_LOAD_BLOB in one lane (R522, R358). -/
def State.runKeyLoad (s : State) (l : LaneId) (slot : Nat) (blob : List Byte) (b : BlobInfo) : State × Answer :=
  (s.onLane l (fun x =>
    ((((x.loadSlot slot b s.pkg.dom.kekGen).onKey (fun k => { k with loads := k.loads + 1 })).onSender b.part
      (fun q => q.rekey b.use)).startFlash (.blob slot (some ⟨blob, b.use, b.part⟩)) s.pkg.beat)),
   .done .ok (beBytes 1 slot ++ beBytes 1 b.use ++ beBytes 1 b.part ++ zeros 1))

/-- A source that tripped may have come to rest since: the spec does not say when (free value). -/
def State.stillTripped (s : State) : Bool × State :=
  if s.pkg.dom.tripped = [] then (false, s)
  else
    let q := s.draw
    if Config.freeBool q.1 then (true, q.2) else (false, q.2.onDom (fun d => { d with tripped := [] }))

/-- The decision on a command that changes the KEK is taken once, by the first lane that executes it, and holds for both. -/
def State.decidedKey (s : State) (l : LaneId) (h : Hdr) (e : Word) : Option (Option Nat) :=
  match s.pkg.keyExec with
  | some (m, h', e', r) => if m ≠ l && h = h' && e = e' then some r else none
  | none => none

/-- The status of a code that a key command answers. -/
def keyStatus (n : Nat) : Status :=
  if n = Status.lifecycleDenied.code then .lifecycleDenied else if n = Status.keyLost.code then .keyLost
  else if n = Status.authFail.code then .authFail else if n = Status.notPermitted.code then .notPermitted else .badParam

/-- Escrow restore: its checks in the order of Table 16-3 and R529. -/
def State.escrowCheck (s : State) (h : Hdr) (blob : List Byte) : Option Status × State :=
  if !loadsKeys s.pkg.life then (some .lifecycleDenied, s)
  else if !h.reservedOk then (some .badParam, s)
  else match Config.kwUnwrap (Config.escrowKey s.pkg.lcGen) blob with
    | none => (some .authFail, s)
    | some c =>
      if !attrsOk (readBlob c) true || s.pkg.dom.kek.isSome then (some .badParam, s)
      else
        let q := s.stillTripped
        (if q.1 then some .notPermitted else none, q.2)

/-- Escrow restore in one lane: the first lane installs the KEK, each lane unwraps its stored blobs. -/
def State.runEscrow (s : State) (l : LaneId) (h : Hdr) (e : Word) (blob : List Byte) : State × Answer :=
  let decided := s.decidedKey l h e
  let q : Option Status × State := match decided with
    | some r => (r.map keyStatus, s)
    | none => s.escrowCheck h blob
  let s0 := q.2
  let s1 := if decided.isSome then s0
    else s0.onPkg (fun p => { p with keyExec := some (l, h, e, q.1.map Status.code) })
  match q.1 with
  | some st =>
    (if st = .authFail then s1.onLane l (fun x => x.onKey (fun k => { k with authFails := k.authFails + 1 })) else s1, .done st [])
  | none =>
    let c := readBlob ((Config.kwUnwrap (Config.escrowKey s.pkg.lcGen) blob).getD [])
    let s2 := if decided.isSome then s1
      else
        let m := s1.draw
        m.2.onDom (fun d => d.install (BitVec.ofNat 256 (beNat c.key)) (Config.random m.1) c.keyId)
    (s2.onLane l (fun x => x.unwrapAll s2.pkg.dom.kekValue s2.pkg.dom.kekGen),
     .done .ok (beBytes 1 0xFF ++ beBytes 1 0x7E ++ beBytes 1 0 ++ zeros 1))

/-! ### KEY_UNLOAD (R523) -/

def checkKeyUnload (x : Lane) (h : Hdr) (slot : Nat) : Option Status :=
  if 63 < slot then some .badParam
  else if h.sender.getD 0 ≠ 0 && (x.slotPart slot).any (fun p => p ≠ h.sender.getD 0) then some .notPermitted
  else none

/-- KEY_UNLOAD in one lane. -/
def runKeyUnload (x : Lane) (now slot : Nat) (erase : Bool) : Lane × Answer :=
  let y := match (x.slot slot).key with
    | some (_, u, p, _, _) => x.onSender p (fun q => q.rekey u)
    | none => x
  let z := y.onSlot slot (fun k => { k with key := none, loadGen := k.loadGen + 1 })
  (if erase then z.startFlash (.blob slot none) now else z, .done .ok [])

/-! ### PROVISION_KEK (R520, R528, R337) -/

/-- A command on a network pair: PROVISION_KEK comes from the service port alone (Table 09-14). -/
def offService (h : Hdr) : Bool := h.via ≠ .service

def State.checkGenerate (s : State) (h : Hdr) : Option Status :=
  if offService h then some .notPermitted
  else if s.pkg.life ≠ .issued then some .lifecycleDenied
  else if !h.reservedOk then some .badParam
  else none

/-- PROVISION_KEK GENERATE in one lane: the first lane creates and installs the KEK; each lane unloads its slots and erases its
stored blobs. A source still tripped trips again at once (R527). -/
def State.runGenerate (s : State) (l : LaneId) (h : Hdr) (e : Word) : State × Answer :=
  let decided := s.decidedKey l h e
  let s1 := if decided.isSome then s
    else
      let gen := w32 (max (max s.a.flash.kekGenMax s.b.flash.kekGenMax) s.pkg.dom.kekGen.toNat + 1)
      let k := s.draw
      let m := k.2.draw
      let t := (m.2.onDom (fun d => d.install (Config.random k.1) (Config.random m.1) gen)).onPkg
        (fun p => { p with keyExec := some (l, h, e, none) })
      let q := t.stillTripped
      if q.1 then q.2.onDom (fun d => { d with kek := none, latched := true,
                                               tamperSrc := w32 ((d.tripped.map (fun x => match x with
                                                 | .encl => 1 | .mesh => 2 | .volt => 4 | .temp => 8 | .glitch => 16)).sum) })
      else q.2
  let gen := s1.pkg.dom.kekGen
  (s1.onLane l (fun x => (x.clearSlots).onFlash (fun f => { f with blobs := [], kekGenMax := gen.toNat })),
   .done .ok (beBytes 4 gen.toNat))

def State.checkWrap (s : State) (h : Hdr) (key attrs : List Byte) : Option Status :=
  let b := readBlob (key ++ attrs)
  if offService h then some .notPermitted
  else if s.pkg.life ≠ .issued then some .lifecycleDenied
  else if s.pkg.dom.kek.isNone then some .keyLost
  else if !h.reservedOk || (!h.enc && offService h) then some .badParam
  else if b.use = 0x7E then (if attrsOk b true && key.all (· = 0) then none else some .badParam)
  else if attrsOk b false then none else some .badParam

/-- PROVISION_KEK WRAP: the blob of the key and attributes, or an escrow blob of the KEK (R528). -/
def State.runWrap (s : State) (key attrs : List Byte) : Answer :=
  let d := s.pkg.dom
  match d.kekValue with
  | none => .done .keyLost []
  | some k =>
    let b := readBlob (key ++ attrs)
    if b.use = 0x7E then
      .done .ok (Config.kwWrap (Config.escrowKey s.pkg.lcGen) (beBytes 32 k.toNat ++ attrBytes 0x7E 0 d.kekGen))
    else .done .ok (Config.kwWrap k (key ++ attrs))

/-! ### Measurement (R532, R535) -/

/-- MEAS[i] (R532). -/
def Lane.measEntry (x : Lane) (i : Nat) : List Byte := tget (zeros 48) x.blk.key.meas i

/-- An entry is extended with an input. -/
def Lane.extend (x : Lane) (i : Nat) (d : List Byte) : Lane :=
  x.onKey (fun k => { k with meas := tput (zeros 48) k.meas i (beBytes 48 (sha384 (x.measEntry i ++ d)).toNat) })

/-- The input that a program image gives MEAS[4 + k] (Table 16-5). -/
def imageInput (part : Nat) (i : Image) : List Byte := beBytes 1 part ++ beBytes 2 i.gen.toNat ++ i.digest

/-- The digest of the image that a partition runs; zeros where there is none. -/
def Part.runningDigest (p : Part) : List Byte := match p.current with | some i => i.digest | none => zeros 48

/-- Table 09-15 codes. -/
def lifeCode : LifeCycle → Nat
  | .wafer => 0
  | .maker => 1
  | .issued => 2
  | .sealed => 3
  | .returned => 4
  | .void => 5

/-- The signed part of a measurement report (Table 09-8). -/
def State.reportBytes (s : State) (l : LaneId) (nonce : List Byte) : List Byte :=
  let x := s.lane l
  beBytes 4 x.man.moduleId.toNat ++ beBytes 1 (lifeCode s.pkg.life) ++ zeros 1 ++ beBytes 2 s.pkg.lcGen.toNat ++ nonce ++
  (List.range 8).flatMap x.measEntry ++ (List.range 16).flatMap (fun p => (x.part p).runningDigest)

/-- Reports signed within the last second. -/
def Lane.signedLately (x : Lane) (now : Nat) : List Nat := x.blk.key.signed.filter (fun t => decide (now < t + 100000000))

def checkMeasurement (x : Lane) (now : Nat) : Option Status :=
  if 200 ≤ (x.signedLately now).length then some .busy else none

def State.runMeasurement (s : State) (l : LaneId) (nonce : List Byte) : State × Answer :=
  let r := s.reportBytes l nonce
  (s.onLane l (fun x => x.onKey (fun k => { k with signed := s.pkg.beat :: x.signedLately s.pkg.beat })),
   .done .ok (r ++ beBytes 96 (Config.ecdsaSign (sha384 r)).toNat))

/-! ### Tamper (R525, R526) -/

/-- The bit of a source in KEY_TAMPER_SRC (Table 16-4). -/
def sourceBit : TamperSource → Word
  | .encl => 1
  | .mesh => 2
  | .volt => 4
  | .temp => 8
  | .glitch => 16

/-- A source is armed (R525). -/
def State.armed (s : State) (t : TamperSource) : Bool :=
  loadsKeys s.pkg.life &&
  (match t with | .encl => s.a.blk.key.enclEn || s.b.blk.key.enclEn | _ => true)

/-- The tamper line is driven: the KEK and every slot are zeroed (R526). -/
def State.driveTamper (s : State) (bits : Word) : State :=
  let t := s.onDom (fun d => { d with kek := none, latched := true, tamperSrc := d.tamperSrc ||| bits })
  { t with a := t.a.clearSlots, b := t.b.clearSlots }

/-- TAMPER: an armed source trips. -/
def State.tamper (s : State) (t : TamperSource) : State :=
  if s.armed t then
    ((s.driveTamper (sourceBit t)).onDom (fun d => { d with
      tripped := if d.tripped.contains t then d.tripped else d.tripped ++ [t] })).flagBoth 2086 false
  else s

/-! ### Life cycle (R536 to R539) -/

/-- LIFECYCLE_GET (Table 09-14). -/
def State.lifecycleReply (s : State) : Answer :=
  let d := s.pkg.dom
  .done .ok (beBytes 1 (lifeCode s.pkg.life) ++ zeros 1 ++ beBytes 2 s.pkg.lcGen.toNat ++
    beBytes 1 (b2n d.kek.isSome + 2 * b2n d.sysKekLost + 4 * b2n d.latched) ++ zeros 3)

/-- The state that a code names. -/
def lifeOf (n : Nat) : Option LifeCycle :=
  if n = 0 then some .wafer else if n = 1 then some .maker else if n = 2 then some .issued else if n = 3 then some .sealed
  else if n = 4 then some .returned else if n = 5 then some .void else none

/-- A transition that Table 16-7 permits, with its condition. -/
def State.transitionOk (s : State) (c : LifeCycle) : Bool :=
  match s.pkg.life, c with
  | .maker, .issued => true
  | .issued, .sealed => s.pkg.dom.kek.isSome
  | .issued, .returned => true
  | .sealed, .returned => true
  | .returned, .issued => s.pkg.lcGen.toNat < 15
  | .maker, .void => true
  | .returned, .void => true
  | .issued, .void => true
  | .sealed, .void => true
  | _, _ => false

/-- The sender and transport that Table 16-7 states for a transition. -/
def State.transitionSender (s : State) (h : Hdr) : Bool :=
  match s.pkg.life with
  | .maker => s.pkg.makerSession && h.via = .service
  | .returned => s.pkg.makerSession && h.via = .service
  | .sealed => h.via ≠ .service
  | _ => true

def State.checkAdvance (s : State) (l : LaneId) (h : Hdr) (target : Nat) (confirm : Word) : Option Status :=
  if h.sender.getD 0 ≠ 0 then some .notPermitted
  else match lifeOf target with
    | none => some .badParam
    | some c =>
      if !s.transitionOk c || confirm ≠ (s.lane l).man.moduleId then some .badParam
      else if !s.transitionSender h then some .lifecycleDenied
      else none

/-- Partitions stop, and their outputs go to their safe values (step 1 of Table 16-8). -/
def Lane.stopPartitions (x : Lane) : Lane :=
  (List.range 16).foldl (fun (y : Lane) p =>
    if (y.part p).state = .noProgram then y
    else y.onPart p (fun q => { q with state := .stopped, phase := .idle })) (x.onMan (fun m => { m with committed := [] }))

/-- LIFECYCLE_ADVANCE in one lane: the first lane moves the module; a transition to RETURNED or VOID destroys the keys now and
completes with the fuses and the module reset (Table 16-8). -/
def State.runAdvance (s : State) (l : LaneId) (h : Hdr) (e : Word) (c : LifeCycle) : State × Answer :=
  let decided := s.decidedKey l h e
  let s1 := if decided.isSome then s
    else
      let t := s.onPkg (fun p => { p with keyExec := some (l, h, e, none) })
      match c with
      | .issued =>
        if s.pkg.life = .maker then (t.onPkg (fun p => { p with life := .issued })).onDom (fun d => { d with kek := none })
        else t.onPkg (fun p => { p with life := .issued, lcGen := p.lcGen + 1 })
      | .returned => (t.onPkg (fun p => { p with transition := some (c, s.pkg.beat) })).driveTamper 32
      | .void => (t.onPkg (fun p => { p with transition := some (c, s.pkg.beat) })).driveTamper 32
      | _ => t.onPkg (fun p => { p with life := c })
  let s2 := if c = .returned || c = .void then s1.onLane l Lane.stopPartitions else s1
  (s2, .done .ok (beBytes 1 (lifeCode c)))

/-- A command that changed the life cycle executes in the second lane as the first lane decided it. -/
def State.advanceStatus (s : State) (l : LaneId) (h : Hdr) (e : Word) (target : Nat) (confirm : Word) : Option Status :=
  match s.decidedKey l h e with
  | some _ => none
  | none => s.checkAdvance l h target confirm

/-! ### The rows of chapter 16 -/

/-- KEK_REMASK: the domain draws mask `mask` and switches banks (R516). -/
def execKekRemask (mask : BitVec 256) (s : State) : Host.Outcome State Fault Refusal :=
  let t := s.onDom (fun d => { d with kek := d.kek.map (fun q => (q.1 ^^^ mask, q.2 ^^^ mask)), bank := 1 - d.bank })
  let f := fun (x : Lane) => x.onKey (fun k => { k with remasks := k.remasks + 1 })
  .next { t with a := f t.a, b := f t.b }

/-- DOMAIN_POWER_ON_RESET: time and KEK are lost (R479), and with them the working keys (Table 16-1). -/
def execDomainPowerOnReset (s : State) : Host.Outcome State Fault Refusal :=
  let t := s.onDom Domain.powerOnReset
  .next { t with a := t.a.clearSlots, b := t.b.clearSlots }

def execTamper (src : TamperSource) (s : State) : Host.Outcome State Fault Refusal := .next (s.tamper src)

/-- MAKER_SESSION_OPEN: a challenge signed under Casvafort's maker key opens a maker session in MAKER or RETURNED (R536). -/
def execMakerSessionOpen (signatureOk : Bool) (s : State) : Host.Outcome State Fault Refusal :=
  .next (if signatureOk && (s.pkg.life = .maker || s.pkg.life = .returned) then
    s.onPkg (fun p => { p with makerSession := true }) else s)

/-- MAKER_TEST_PIN: activity outside MAKER and RETURNED is recorded as class N and has no other effect (R28). -/
def execMakerTestPin (s : State) : Host.Outcome State Fault Refusal :=
  .next (if s.pkg.life = .maker || s.pkg.life = .returned then s else s.flagBoth 2084 false)

end Sys2Proof.Machine
end

