-- ==== Sys2Proof/Machine/Programs.lean ====
section
/-! DEFINITION. Program images (R169 to R172, R181, R185), matching of instances (R181 to R184), and the memory that a restart
or an exchange gives a partition (Table 04-11, Table 05-3). -/

namespace Sys2Proof.Machine

/-! ### Images (Tables 04-13 and 04-14) -/

/-- Largest image: 640 KiB (R169). -/
def imageLimit : Nat := 655360

/-- Bytes `a` to `a + n - 1` of a little-endian image as a number. -/
def leAt (bs : List Byte) (a n : Nat) : Nat := leNat ((bs.drop a).take n)

/-- Table 04-14 at offset `a`. -/
def readSymbol (bs : List Byte) (a : Nat) : Symbol :=
  let w := w32 (leAt bs (a + 12) 4)
  ⟨leAt bs a 8, w32 (leAt bs (a + 8) 4), field w 31 28, field w 27 24, field w 23 0⟩

/-- The symbol table, in its order. -/
def readSymbols (bs : List Byte) (a n : Nat) : List Symbol := (List.range n).map (fun i => readSymbol bs (a + 16 * i))

/-- No symbol ID appears twice (R181). -/
def idsDistinct : List Symbol → Bool
  | [] => true
  | s :: r => r.all (fun q => q.id ≠ s.id) && idsDistinct r

/-- The symbol table rules that a load checks (Table 04-14, R181, R185). -/
def symbolsOk (ss : List Symbol) : Bool :=
  ss.all (fun s => 1 ≤ s.kind && s.kind ≤ 4) && idsDistinct ss &&
  (ss.filter (fun s => s.kind = 4)).length ≤ 1 &&
  ss.all (fun s => s.kind ≠ 4 || (s.region = 2 && s.sig.toNat % 256 = 128))

/-- The header and section rules of Table 04-13 for partition `part`. The sections follow one another in the order of R169;
the symbol table lies at the offset that the header gives, after them. -/
def imageHeaderOk (bs : List Byte) (part : Nat) : Bool :=
  let u32 := leAt bs
  let code := u32 24 4
  let data := u32 28 4
  let zeroed := u32 32 4
  let stack := u32 36 4
  let retain := u32 40 4
  let count := u32 48 4
  let table := u32 52 4
  112 ≤ bs.length && bs.length ≤ imageLimit && u32 0 4 = 0x49504B54 && u32 4 2 = 1 && u32 8 1 = part && u32 9 1 < 4 &&
  u32 10 2 = 0 && u32 12 4 % 2 = 0 && u32 12 4 < code && 50 ≤ u32 16 4 && u32 16 4 ≤ 1000000 &&
  1000 ≤ u32 20 4 && u32 20 4 ≤ 1000000 && code % 4 = 0 && code + data + zeroed + stack ≤ 524288 && retain ≤ 8192 &&
  count ≤ 4096 && 64 + code + data + retain ≤ table && table + 16 * count + 48 ≤ bs.length && u32 56 4 = bs.length &&
  u32 60 4 = 0

/-- The image that bytes spell for a partition, if they pass the checks of R170 other than the HMAC. -/
def parseImage (bs : List Byte) (part : Nat) : Option Image :=
  let u32 := leAt bs
  let code := u32 24 4
  let data := u32 28 4
  let retain := u32 40 4
  let ss := readSymbols bs (u32 52 4) (u32 48 4)
  if imageHeaderOk bs part then
    if symbolsOk ss then
      some { gen := BitVec.ofNat 16 (u32 6 2), part := part, requiresTime := u32 9 1 % 2 = 1, warm := u32 9 1 / 2 % 2 = 1,
             entry := u32 12 4, minCycle := u32 16 4, watchdog := u32 20 4, code := (bs.drop 64).take code,
             data := (bs.drop (64 + code)).take data, zeroSize := u32 32 4, stackSize := u32 36 4, retainSize := retain,
             retainSig := w32 (u32 44 4), retainInit := (bs.drop (64 + code + data)).take retain, symbols := ss,
             digest := beBytes 48 (sha384 bs).toNat }
    else none
  else none

/-- An image's bytes with their digest record, as PROGRAM_LOAD stores them: SHA-384 digest and the identity key's signature (R167). -/
def storeImage (i : Image) (bs : List Byte) : StoredImage :=
  let d := sha384 bs
  ⟨i, bs, beBytes 48 d.toNat, beBytes 96 (Config.ecdsaSign d).toNat⟩

/-- A stored image passes the check against its record (R167). -/
def StoredImage.checks (i : StoredImage) : Bool :=
  let d := sha384 i.bytes
  i.record = beBytes 48 d.toNat && i.signature = beBytes 96 (Config.ecdsaSign d).toNat

/-- The HMAC in an image's last 48 bytes is that of the bytes before it under the partition's image key (R169, R170). -/
def imageSigned (bs key : List Byte) : Bool :=
  bs.drop (bs.length - 48) = beBytes 48 (hmac384 key (bs.take (bs.length - 48))).toNat

/-- The last 8 KiB of the initial data: the initial timer and edge area (R182). -/
def Image.block (i : Image) : List Byte := i.data.drop (i.data.length - 8192)

/-- Bytes as a memory from address `a`. -/
def memOf (a : Nat) (bs : List Byte) : Mem := (bs.zipIdx a).filterMap (fun e => if e.1 = 0 then none else some (e.2, e.1))

/-- Offsets in the shared window (Table 04-5, R153): the timer and edge area, the edge records, the window's end. -/
def areaBase : Nat := 0x3E000
def edgeBase : Nat := 0x3F000
def sharedEnd : Nat := 0x40000

/-- Where a symbol's region lies and how long it is (Table 04-14): region 1 in the private memory of rank 0, the others in the
shared window. -/
def regionBase (r : Nat) : Nat := if r = 2 then 0 else if r = 3 then heldBase else if r = 4 then areaBase else 0
def regionSize (r : Nat) : Nat :=
  if r = 1 then 0x80000 else if r = 2 then heldBase else if r = 3 then 0x2000 else if r = 4 then 0x2000 else 0

/-- Bytes that a symbol takes: 16 for a timer, 4 for an edge record, the size in its signature for a variable. -/
def Symbol.size (s : Symbol) : Nat := if s.kind = 1 then 16 else if s.kind = 2 then 4 else s.sig.toNat % 256

/-- The bytes of a symbol that lie in its region. -/
def Symbol.inRegion (s : Symbol) (bs : List Byte) : List Byte := bs.take (regionSize s.region - s.offset)

/-- The memories that installation writes: shared window and the private memory of rank 0. -/
structure Memories where
  shared : Mem
  priv : Mem
deriving DecidableEq, Repr

/-- Read a symbol's record or value. -/
def Memories.read (m : Memories) (s : Symbol) : List Byte :=
  if s.region = 1 then memRead m.priv s.offset s.size else memRead m.shared (regionBase s.region + s.offset) s.size

/-- Write a symbol's record or value, as far as it lies in its region. -/
def Memories.write (m : Memories) (s : Symbol) (bs : List Byte) : Memories :=
  if s.region = 1 then { m with priv := memWrite m.priv s.offset (s.inRegion bs) }
  else { m with shared := memWrite m.shared (regionBase s.region + s.offset) (s.inRegion bs) }

/-- A timer record after matching (Table 05-3): RUN, DONE and elapsed time of the old record, the rest of the new one. -/
def timerKept (old new : List Byte) : List Byte :=
  match old, new with
  | o :: _, n :: r => ((n &&& 0xFC#8) ||| (o &&& 3#8)) :: r.take 7 ++ (old.drop 8).take 8
  | _, _ => new

/-- A timer record that starts anew (Table 05-3): RUN, DONE and elapsed time 0. -/
def timerNew (new : List Byte) : List Byte :=
  match new with
  | n :: r => (n &&& 0xFC#8) :: r.take 7 ++ zeros 8
  | [] => []

/-- The fresh-edge map of an image (R185). -/
def Image.freshSym (i : Image) : Option Symbol := i.symbols.find? (fun s => s.kind = 4)

/-- Clear the fresh-edge map. -/
def Image.clearFresh (i : Image) (m : Mem) : Mem :=
  match i.freshSym with
  | some s => memWrite m s.offset (s.inRegion (zeros 128))
  | none => m

/-- Set the fresh bit of an edge detector. -/
def Image.setFresh (i : Image) (m : Mem) (e : Symbol) : Mem :=
  match i.freshSym with
  | none => m
  | some s =>
    let n := (e.offset - 0x1000) / 4
    let a := s.offset + n / 8
    if n < 1024 && a < heldBase then memWrite m a [tget 0 m a ||| BitVec.ofNat 8 (2 ^ (n % 8))] else m

/-- What one symbol of the new table gives (Table 05-3): `old` looks a symbol ID up in the old table, `value` reads its record
or value, where there is one. -/
def Image.matchOne (i : Image) (old : Nat → Option Symbol) (value : Symbol → Option (List Byte))
    (a : Memories × List (Nat × Word × Word)) (s : Symbol) : Memories × List (Nat × Word × Word) :=
  if s.kind = 4 then a
  else
    let o := old s.id
    let mism := match o with
      | some q => if q.sig = s.sig then a.2 else a.2 ++ [(s.id, q.sig, s.sig)]
      | none => a.2
    let kept := match o with
      | some q => if q.sig = s.sig then value q else none
      | none => none
    match kept with
    | some v =>
      if s.kind = 1 then (a.1.write s (timerKept v (a.1.read s)), mism) else (a.1.write s v, mism)
    | none =>
      if s.kind = 1 then (a.1.write s (timerNew (a.1.read s)), mism)
      else if s.kind = 2 then ({ a.1 with shared := i.setFresh a.1.shared s }, mism)
      else (a.1, mism)

/-- The matching loop of R184: from memories that hold the new image's initial contents. -/
def Image.matchAll (i : Image) (old : List Symbol) (value : Symbol → Option (List Byte)) (m : Memories) :
    Memories × List (Nat × Word × Word) :=
  i.symbols.foldl (i.matchOne (fun id => old.find? (fun s => s.id = id && s.kind ≠ 4)) value)
    ({ m with shared := i.clearFresh m.shared }, [])

/-- The match plan of an exchange (step 2 of Table 05-2): what becomes of each symbol ID. -/
def matchPlan (old new : List Symbol) : List (Nat × Option Word × Option Word) :=
  new.map (fun s => (s.id, (old.find? (fun q => q.id = s.id)).map (·.sig), some s.sig)) ++
  (old.filter (fun q => !new.any (fun s => s.id = q.id))).map (fun q => (q.id, some q.sig, none))

/-- The private memory of a core after a restart: code and initial data, the rest 0 (Table 04-11). -/
def Image.private_ (i : Image) : Mem := memOf 0 (i.code ++ i.data)

/-- The private memory of a core after an exchange: new code, initial data and zeroed data; bytes beyond them stay. -/
def Image.privateOver (i : Image) (old : Mem) : Mem :=
  i.private_ ++ old.filter (fun c => decide (i.code.length + i.data.length + i.zeroSize ≤ c.1))

/-- A memory with bytes `a` to `b - 1` replaced by those of another list. -/
def memReplace (m : Mem) (a b : Nat) (bs : List Byte) : Mem :=
  m.filter (fun c => decide (c.1 < a)) ++ memOf a (bs.take (b - a)) ++ m.filter (fun c => decide (b ≤ c.1))

/-- The retain section and the timer and edge area at their initial values. -/
def Image.initRetain (i : Image) (m : Mem) : Mem := memReplace m heldBase areaBase i.retainInit
def Image.initArea (i : Image) (m : Mem) : Mem := memReplace m areaBase sharedEnd i.block

/-! ### Saves a restart finds (R160, R120) -/

/-- The lane whose copy of the newest complete periodic save is restored: the higher save number, then the preferred lane,
then lane A (R120). -/
def State.saveLane (s : State) : Option LaneId :=
  match s.a.mram.newest, s.b.mram.newest with
  | some p, some q =>
    if p.number < q.number then some .b else if q.number < p.number then some .a
    else if s.a.blk.lane.prefer = 1 then some .b else some .a
  | some _, none => some .a
  | none, some _ => some .b
  | none, none => none

/-- The newest complete periodic save. -/
def State.newestSave (s : State) : Option Save := match s.saveLane with | some l => (s.lane l).mram.newest | none => none

/-- The final area of either lane, when it is complete and names that save (R160); that of the lane whose save is restored first. -/
def State.finalSave (s : State) : Option Save :=
  match s.saveLane, s.newestSave with
  | some l, some v => ((s.lane l).mram.usableFinal v.number).orElse (fun _ => (s.lane l.other).mram.usableFinal v.number)
  | _, _ => none

/-- The held region of partition `p` with a final area's pages overlaid. -/
def overlayPages (held : Mem) (f : Save) (p : Nat) : Mem :=
  match f.parts.lookup p with
  | none => held
  | some q => (f.pages.filter (fun g => g.1 = p)).foldl (fun (m : Mem) g =>
      memReplace m (1024 * g.2) (1024 * g.2 + 1024) (memRead q.held (1024 * g.2) 1024)) held

/-- The capture of partition `p` that a warm restart restores (R160); none without a complete save of its program. -/
def State.restoredPart (s : State) (p : Nat) : Option Restored :=
  match s.newestSave with
  | none => none
  | some v =>
    match v.parts.lookup p with
    | none => none
    | some d =>
      if !d.hasProgram then none
      else match s.finalSave with
        | some f =>
          if f.program then
            some ⟨(f.parts.lookup p).getD d, overlayPages d.held f p, if f.valid then some f.timeMs else none, true⟩
          else some ⟨d, d.held, if v.valid then some v.timeMs else none, false⟩
        | none => some ⟨d, d.held, if v.valid then some v.timeMs else none, false⟩

/-- The symbol table that a lane's flash keeps for a generation of partition `p` (R588). -/
def Lane.kept (x : Lane) (p : Nat) (gen : BitVec 16) : Option (List Symbol) := (tget [] x.flash.tables p).lookup gen

/-- The symbol table for a generation of partition `p` (R588): that of a stored image of the generation, or the kept
one. -/
def Lane.tableOf (x : Lane) (p : Nat) (gen : BitVec 16) : Option (List Symbol) :=
  let q := x.part p
  match q.current, q.loaded with
  | some i, some j => if i.gen = gen then some i.symbols else if j.gen = gen then some j.symbols else x.kept p gen
  | some i, none => if i.gen = gen then some i.symbols else x.kept p gen
  | none, some j => if j.gen = gen then some j.symbols else x.kept p gen
  | none, none => x.kept p gen

/-- The generation under which a save captured partition `p`. -/
def saveGen (p : Nat) (o : Option Save) : List (BitVec 16) :=
  match o with
  | some v => (match v.parts.lookup p with | some d => [d.gen] | none => [])
  | none => []

/-- Generations of partition `p` that a save of the lane may still be restored under, one that is being written included (R588). -/
def Lane.savedGens (x : Lane) (p : Nat) : List (BitVec 16) :=
  saveGen p x.mram.newest ++ saveGen p x.mram.final ++ saveGen p (x.man.saveJob.map (·.save)) ++ saveGen p x.finalJob

/-- Keep the symbol table of an image that leaves its program slot, and discard the tables that no save refers to (R588). -/
def Lane.keepTable (x : Lane) (p : Nat) (i : Option Image) : Lane :=
  let old := tget [] x.flash.tables p
  let all := match i with
    | some im => (im.gen, im.symbols) :: old.filter (fun t => t.1 ≠ im.gen)
    | none => old
  let keep := all.filter (fun t => (x.savedGens p).contains t.1)
  x.onFlash (fun f => { f with tables := tput [] f.tables p keep })

/-! ### Forces at a change of generation (R197) -/

/-- Variable forces of partition `p` that the new symbol table drops. -/
def Lane.droppedForces (x : Lane) (p : Nat) (old new : List Symbol) : List (Nat × Force) :=
  x.man.forces.filter (fun e => e.2.kind = 3 && e.2.part = p &&
    match new.find? (fun s => s.id = e.2.target && s.kind = 3), old.find? (fun s => s.id = e.2.target) with
    | some s, some q => s.sig ≠ q.sig
    | some _, none => false
    | none, _ => true)

/-- Drop variable forces that the new table does not match; each leaves a recorder entry (R197). -/
def Lane.dropForces (x : Lane) (p : Nat) (old new : List Symbol) : Lane × Nat :=
  let ds := x.droppedForces p old new
  let y := x.onMan (fun m => { m with forces := m.forces.filter (fun e => !ds.contains e) })
  (ds.foldl (fun (z : Lane) e => z.detail 0x0003 e.2.part (beBytes 8 e.2.target ++ beBytes 8 e.2.value.toNat)) y, ds.length)

/-- Recorder entries of mismatched instances (Table 05-3). -/
def Lane.mismatchDetails (x : Lane) (p : Nat) (ms : List (Nat × Word × Word)) : Lane :=
  ms.foldl (fun (z : Lane) m => z.detail 0x0002 p (beBytes 8 m.1 ++ beBytes 4 m.2.1.toNat ++ beBytes 4 m.2.2.toNat)) x

/-! ### Installing an exchange (R183, R184) -/

/-- Give every core of a partition its private memory: `rank0` to the lead core, `other` of the old memory to the rest. -/
def Lane.loadCores (x : Lane) (p : Nat) (rank0 : Mem) (other : Mem → Mem) : Lane :=
  let cs := (x.part p).coreList
  cs.foldl (fun (y : Lane) c =>
    y.onCore c (fun k => { k with mem := if some c = cs.head? then rank0 else other k.mem, wbuf := [], run := .idle })) x

/-- Installation of an exchange in a lane, after the commit of cycle m - 1. -/
def Lane.install (x : Lane) (p : Nat) (e : Exchange) : Lane :=
  let q := x.part p
  let old := (q.current.map (·.symbols)).getD []
  let im := e.image
  let lead := match q.coreList with | c :: _ => (x.core c).mem | [] => []
  let snap : Memories := ⟨q.shared, lead⟩
  let sameRetain := decide ((q.current.map (·.retainSig)) = some im.retainSig)
  let sh0 := if sameRetain then q.shared else im.initRetain q.shared
  let m := im.matchAll old (fun s => some (snap.read s)) ⟨im.initArea sh0, im.privateOver lead⟩
  let y := (x.loadCores p m.1.priv im.privateOver).mismatchDetails p m.2
  let z := y.dropForces p old im.symbols
  z.1.onPart p (fun k =>
    { k with shared := m.1.shared, freshSet := true,
             exch := some { e with installed := true, retainDiscarded := !sameRetain, mismatches := m.2.length,
                                   dropped := z.2 } })

/-! ### Restarting (Table 04-11) -/

/-- Memory, mismatches, whether the retain section was discarded, and whether the kept table could not be read, of a warm
restart of image `i` from a capture. -/
def Lane.warmMemory (x : Lane) (p : Nat) (i : Image) (r : Restored) : Memories × List (Nat × Word × Word) × Bool × Bool :=
  let held : Mem := r.held.map (fun c => (c.1 + heldBase, c.2))
  let same := decide (r.desc.retainSig = i.retainSig)
  let sh0 := if same then held else i.initRetain held
  if r.desc.gen = i.gen then (⟨sh0, i.private_⟩, [], !same, false)
  else
    let table := x.tableOf p r.desc.gen
    let snap : Memories := ⟨held, []⟩
    let m := i.matchAll (table.getD []) (fun s => if s.region = 3 || s.region = 4 then some (snap.read s) else none)
      ⟨i.initArea sh0, i.private_⟩
    (m.1, m.2, !same, table.isNone)

/-- Memory of a cold restart: initial values, timers stopped, the fresh-edge map at 0. -/
def Image.coldMemory (i : Image) : Memories :=
  i.symbols.foldl (fun (m : Memories) s => if s.kind = 1 then m.write s (timerNew (m.read s)) else m)
    ⟨i.initArea (i.initRetain []), i.private_⟩

/-- Cores that a mask takes leave their other partitions (R129). -/
def Lane.grantCores (x : Lane) (p : Nat) (mask : BitVec 16) : Lane :=
  if mask = 0 then x
  else (List.range 16).foldl (fun (y : Lane) q =>
    y.onPart q (fun k => { k with grant := if q = p then mask else k.grant &&& ~~~mask })) x

/-- The partition's image at a restart: a RESTART command takes the loaded image when there is one (R170), which then becomes
the running image and empties the load slot. -/
def Lane.takeLoaded (x : Lane) (p : Nat) (take : Bool) : Lane :=
  let q := x.part p
  match q.loaded with
  | some i =>
    if take then
      let z := ((x.dropForces p ((q.current.map (·.symbols)).getD []) i.symbols).1.keepTable p q.current)
      let st := z.flash.loaded.lookup p
      (z.onPart p (fun k => { k with current := some i, loaded := none })).onFlash (fun f =>
        { f with loaded := odel f.loaded p,
                 running := match st with | some im => oset f.running p im | none => f.running })
    else x
  | none => x

/-- A message about partition `p` that its restart leaves without effect: those of its run before, for a READY those from before the
restart in the lane that sent it. -/
def staleAtStart (p starts : Nat) (m : Msg) : Bool :=
  match m with
  | .commitDigest k _ _ => k = p
  | .ready k i => k = p && decide (i.starts < starts)
  | .overrun k _ => k = p
  | _ => false

/-- A lane restarts partition `p`: grant, image, memory and cause (R163, Table 04-11, Table 04-12). `fr` is what a warm restart
restores. -/
def Lane.startPart (x0 : Lane) (l : LaneId) (p : Nat) (r : RestartReq) (fr : Option Restored) : Lane :=
  let x := (x0.grantCores p r.mask).takeLoaded p (r.cause = 0)
  let q := x.part p
  match q.current with
  | none => x.onPart p (fun k => { k with restart := none })
  | some i =>
    let wantWarm := r.mode = 2 || (r.mode = 0 && i.warm)
    let base := fun (k : Part) => { k with
      state := .starting, phase := .idle, restart := none, cycle := 0, first := true, wasSafe := false, own := none,
      starts := k.starts + 1, stampDue := false, theirs := k.theirs.filter (fun t => k.starts < t.starts)
      late := none, overlay := [], posts := [], timerEvents := [], exch := none, prevStamp := 0,
      flags := 16 * b2n (k.wasSafe || decide (k.state = PartState.safe)), captureMs := none, boot := none }
    let warmCause := if r.cause = 0 then 4 else if r.cause = 1 then 2 else r.cause
    let coldCause := if r.cause = 0 then 3 else r.cause
    let go := fun (y : Lane) (m : Memories) (f : Part → Part) =>
      (y.loadCores p m.priv (fun _ => i.private_)).onPart p (fun k => f { base k with shared := m.shared })
    let z := { (x.onRec (fun b => { b with notes := b.notes.map (fun n => if n.part = p then { n with cycle := 0 } else n) })) with
      inbox := x.inbox.filter (fun m => !staleAtStart p (q.starts + 1) m) }
    if wantWarm then
      match fr with
      | some c =>
        let w := z.warmMemory p i c
        let y := if w.2.2.2 && z.collects then z.setBit l 2077 false else z
        go (y.mismatchDetails p w.2.1) w.1 (fun k => { k with
          cause := warmCause, captureMs := some c.ms, freshSet := decide (c.desc.gen ≠ i.gen),
          flags := k.flags + 4 * b2n c.final + 8 * b2n w.2.2.1 })
      | none => go z i.coldMemory (fun k => { k with cause := 5, freshSet := false })
    else go z i.coldMemory (fun k => { k with cause := coldCause, freshSet := false })

end Sys2Proof.Machine
end

