-- ==== Sys2Proof/Machine/Cycles.lean ====
section
/-! DEFINITION. The cycle of a partition (R90 to R92, R140 to R155), its output commit (R104, R149 to R150), overruns and
program faults (R133, R142 to R145), exchanges (R173 to R187), restarts (R162 to R166) and saves (R157, R158, R161). -/

namespace Sys2Proof.Machine

/-! ### State digest and take-back (R105, R115 to R117) -/

/-- Free slots of ring `r` (R451): posted entries, received frames, frames to send or bulk segments take them. -/
def Lane.ringFree (x : Lane) (r : Nat) : Nat :=
  if 48 ≤ r && r < 56 then
    ringSlots r - ((x.intake.filter (fun e => e.body.ringNo = r)).map (fun e => slotsOf e.body.size)).sum
  else if 56 ≤ r && r < 60 then x.txFree r
  else if r = 62 then ringSlots r - (x.bulkRing.map (fun b => slotsOf b.2.1.length)).sum
  else (x.ring r).free r

/-- PICK_STAT of lane `l` (Table 02-5). -/
def State.pickStat (s : State) (l : LaneId) : Word :=
  let x := s.lane l
  w32 (b2n (decide (x.closed ≠ [])) + 2 * b2n (decide (s.a.inService ≠ s.b.inService) || x.blk.pick.soloHold) +
    4 * b2n x.blk.pick.holding)

/-- KEY_STAT (Table 16-11). -/
def State.keyStat (s : State) : Word :=
  let d := s.pkg.dom
  w32 (b2n d.kek.isSome + 2 * b2n d.kekLost + 4 * b2n d.latched + 8 * b2n (d.tripped.any s.armed))

/-- NET_PORT_STAT of port `n` (Table 10-6). -/
def State.portStat (s : State) (l : LaneId) (n : Nat) : Word :=
  let p := (s.lane l).port n
  let paused := match p.paused with | some t => decide (s.pkg.beat < t) | none => false
  w32 (b2n p.link + 2 * b2n p.speed10 + 4 * b2n p.reneg.isSome + 8 * b2n (s.cutThrough l n) + 16 * b2n paused +
    32 * b2n p.pauseLong + 64 * b2n p.pausing + 128 * b2n p.pauseCapped + 256 * b2n p.lowerSuspended.isSome +
    512 * b2n p.sfHold.isSome)

/-- NET_PAUSE_LEFT of a port, in ns. -/
def PortSt.pauseLeft (p : PortSt) (now : Nat) : Word := match p.paused with | some t => w32 (10 * (t - now)) | none => 0

/-- The register values of lane `l` now: what its READY carries (R79, R82), and what its own lane manager reads. -/
def State.snapOf (s : State) (l : LaneId) : Snap :=
  let x := s.lane l
  let k := s.pkg
  { blk := x.blk, dom := k.dom, beat := k.beat, serial := k.serial, order := k.order
    sys := [x.man.moduleId, w32 (orderCode k.order), w32 (k.lcGen.toNat * 65536 + lifeCode k.life), w32 x.version,
      w32 (l.num + 2 * b2n k.dom.timeValid + 4 * b2n k.dom.sysKekLost + 8 * b2n k.timeLostAtStart + 16 * b2n k.halted)]
    shown := [s.pickStat l, s.roleWord l, s.linkWord l, s.busReach, x.xferWord k.beat, s.keyStat]
    hed := (List.range 8).map (fun r => (s.literalsA r ||| s.literalsB r, maskOf (s.localTrue r), x.crossTerms r))
    digests := (List.range 16).map (fun p => (x.part p).runningDigest)
    rtc := [k.dom.busyWord l, x.rtcWres, x.rtcSet0, x.rtcSet1]
    ports := [s.portStat l 0, s.portStat l 1, (x.port 0).pauseLeft k.beat, (x.port 1).pauseLeft k.beat,
      w32 (x.fillPercent 0), w32 (x.fillPercent 1)]
    free := (List.range 64).map x.ringFree
    saving := x.job.any (fun j => match j.1 with | .pattern _ => true | _ => false)
    halted := k.halted }

/-- What the state digest of a lane covers of a partition: descriptor and held region always, memories only while the
partition may run (R105, R144). -/
def Lane.partView (x : Lane) (p : Nat) : SavedPart × Mem × List (Nat × Core) :=
  let q := x.part p
  let live := decide (q.state = .starting || q.state = .running)
  (q.capture, if live then q.shared else [], if live then q.coreList.map (fun c => (c, x.core c)) else [])

/-- The rings that are replicated (Table 03-1). -/
def replicatedRing (r : Nat) : Bool := r < 48 || (56 ≤ r && r < 60) || r = 61 || r = 62

/-- The lane manager's replicated state (Table 03-1): a save's area, the beat at which it began, the numbers of the fault streams of
the two lanes and what waits for an update of the lane's own are the lane's. -/
def Manager.replicated (m : Manager) : Manager :=
  { m with saveJob := m.saveJob.map (fun j => { j with area := 0, started := 0 }), lastSave := 0
           seqNext := m.seqNext.filter (fun e => e.1 < 44) }

/-- PRP sequence counters and IP identifications of the pairs, and the supervision frames' numbers (Table 03-1). -/
def NetBlk.counters (b : NetBlk) : List (BitVec 16) := [b.prpSeq0, b.prpSeq1, b.ipId0, b.ipId1, b.supSeq0, b.supSeq1]

/-- A loop's state without what a lane keeps for the replies of R288. -/
def LoopSt.replicated (o : LoopSt) : LoopSt := { o with shots := [], past := [] }

/-- A group's state without the lane's own progress in its sample (Table 03-1). -/
def GroupSt.replicated (g : GroupSt) : GroupSt := { g with awaiting := false, msgs := [], judged := none, complete := 0, late := none }

/-- A metering input without the blocks that a lane still collects (Table 03-1). -/
def MInput.replicated (i : MInput) : Word × Word := (i.fs, i.trim)

/-- A lane's 64-bit state digest, over all its replicated state (R105, Table 03-1). -/
def Lane.stateDigest (x : Lane) : BitVec 64 :=
  Config.digest ((List.range 16).map x.partView,
    (x.blk.loop.en, x.blk.loop.loops.map (fun e => (e.1, e.2.replicated)), x.blk.loop.groups.map (fun e => (e.1, e.2.replicated)),
      x.blk.loop.pattern),
    (x.blk.nrg.en, x.blk.nrg.window, x.blk.nrg.vin.map (fun e => (e.1, e.2.replicated)),
      x.blk.nrg.iin.map (fun e => (e.1, e.2.replicated)), x.blk.nrg.circuits, x.blk.nrg.pulses),
    (x.blk.pnt.owner, x.blk.pnt.cfg, x.blk.pnt.param, x.blk.pnt.safe, x.blk.pnt.frames),
    (x.blk.rings.filter (fun r => replicatedRing r.1), x.txRings, x.bulkRing),
    (x.blk.pick.opened, x.blk.pick.released, x.blk.net.counters, (List.range 8).map (fun n => (x.bus n).seq)),
    (x.blk.recd.records, x.blk.recd.next, x.blk.recd.frozen, x.blk.recd.frozenLost),
    x.blk.key.slots, x.man.replicated)

/-- The preferred lane takes the active role back (Table 03-7). -/
def State.takeBack (s : State) (l : LaneId) : State :=
  let upd := fun (x : Lane) => (x.onLaneBlk (fun b => { b with takebacks := b.takebacks + 1, holdBeat := none })).detail
    0x0007 0 (beBytes 1 l.num ++ zeros 15)
  let s1 := ((s.onLane l (fun x => upd (x.onLaneBlk (fun b => { b with role := .active })))).onLane l.other
    (fun x => upd (x.onLaneBlk (fun b => { b with role := .standby }))))
  s1.selectLane l

/-- Cycle start `n` of partition 0 in a lane: its state digest is formed and sent; the preferred lane that is STANDBY counts its
hold-off and takes the active role back when it is met (R105, R115, R117). The count begins with the first such start at which the
lane is preferred and STANDBY, also when PREFER comes to name a lane that is STANDBY already (the spec does not say when it begins
then: DESIGN CHOICE, log entry 123). -/
def State.p0Start (s : State) (l : LaneId) (n : Nat) : State :=
  let now := s.pkg.beat
  let d := (s.lane l).stateDigest
  let s1 := s.onLane l (fun x => x.onLaneBlk (fun b => { b with digest := d, digestNo := n }))
  let s2 := if (s.lane l.other).inService then s1.send l (.stateDigest n d) else s1
  let b := (s2.lane l).blk.lane
  if b.role = .standby && decide (preferred b.prefer = some l) then
    let start := b.holdBeat.getD now
    let el := min ((now - start) / 100000000) b.holdoff
    let s3 := s2.onLane l (fun x => x.onLaneBlk (fun b => { b with holdBeat := some start, holdElapsed := el }))
    if b.holdoff ≤ el then s3.takeBack l else s3
  else s2

/-! ### Joint start (R90 to R92) -/

/-- A pick is requested (R50, R54). -/
def State.requestPick (s : State) (l : LaneId) (who : Requester) (count : Nat) : State :=
  s.onPkg (fun p => { p with pickReqs := p.pickReqs ++ [⟨who, count, l⟩] })

/-- The state codes of Table 04-10. -/
def partCode : PartState → Nat
  | .noProgram => 0
  | .stopped => 1
  | .waitTime => 2
  | .starting => 3
  | .running => 4
  | .safe => 5

/-- The age of a capture at a restart, in whole seconds, rounded down (R168 states no rounding: DESIGN CHOICE, log entry 123); all
ones when it cannot be told. -/
def captureAge (d : Domain) (ms : Option (Option Nat)) : Word :=
  match ms with
  | none => 0
  | some none => 0xFFFFFFFF#32
  | some (some t) =>
    if d.timeValid && !d.timeLost && t ≤ d.cal.ms then w32 ((d.cal.ms - t) / 1000) else 0xFFFFFFFF#32

/-- What starts a cycle in a lane: the READY of the active lane (R139). -/
def State.startInfo (s : State) (l : LaneId) (p : Nat) : Option ReadyInfo :=
  let q := (s.lane l).part p
  match q.own, q.theirs with
  | some o, some t =>
    if !(s.lane l.other).inService then some o
    else if t.cycle = o.cycle && t.starts = o.starts then (if s.active = some l then some o else some t) else none
  | some o, none => if (s.lane l.other).inService then none else some o
  | none, _ => none

/-- Installation that has become due in a lane: cycle m - 1 is committed in both lanes and cycle m starts (R177). Step 4 of Table 05-2
is made with the joint start of cycle m (log entry 126), so that an exchange that aborts before it leaves nothing to undo (R178). -/
def Lane.installDue (x : Lane) (p : Nat) : Lane :=
  let q := x.part p
  match q.exch with
  | some e => if !e.installed && e.boundary = some (q.cycle + 1) && q.state = .running then x.install p e else x
  | none => x

/-- A time in µs as a start stamp shows it (R139). -/
def stampOf (beat : Nat) : Nat := beat / 100 % 4294967296

/-- A cycle starts at a stamp: the cycle time of the cycle before (R139, R172). The longest times are those since power-on: the spec
names no span, and no restart clears them (DESIGN CHOICE, log entry 123). -/
def Part.startAt (q : Part) (stamp : Nat) (firstCycle : Bool) : Part :=
  let dt := (stamp + 4294967296 - q.prevStamp % 4294967296) % 4294967296
  { q with startStamp := stamp, prevStamp := if firstCycle then stamp else q.prevStamp,
           lastCycle := if firstCycle then q.lastCycle else dt, maxCycle := if firstCycle then q.maxCycle else max q.maxCycle dt }

/-- The joint start of a partition's next cycle in a lane, once it holds both READY messages (R90, R92). The stamp of the start is the
active lane's beat count (R139): the active lane sends it in a READY of its own at the start, unless the READY that began the start
carries it. In the first cycle after a restart CYCLE_INFO shows the previous cycle and run time of the run before it: the spec gives no
value (DESIGN CHOICE, log entry 123). -/
def State.jointStart (s : State) (l : LaneId) (p : Nat) : State :=
  let q := (s.lane l).part p
  if (s.lane l).inService && decide (q.phase = .ready) then
    match s.startInfo l p with
    | none => s
    | some r =>
      let firstCycle := decide (q.state = .starting)
      let leads := decide (s.active = some l)
      let stamp := if leads then stampOf s.pkg.beat else r.stamp
      let fl := b2n r.snap.dom.timeValid + 2 * b2n r.snap.dom.kekLost
      let s1 := s.onLane l (fun x => (x.installDue p).onPart p (fun k => ({ k with
        phase := .asked, state := .running, own := none, theirs := none, late := none, execCount := k.execCount + 1,
        startBeat := s.pkg.beat, prevStamp := k.startStamp, stampDue := !leads && !r.started,
        lastRun := if firstCycle then k.lastRun else r.run, maxRun := if firstCycle then k.maxRun else max k.maxRun r.run,
        snap := some r.snap, freeAtStart := r.snap.free.getD (16 + p) 0, posts := [],
        flags := if firstCycle then k.flags + fl else k.flags,
        saveAge := if firstCycle then captureAge r.snap.dom k.captureMs else k.saveAge } : Part).startAt stamp firstCycle))
      let s2 := s1.requestPick l (.executive p) (q.execCount + 1)
      let s3 := if leads && !r.started && (s.lane l.other).inService then
          s2.send l (.ready p { r with stamp := stamp, started := true }) else s2
      let s4 := if firstCycle then s3.finishAll l (.partStart p) .ok (beBytes 1 4 ++ beBytes 1 q.cause) else s3
      if p = 0 then s4.p0Start l (q.execCount + 1) else s4
  else s

/-- The lane holds its partner's READY for cycle `c` of partition `p`, so that its own READY starts the cycle. -/
def Part.partnerReady (q : Part) (c : Nat) : Bool :=
  match q.theirs with | some t => t.cycle = c && t.starts = q.starts | none => false

/-- READY: a lane that has committed cycle k, or restored a starting partition, and whose minimum cycle has elapsed sends
READY for cycle k + 1 (R90). A lane that waits alone starts (R92). -/
def State.ready (s : State) (l : LaneId) (p now : Nat) : State :=
  let x := s.lane l
  let q := x.part p
  let minCycle := match q.current with | some i => 100 * i.minCycle | none => 0
  let can := x.inService && p < 16 && q.current.isSome && q.restart.isNone && decide (q.phase = .idle) &&
    (q.state = .starting || (q.state = .running && q.startBeat + minCycle ≤ now))
  if can then
    let started := decide (s.active = some l) && (q.partnerReady (q.cycle + 1) || !(s.lane l.other).inService)
    let info : ReadyInfo := ⟨q.starts, q.cycle + 1, stampOf now, started, q.ownRun, s.snapOf l⟩
    let s2 := s.onLane l (fun y => y.onPart p (fun k => { k with phase := .ready, readyBeat := now, own := some info }))
    let s3 := if (s.lane l.other).inService then s2.send l (.ready p info) else s2
    s3.jointStart l p
  else if p < 16 then s.jointStart l p
  else s

/-- The shuttle link's messages about a partition reach a lane in the order sent; the digests, which a lane compares once it has its
own, wait on a way of their own. -/
def aboutPart (p : Nat) (m : Msg) : Bool :=
  match m with
  | .ready q _ => q = p
  | .install q _ => q = p
  | .overrun q _ => q = p
  | .planDigest q _ => q = p
  | _ => false

/-- A digest of a partition's commit, or of the state at a cycle start of partition 0. -/
def digestAbout (p : Nat) (m : Msg) : Bool :=
  match m with
  | .commitDigest q .. => q = p
  | .stateDigest .. => p = 0
  | _ => false

/-- The next message about a partition, and the next digest. -/
def Lane.nextAbout (x : Lane) (p : Nat) : Option Msg := x.inbox.find? (aboutPart p)
def Lane.nextDigest (x : Lane) (p : Nat) : Option Msg := x.inbox.find? (digestAbout p)

/-- A READY of the partner reaches the partition: for a cycle that has started already it only brings the start's stamp (R139); one
from before the partition's last restart has no effect. A READY that comes within the 1 ms of R91 ends the lateness: the spec does not
say that it does (DESIGN CHOICE, log entry 123). -/
def Part.takeReady (q : Part) (i : ReadyInfo) : Part :=
  if q.stampDue && i.started && i.starts = q.starts && i.cycle = q.cycle + 1 then
    ({ q with stampDue := false }).startAt i.stamp q.first
  else if i.starts < q.starts then q
  else { q with theirs := some i, late := none }

/-- READY_RECEIVED: a lane receives its partner's READY (R90). -/
def State.readyReceived (s : State) (l : LaneId) (p : Nat) : State :=
  match (s.lane l).nextAbout p with
  | some (.ready q i) =>
    let s1 := s.onLane l (fun x => { x with inbox := x.inbox.erase (.ready q i) })
    if (s.lane l).inService then
      (s1.onLane l (fun x => x.onPart p (fun k => k.takeReady i))).jointStart l p
    else s1
  | _ => s

/-- How long a lane waits for its partner's READY, in beats: the greater of 200 µs and an eighth of the watchdog (R91). -/
def Part.lateLimit (q : Part) : Nat :=
  match q.current with | some i => max 20000 (100 * i.watchdog / 8) | none => 20000

/-- READY_LATE: a lane ready for longer than its limit finds its partner late (R91); an installation still under way excuses
it (R177). -/
def State.readyLate (s : State) (l : LaneId) (p now : Nat) : State :=
  let q := (s.lane l).part p
  let excused := match q.exch with
    | some e => if e.boundary = some (q.cycle + 1) then 200000 else 0
    | none => 0
  if (s.lane l).inService && (s.lane l.other).inService && decide (q.phase = .ready) && q.theirs.isNone && q.late.isNone &&
      decide (q.readyBeat + q.lateLimit + excused < now) then
    s.onLane l (fun x => x.onPart p (fun k => { k with late := some now }))
  else s

/-- LATE_READINESS_WINDOW: the late lane, whose fault line was not set within 1 ms, leaves service, class L (R91). -/
def State.lateWindow (s : State) (l : LaneId) (p now : Nat) : State :=
  match ((s.lane l).part p).late with
  | some t =>
    if t + msBeats ≤ now && (s.lane l.other).inService && !(s.lane l.other).faultLine then
      (s.onLane l (fun x => x.onPart p (fun k => { k with late := none }))).raise l.other 163 true
    else s
  | none => s

/-! ### Steps 3 to 5 (R78, R96, R134, R154, R192) -/

/-- The newest frame of region `r` that is agreed (R96): with both lanes in service, in both of them. -/
def State.commonFrame (s : State) (l : LaneId) (r : Nat) : SFrame :=
  let fs := tget [] (s.lane l).blk.pnt.frames r
  if (s.lane l.other).inService then
    let gs := tget [] (s.lane l.other).blk.pnt.frames r
    (fs.find? (fun f => gs.any (fun g => g.number = f.number))).getD ⟨0, [], 0⟩
  else (fs.head?).getD ⟨0, [], 0⟩

/-- The frame numbers of a cycle's snapshot: those that the lane which made it first took (R96). -/
def State.snapNumbers (s : State) (l : LaneId) (p : Nat) : List Nat :=
  let k := ((s.lane l).part p).cycle + 1
  match ((s.lane l.other).part p).snapFrames with
  | some (c, ns) =>
    if (s.lane l.other).inService && c = k then ns else (List.range 8).map (fun r => (s.commonFrame l r).number)
  | none => (List.range 8).map (fun r => (s.commonFrame l r).number)


/-- Points of the clusters that partition `p` owns. -/
def Lane.ownedPoints (x : Lane) (p : Nat) : List Nat := (List.range 512).filter (fun i => x.pointOwner i = p)

/-- The memories of a partition for variables: shared window and the lead core's private memory. -/
def Lane.memories (x : Lane) (p : Nat) : Memories :=
  ⟨(x.part p).shared, match (x.part p).coreList with | c :: _ => (x.core c).mem | [] => []⟩

/-- Write bytes to the executive's overlay of the held region (R155). -/
def Part.putOverlay (q : Part) (a : Nat) (bs : List Byte) : Part :=
  { q with overlay := (bs.zipIdx a).foldl (fun o e => oset o e.2 e.1) q.overlay }

/-- A byte of the shared window as a core reads it when its own buffer does not hold it. -/
def Part.sharedByte (q : Part) (a : Nat) : Byte := match q.overlay.lookup a with | some b => b | none => tget 0 q.shared a

/-- The executive writes a symbol's bytes: into the overlay for the held region, at once elsewhere. -/
def Lane.execWrite (x : Lane) (p : Nat) (sy : Symbol) (bs : List Byte) : Lane :=
  let v := sy.inRegion bs
  if sy.region = 1 then
    (match (x.part p).coreList with
     | c :: _ => x.onCore c (fun k => { k with mem := memWrite k.mem sy.offset v })
     | [] => x)
  else if sy.region = 2 then x.onPart p (fun q => { q with shared := memWrite q.shared sy.offset v })
  else x.onPart p (fun q => q.putOverlay (regionBase sy.region + sy.offset) v)

/-- The variable forces of a cycle, with the symbol that each names in the running image. -/
def Part.varForces (q : Part) (p : Nat) : List (Symbol × Force) :=
  match q.runImage with
  | none => []
  | some i => (q.forces.filter (fun f => f.kind = 3 && f.part = p)).filterMap (fun f =>
      (i.symbols.find? (fun s => s.kind = 3 && s.id = f.target)).map (fun s => (s, f)))

/-- A timer record advanced by `dt` µs: its new bytes, and whether it expired with EVENT = 1 (R154, Table 04-7). -/
def timerStep (dt : Nat) (bs : List Byte) : List Byte × Bool :=
  let c := leAt bs 0 4
  if c % 2 = 0 then (bs, false)
  else
    let preset := leAt bs 4 4
    let el := (leAt bs 8 8 + dt) % 2 ^ 64
    let done := decide (c / 2 % 2 = 0) && decide (1000 * preset ≤ el)
    (leBytes 4 (if done then c + 2 else c) ++ leBytes 4 preset ++ leBytes 8 el, done && decide (c / 4 % 2 = 1))

/-- Step 4: running timers advance, input and variable forces are applied (R154, R155, R192). -/
def Lane.prepare (x : Lane) (p : Nat) : Lane :=
  let q := x.part p
  let dt := (q.startStamp + 4294967296 - q.prevStamp % 4294967296) % 4294967296
  let timers : List Symbol := match q.runImage with
    | some i => i.symbols.filter (fun s => s.kind = 1 && s.region = 4)
    | none => []
  let y := timers.foldl (fun (z : Lane) (s : Symbol) =>
    let k := z.part p
    let bs := (List.range 16).map (fun i => k.sharedByte (areaBase + s.offset + i))
    let r := timerStep dt bs
    (if r.1 = bs then z else z.execWrite p s r.1).onPart p (fun k =>
      if r.2 then { k with timerEvents := k.timerEvents ++ [s.id] } else k)) x
  let z : Lane := y.onPart p (fun (k : Part) =>
    let fs : List Force := k.forces.filter (fun f => f.kind = 1 && f.part = p)
    { k with inputs := fs.foldl (fun t f => tput 0 t f.target (BitVec.ofNat 32 f.value.toNat)) k.inputs })
  ((z.part p).varForces p).foldl (fun (w : Lane) (e : Symbol × Force) => w.execWrite p e.1 (leBytes e.1.size e.2.value.toNat)) z

/-- A core at the entry of step 5 (R134). Register numbers: 1 ra, 2 sp, 10 a0, 11 a1, 12 a2. -/
def entryRegs (rank cores : Nat) (first : Bool) : Tab Word :=
  tput 0 (tput 0 (tput 0 (tput 0 (tput 0 [] 1 Config.execReturn) 2 0x00080000#32) 10 (w32 rank)) 11 (w32 cores))
    12 (w32 (b2n first))

/-- Every core of the partition begins at the entry point. -/
def Lane.enterCores (x : Lane) (p : Nat) : Lane :=
  let q := x.part p
  let entry := match q.runImage with | some i => i.entry | none => 0
  q.coreList.foldl (fun (y : Lane) c => y.onCore c (fun k => { k with
    run := .running, pc := w32 entry, regs := entryRegs (x.coreRank p c) q.coreList.length q.first, wbuf := [],
    pickCalls := 0, waited := 0 })) x

/-- The pick `n` is released in a lane (R60). -/
def Lane.isReleased (x : Lane) (n : Word) : Bool := n = x.blk.pick.released || serialBefore n x.blk.pick.released

/-- CYCLE_RUN_START: after the release of the cycle's pick, steps 3 and 4 take place and the cores begin (R78, R140). -/
def State.cycleRunStart (s : State) (l : LaneId) (p now : Nat) : State :=
  let x := s.lane l
  let q := x.part p
  if p < 16 && x.inService && decide (q.phase = .pick) && x.isReleased q.ticket &&
      !(q.stampDue && (s.lane l.other).inService) then
    let ns := s.snapNumbers l p
    let view : Nat → UnitView := fun i =>
      match (tget [] x.blk.pnt.frames (i / 64)).find? (fun f => f.number = ns.getD (i / 64) 0) with
      | some f => tget {} f.units (i % 64)
      | none => {}
    let pts := x.ownedPoints p
    let y := x.onPart p (fun k => { k with
      phase := .run, runBeat := now, visible := k.ticket, timerEvents := [], overlay := [],
      snapFrames := some (k.cycle + 1, ns),
      stampDue := false,
      inputs := pts.foldl (fun t i => tput 0 t i (view i).seen) [],
      inStat := (List.range 512).foldl (fun t i => tput 0 t i (view i).stat) [] })
    s.onLane l (fun _ => ((y.prepare p).enterCores p))
  else s

/-! ### Steps 6 and 7 (R104, R138, R147 to R150, R192) -/

/-- Word address of the output image. -/
def outImageWord : Nat := 0x20000800 / 4
def sharedWord : Nat := 0x10000000 / 4

/-- A buffered word of the output image. -/
def isOutWord (w : Nat) : Bool := outImageWord ≤ w && w < outImageWord + 512

/-- Word address of LOOP_CMD[0]; LOOP_SP and LOOP_MAN follow, 256 words each (Table 07-6). -/
def loopRegWord : Nat := 0x40041000 / 4
def isLoopWord (w : Nat) : Bool := loopRegWord ≤ w && w < loopRegWord + 768

/-- The alarm register that a word address names (Table 13-3). -/
def alarmWord (w : Nat) : Option PwReg :=
  let a := 0x40080050 / 4
  if a ≤ w && w < a + 4 then some (.alm (w - a)) else if a + 4 ≤ w && w < a + 8 then some (.almCtl (w - a - 4)) else none

/-- A buffered word is applied at the commit of cycle `k`: to the shared window, the output image or a loop register (R147,
R249). A point that has moved to another owner in the cycle keeps its word (R239). -/
def Lane.applyWord (x : Lane) (p k : Nat) (e : Nat × Word) : Lane :=
  if isOutWord e.1 then
    (if x.pointOwner (e.1 - outImageWord) = p then
       x.onMan (fun m => { m with outImage := tput 0 m.outImage (e.1 - outImageWord) e.2 })
     else x)
  else if isLoopWord e.1 then
    (x.writeLoopReg ((e.1 - loopRegWord) % 256) ((e.1 - loopRegWord) / 256) e.2 (.cycle p (x.part p).starts k)).1
  else if (alarmWord e.1).isSome then x
  else x.onPart p (fun q => { q with shared := memWrite q.shared (4 * (e.1 - sharedWord)) (leBytes 4 e.2.toNat) })

/-- The active lane's lane manager posts the committed alarm writes in commit order (R475). -/
def State.postAlarms (s : State) (l : LaneId) (words : List (Nat × Word)) : State :=
  if s.active = some l then
    words.foldl (fun (t : State) e => match alarmWord e.1 with
      | some r => t.postWrite { lane := l, reg := r, words := [e.2], core := true } true
      | none => t) s
  else s

/-- WRITE_POINTS that apply at the commit of a cycle of partition `p` whose pick is `n`: for points of the partition, from
commands of earlier epochs (R354). -/
def Lane.dueWrites (x : Lane) (p : Nat) (n : Word) : List (Word × Nat × Word) :=
  x.man.pointWrites.filter (fun w => serialBefore w.1 n && decide (x.pointOwner w.2.1 = p))


/-- Step 6: the output forces of the cycle act on the partition's points (R192), as far as no loop output write of a later pick has
already done so (R191). -/
def Lane.stepSix (x : Lane) (p : Nat) : Lane :=
  let q := x.part p
  let fs := q.forces.filter (fun f => f.kind = 2)
  let act := fun (m : Manager) (i : Nat) =>
    if m.forcedLater i q.ticket then m
    else m.setForced i q.ticket ((fs.find? (fun f => f.target = i)).map (fun f => BitVec.ofNat 32 f.value.toNat))
  x.onMan (fun m => (x.ownedPoints p).foldl act m)

/-- The lane manager takes a ring post at the commit: a recorder note, a CAN transmit entry of partition 0, or an entry of
another type, which it drops and counts (R421, R454). -/
def Lane.takePost (x : Lane) (l : LaneId) (p now cycle : Nat) (bs : List Byte) : Lane :=
  let w := entryWord bs 0
  let y := x.onRing (16 + p) (fun g => { g with posted := g.posted + 1, taken := g.taken + 1 })
  if field w 7 0 = 0x12 then
    y.onRec (fun r => { r with notes := r.notes ++ [PendingRec.mk (field w 31 16) p 0x10 cycle
      (((List.range 4).map (fun i => beBytes 4 (entryWord bs (1 + i)).toNat)).flatten)] })
  else if field w 7 0 = 0x21 && p = 0 then y.moveCanTx l bs now
  else y.onRing (16 + p) Ring.dropOne

/-- What a cycle wrote to output points: point and word, in order. -/
def cycleOutputs (ws : List (Nat × Word)) : List Nat :=
  ((ws.filter (fun e => isOutWord e.1)).map (fun e => e.1 - outImageWord)).foldl (fun t i => insSorted i t) []

/-- The new image becomes the running image and the load slot becomes empty (step 6 of Table 05-2). -/
def Lane.finishExchange (x : Lane) (p : Nat) (e : Exchange) : Lane :=
  let st := x.flash.loaded.lookup p
  ((x.keepTable p (x.part p).current).onPart p (fun k => { k with exch := none, loaded := none, current := some e.image })).onFlash
    (fun f => { f with loaded := odel f.loaded p, running := match st with | some im => oset f.running p im | none => f.running })

/-- The exchange of partition `p` is complete at the commit of cycle m (step 6 of Table 05-2). -/
def State.completeExchange (s : State) (l : LaneId) (p : Nat) (e : Exchange) : State :=
  let s1 := s.onLane l (fun x => x.finishExchange p e)
  let s2 := s1.finishAll l (.exchange p) .ok
    (beBytes 2 e.image.gen.toNat ++ beBytes 1 (b2n e.retainDiscarded) ++ zeros 1 ++
      beBytes 4 (((s.lane l).part p).ticket).toNat ++ beBytes 2 e.mismatches ++ beBytes 2 e.dropped)
  -- the save of R161, at the first pick of the active lane from now on
  if s.active = some l then
    let n := (s.lane l).blk.pick.opened
    let ask := fun (x : Lane) => x.onMan (fun m => { m with saveAt := some (m.saveAt.getD n) })
    (s2.onLane l ask).onLane l.other ask
  else s2

/-- Steps 6 and 7 of a cycle in a lane. -/
def State.commit (s : State) (l : LaneId) (p now : Nat) : State :=
  let x := s.lane l
  let q := x.part p
  let k := q.cycle + 1
  let writes := x.dueWrites p q.ticket
  let words := q.coreList.flatMap (fun c => (x.core c).wbuf)
  let x1 := x.stepSix p
  let x2 := x1.onMan (fun m => { m with
    outImage := writes.foldl (fun t w => tput 0 t w.2.1 w.2.2) m.outImage
    committed := ((List.range 64).filter (fun c => x.pointOwner (8 * c) = p)).foldl (fun t c => insSorted c t) m.committed
    pointWrites := m.pointWrites.filter (fun w => !writes.contains w) })
  let x3 := x2.onPart p (fun r => { r with shared := r.overlay.foldl (fun m e => tput 0 m e.1 e.2) r.shared, overlay := [] })
  let x4 := words.foldl (fun (y : Lane) e => y.applyWord p k e) x3
  let x5 := (q.varForces p).foldl (fun (y : Lane) (e : Symbol × Force) =>
    let v := e.1.inRegion (leBytes e.1.size e.2.value.toNat)
    if e.1.region = 1 then y.execWrite p e.1 v
    else y.onPart p (fun r => { r with shared := memWrite r.shared (regionBase e.1.region + e.1.offset) v })) x4
  let x6 := q.coreList.foldl (fun (y : Lane) c => y.onCore c (fun r => { r with wbuf := [], run := .idle })) x5
  let x7 := q.posts.foldl (fun (y : Lane) bs => y.takePost l p now k bs) x6
  let x8 := q.timerEvents.foldl (fun (y : Lane) id => y.enter l 4 p p (.timer id k)) x7
  let touched := cycleOutputs (words ++ writes.map (fun w => (outImageWord + w.2.1, w.2.2)))
  let forcedPts := (q.forces.filter (fun f => f.kind = 2 && f.part = p)).map (·.target)
  let d := Config.digest (touched.map (fun i => (i, tget 0 x8.man.outImage i)), q.posts)
  let x9 := x8.onPart p (fun r => { r with
    cycle := k, phase := .idle, first := false, ownRun := (now - r.runBeat) / 100, posts := [],
    timerEvents := [], digest := d,
    shared := if r.freshSet then (match r.runImage with | some i => i.clearFresh r.shared | none => r.shared) else r.shared,
    freshSet := false })
  let regions := (List.range 8).filter (fun g => (touched ++ forcedPts).any (fun i => i / 64 = g))
  let run := (now - q.runBeat) / 100
  let limit := match q.runImage with | some i => i.watchdog | none => 0
  let x10 : Lane := (regions.foldl (fun (y : Lane) g => y.sendUpdate g now) x9).load (decide (7 * limit < 10 * run))
    (decide (limit < 2 * run)) now
  let s1 := (s.onLane l (fun _ => x10)).postAlarms l words
  let s2 := if (s.lane l.other).inService then s1.send l (.commitDigest p k d) else s1
  match q.exch with
  | some e => if e.installed && e.boundary = some k then s2.completeExchange l p e else s2
  | none => s2

/-- CORE_RETURN: a core that stands at the executive's return address has ended its part of the cycle; with the last core of
the partition, steps 6 and 7 follow (R134, R140). -/
def State.coreReturn (s : State) (l : LaneId) (c now : Nat) : State :=
  let x := s.lane l
  match x.corePart c with
  | none => s
  | some p =>
    let k := x.core c
    if c < 16 && x.inService && decide (k.run = .running) && decide ((x.part p).phase = .run) &&
        decide (k.pc = (Config.execReturn &&& 0xFFFFFFFE#32)) then
      let s1 := s.onLane l (fun y => y.onCore c (fun r => { r with run := .returned }))
      if (x.part p).coreList.all (fun d => decide (d = c) || decide ((x.core d).run = .returned)) then s1.commit l p now
      else s1
    else s

/-! ### Overruns, faults and aborted exchanges -/

/-- The exchange of partition `p` is aborted in a lane (Table 05-4). One that has reached cycle m is not undone: the partition leaves
RUNNING in cycle m with the new image as its running image (R180; that its reply is then EXCHANGE_ABORTED is DESIGN CHOICE, log entry
126). -/
def State.abortExchangeIn (s : State) (l : LaneId) (p : Nat) (st : Status) : State :=
  match ((s.lane l).part p).exch with
  | none => s
  | some e =>
    (s.onLane l (fun x => if e.installed then x.finishExchange p e else x.onPart p (fun k => { k with exch := none }))).finishAll
      l (.exchange p) st []

/-- The exchange of partition `p` is aborted in both lanes. -/
def State.abortExchange (s : State) (p : Nat) (st : Status) : State :=
  (s.abortExchangeIn .a p st).abortExchangeIn .b p st

/-- A lane stops a partition's cycle without a commit and puts it in SAFE (R133, R143). -/
def State.enterSafe (s : State) (l : LaneId) (p : Nat) : State :=
  let x := s.lane l
  let y := (x.part p).coreList.foldl (fun (y : Lane) c => y.onCore c (fun k => { k with run := .idle, wbuf := [] })) x
  (s.onLane l (fun _ => y.onPart p (fun k => { k with
    state := .safe, phase := .idle, wasSafe := true, own := none, theirs := none, late := none, overlay := [], posts := [],
    timerEvents := [] }))).abortExchangeIn l p .exchangeAborted

/-- A program fault of core `c` in a lane (R133): class S for the partition, with a recorder entry. -/
def State.programFault (s : State) (l : LaneId) (p c : Nat) (pc word : Word) : State :=
  let x := s.lane l
  let s1 := s.onLane l (fun y => (y.onPart p (fun k => { k with faults := k.faults + 1 })).detail 0x0001 p
    (beBytes 1 c ++ beBytes 1 (x.coreRank p c) ++ zeros 2 ++ beBytes 4 pc.toNat ++ beBytes 4 word.toNat ++ zeros 4))
  (s1.enterSafe l p).raise l (bitProgramFault p) false

/-- An overrun in a lane (R143). -/
def State.overrunIn (s : State) (l : LaneId) (p : Nat) : State :=
  ((s.onLane l (fun x => (x.onPart p (fun k => { k with overruns := k.overruns + 1 })).load true true s.pkg.beat)).enterSafe l p).raise l
    (bitPartOverrun p) false

/-- Beats that a core has used of its watchdog: those since the start of step 5 outside PICK calls (R142). -/
def Part.used (q : Part) (k : Core) (now : Nat) : Nat :=
  now - q.runBeat - k.waited - (match k.run with | .waiting _ => now - k.waitStart | _ => 0)

/-- WATCHDOG_OVERRUN: the active lane's count has reached the watchdog before every core returned (R142, R143). -/
def State.watchdog (s : State) (p now : Nat) : State :=
  match s.active with
  | none => s
  | some l =>
    let x := s.lane l
    let q := x.part p
    match q.runImage with
    | none => s
    | some i =>
      if p < 16 && x.inService && decide (q.phase = .run) && q.coreList.any (fun c =>
          decide ((x.core c).run ≠ .returned) && decide (100 * i.watchdog ≤ q.used (x.core c) now)) then
        let s1 := s.overrunIn l p
        if (s.lane l.other).inService then s1.send l (.overrun p (q.cycle + 1)) else s1
      else s

/-- OVERRUN_NOTICE: the standby lane receives an overrun notice (R143). A cycle that it had already committed keeps its
commit. -/
def State.overrunNotice (s : State) (l : LaneId) (p : Nat) : State :=
  match (s.lane l).nextAbout p with
  | some (.overrun q c) =>
    let s1 := s.onLane l (fun x => { x with inbox := x.inbox.erase (.overrun q c) })
    if (s.lane l).inService && decide (((s.lane l).part p).state = .running) then s1.overrunIn l p else s1
  | _ => s

/-! ### Commit and state digests (R104, R105) -/

/-- The front-end comparison shows a disagreement (R104). -/
def State.outputsDiffer (s : State) : Bool := (List.range 8).any (fun r => (s.fe r).shows)

/-- A comparison that differs (R104, R116). -/
def State.digestDiffers (s : State) (l : LaneId) : State :=
  let shown := s.outputsDiffer
  (s.onLane l (fun x => (x.onLaneBlk (fun b => { b with
    digestMismatch := b.digestMismatch + 1,
    digestDiff := if shown then b.digestDiff else some (b.digestDiff.getD s.pkg.beat) })).restartHoldoff)).onLane l.other
    (fun x => x.restartHoldoff)

/-- COMMIT_DIGEST: a lane receives its partner's next commit digest of a partition, or its state digest for partition 0, and
compares it with its own once it has one (R104, R105). -/
def State.compareDigest (s : State) (l : LaneId) (p : Nat) : State :=
  let x := s.lane l
  let q := x.part p
  match x.nextDigest p with
  | some (.commitDigest r c d) =>
    let s1 := s.onLane l (fun y => { y with inbox := y.inbox.erase (.commitDigest r c d) })
    if !x.inService then s1
    else if q.cycle < c then s
    else if q.cycle = c && q.digest ≠ d then s1.digestDiffers l
    else s1
  | some (.stateDigest c d) =>
    let s1 := s.onLane l (fun y => { y with inbox := y.inbox.erase (.stateDigest c d) })
    if !x.inService then s1
    else if x.blk.lane.digestNo < c then s
    else if x.blk.lane.digestNo = c then
      let s2 := s1.onLane l (fun y => y.onLaneBlk (fun b => { b with compared := b.digest }))
      if x.blk.lane.digest ≠ d then s2.digestDiffers l else s2
    else s1
  | _ => s

/-- DIGEST_WINDOW: neither fault line was set within 1 ms of a difference, so the standby lane leaves service (R104). -/
def State.digestWindow (s : State) (l : LaneId) (now : Nat) : State :=
  match (s.lane l).blk.lane.digestDiff with
  | some t =>
    if t + msBeats ≤ now then
      let clear := fun (x : Lane) => x.onLaneBlk (fun b => { b with digestDiff := none })
      let s1 : State := { s with a := clear s.a, b := clear s.b }
      if s.a.inService && s.b.inService && !s.a.faultLine && !s.b.faultLine && !s.outputsDiffer then
        s1.raise s.activeLane.other 164 true
      else s1
    else s
  | none => s

/-! ### Exchange steps 2 to 4 (Table 05-2) -/

/-- A lane's plan digest (R176). -/
def Lane.planDigest (x : Lane) (p : Nat) (e : Exchange) : BitVec 64 :=
  Config.digest (e.image.digest, matchPlan ((((x.part p).current).map (·.symbols)).getD []) e.image.symbols)

/-- The active lane that holds both plan digests compares them and names the boundary cycle (R176). -/
def State.agreePlan (s : State) (l : LaneId) (p : Nat) : State :=
  let x := s.lane l
  let q := x.part p
  match q.exch with
  | none => s
  | some e =>
    if s.active ≠ some l || !e.staged || e.boundary.isSome then s
    else
      let name := fun (t : State) =>
        let m := if q.phase = .idle then q.cycle + 1 else q.cycle + 2
        let t1 := t.onLane l (fun y => y.onPart p (fun k => { k with exch := some { e with boundary := some m } }))
        if (t.lane l.other).inService then t1.send l (.install p m) else t1
      if !(s.lane l.other).inService then name s
      else match e.theirs with
        | none => s
        | some d =>
          if d = x.planDigest p e then name s
          else ((s.flag l 2080 false).flag l.other 2080 false).abortExchange p .lanesDisagree

/-- EXCHANGE_STAGED: a lane has read the loaded image from its own flash and checked it against its digest record (step 2 of
Table 05-2). -/
def State.exchangeStaged (s : State) (l : LaneId) (p : Nat) (digestOk : Bool) : State :=
  let x := s.lane l
  match (x.part p).exch with
  | none => s
  | some e =>
    if !x.inService || e.staged then s
    else
      let good := digestOk && (match x.flash.loaded.lookup p with | some i => i.checks | none => true)
      if good then
        let s1 := s.onLane l (fun y => y.onPart p (fun k => { k with exch := some { e with staged := true } }))
        let s2 := if (s.lane l.other).inService then s1.send l (.planDigest p (x.planDigest p e)) else s1
        s2.agreePlan l p
      else (s.flag l 2079 false).abortExchange p .exchangeAborted

/-- PLAN_DIGEST: a lane receives its partner's plan digest (step 3 of Table 05-2). -/
def State.planReceived (s : State) (l : LaneId) (p : Nat) : State :=
  match (s.lane l).nextAbout p with
  | some (.planDigest q d) =>
    let s1 := s.onLane l (fun x => { x with inbox := x.inbox.erase (.planDigest q d) })
    (s1.onLane l (fun x => x.onPart p (fun k =>
      { k with exch := k.exch.map (fun e => { e with theirs := some d }) }))).agreePlan l p
  | _ => s

/-- INSTALL: the standby lane receives INSTALL(m); it installs with the joint start of cycle m (R176, R177). -/
def State.installReceived (s : State) (l : LaneId) (p : Nat) : State :=
  match (s.lane l).nextAbout p with
  | some (.install q m) =>
    let s1 := s.onLane l (fun x => { x with inbox := x.inbox.erase (.install q m) })
    s1.onLane l (fun x => x.onPart p (fun k => { k with exch := k.exch.map (fun e => { e with boundary := some m }) }))
  | _ => s

/-- Step 4 of the exchange of partition `p` has begun in a lane (Table 05-4). -/
def Lane.installBegun (x : Lane) (p : Nat) : Bool := match (x.part p).exch with | some e => e.installed | none => false

/-- EXCHANGE_TIMEOUT: step 4 has not begun in either lane within 2 s of acceptance (Table 05-4). -/
def State.exchangeTimeout (s : State) (l : LaneId) (p now : Nat) : State :=
  match ((s.lane l).part p).exch with
  | some e =>
    if e.beat + 200000000 ≤ now && !s.a.installBegun p && !s.b.installBegun p then s.abortExchange p .exchangeAborted else s
  | none => s

/-! ### Restarts (R164) -/

/-- PARTITION_STARTING: at the partition's cycle boundary a restart takes effect in a lane (R164). It aborts an exchange in
progress (R179). A partition in SAFE leaves it only by FAULT_ACK, so the restart waits for that (R145, log entry 62). -/
def State.partitionStarting (s : State) (l : LaneId) (p : Nat) : State :=
  let x := s.lane l
  let q := x.part p
  match q.restart with
  | none => s
  | some r =>
    if p < 16 && x.inService && q.state ≠ .safe && (q.phase = .idle || q.phase = .ready || q.state ≠ .running) then
      let s1 := s.abortExchangeIn l p .exchangeAborted
      s1.onLane l (fun y => y.startPart l p r (match q.boot with | some b => some b | none => s.restoredPart p))
    else s

/-! ### Saves (R157, R158, R120, R498) -/

/-- SAVE_PERIOD_EXPIRY: a save period has passed since the last save began, so the active lane chooses its next pick for a
periodic save (R157). -/
def State.savePeriodExpiry (s : State) (now : Nat) : State :=
  match s.active with
  | none => s
  | some l =>
    let x := s.lane l
    if x.inService && x.man.saveAt.isNone && !x.blk.pwr.warn && x.man.lastSave + 100000 * x.blk.pwr.savePeriod ≤ now then
      let n := x.blk.pick.opened
      let ask := fun (y : Lane) => if y.inService then y.onMan (fun m => { m with saveAt := some (m.saveAt.getD n) }) else y
      { s with a := ask s.a, b := ask s.b }
    else s

/-- SAVE_COMPLETE: the closing record of a lane's save has been written and read back (R120); RETAIN_SAVE commands that it
serves are answered (R158). -/
def State.saveComplete (s : State) (l : LaneId) : State :=
  match (s.lane l).man.saveJob with
  | none => s
  | some j =>
    let s1 := s.onLane l (fun x => (List.range 16).foldl (fun (y : Lane) p => y.keepTable p none) x.completeSave)
    s1.finishAll l (.saveDone j.save.number) .ok (beBytes 8 j.save.number)

/-- Answer the outstanding command of a header. -/
def State.finishCmd (s : State) (l : LaneId) (h : Hdr) (st : Status) (params : List Byte) : State :=
  ((s.lane l).man.outstanding.filter (fun o => o.hdr = h)).foldl (fun (t : State) o => t.finish l o st params) s

/-- Steps 5 to 7 of R534 in a lane: the image fills the load slot with its digest record, extends the partition's entry, and the
command is answered. -/
def State.takeImage (s : State) (l : LaneId) (w : NewImage) : State :=
  let s1 := s.onLane l (fun x =>
    ((({ x with imgWait := x.imgWait.filter (fun v => v.hdr ≠ w.hdr) } : Lane).keepTable w.part (x.part w.part).loaded).onPart
      w.part (fun q => { q with loaded := some w.image })).onFlash (fun f => { f with
        loaded := oset f.loaded w.part (storeImage w.image w.bytes) }) |>.extend (4 + w.part / 4) (imageInput w.part w.image))
  s1.finishCmd l w.hdr .ok (beBytes 2 w.image.gen.toNat ++ zeros 2 ++ w.image.digest)

/-- Images that both lanes have written, or that a lane alone has, fill their slots: the lanes act as one (R170, R534). -/
def State.settleImages (s : State) : State :=
  let ready := fun (x y : Lane) => x.imgWait.filter (fun w => !y.inService || y.imgWait.any (fun v => v.hdr = w.hdr))
  let da := ready s.a s.b
  let db := ready s.b s.a
  db.foldl (fun (t : State) w => t.takeImage .b w) (da.foldl (fun (t : State) w => t.takeImage .a w) s)

/-- An image that one lane cannot write is taken in neither: a failure leaves the loaded image and every entry unchanged (R534). -/
def State.failImage (s : State) (h : Hdr) : State :=
  let isIt := fun (j : FlashJob × Nat) => match j.1 with | .image w => decide (w.hdr = h) | _ => false
  let drop := fun (x : Lane) => { x with job := x.job.filter (fun j => !isIt j), imgWait := x.imgWait.filter (fun w => w.hdr ≠ h) }
  (({ s with a := drop s.a, b := drop s.b } : State).finishCmd .a h .lanesDisagree []).finishCmd .b h .lanesDisagree []

/-- WRITE_RETRY: a lane's save or flash write whose read-back failed is repeated; `readBackOk` tells whether one of the two
repeats succeeded. When none did, the write is abandoned, class N (R498): a RETAIN_SAVE that the save served is served by the
next one, and a PROGRAM_LOAD ends with LANES_DISAGREE, since one lane lacks the image. -/
def State.writeRetry (s : State) (l : LaneId) (readBackOk : Bool) : State :=
  let x := s.lane l
  if readBackOk then s
  else match x.man.saveJob, x.job with
    | some j, _ =>
      let n := j.save.number
      let retarget := fun (o : Outstanding) => if o.why = .saveDone n then { o with why := .saveDone (n + 1) } else o
      let waits := x.man.outstanding.any (fun o => o.why = .saveDone n)
      (s.onLane l (fun y => y.abandonSave.onMan (fun m => { m with
        outstanding := m.outstanding.map retarget
        saveAt := if waits then some (m.saveAt.getD y.blk.pick.opened) else m.saveAt }))).flag l 2087 false
    | none, j :: r =>
      let s1 := (s.onLane l (fun y => { y with job := r })).flag l 2087 false
      (match j.1 with
       | .image w => s1.failImage w.hdr
       | _ => s1)
    | none, [] => s

/-! ### The program opcodes (Table 04-15) -/

/-- The sender of a command may act on partition `p`: partition 0, or the partition itself. -/
def ownPart (h : Hdr) (p : Nat) : Bool := h.sender.getD 0 = 0 || h.sender.getD 0 = p

/-- The image that a RESTART starts: the loaded one when there is one (R166). -/
def Part.startImage (q : Part) : Option Image := match q.loaded with | some i => some i | none => q.current

/-- RESTART: the checks of R128, R129 and R166. -/
def State.checkRestart (s : State) (l : LaneId) (h : Hdr) (p : Nat) (mask : BitVec 16) : Option Status :=
  let x := s.lane l
  let q := x.part p
  let taken := (List.range 16).any (fun r => decide (r ≠ p) && decide (((x.part r).grant &&& mask) ≠ 0) &&
    ((x.part r).state = .starting || (x.part r).state = .running || (x.part r).state = .safe))
  if 16 ≤ p then some .badParam
  else if !ownPart h p || (h.sender.getD 0 ≠ 0 && mask ≠ 0) then some .notPermitted
  else match q.startImage with
    | none => some .badParam
    | some i =>
      if taken || ((if mask = 0 then q.grant else mask) = 0) then some .badParam
      else if !s.pkg.dom.timeValid && i.requiresTime then some .timeInvalid
      else none

/-- RESTART: it waits for the cycle boundary. A partition in WAIT_TIME that its own partition, other than 0, asks to restart
stays there, and the reply leaves at once (R166, Table 09-12). -/
def runRestart (x : Lane) (h : Hdr) (p mode : Nat) (mask : BitVec 16) : Lane × Answer :=
  let q := x.part p
  if q.state = .waitTime && h.sender.getD 0 ≠ 0 then (x, .done .ok (beBytes 1 2 ++ beBytes 1 q.cause))
  else (x.onPart p (fun k => { k with restart := some ⟨mode, mask, 0⟩ }), .later (.partStart p))

/-- The parameters of CYCLE_STATUS (R172, Table 09-12). -/
def Lane.cycleStatus (x : Lane) (p : Nat) : List Byte :=
  let q := x.part p
  let gen := fun (i : Option Image) => match i with | some j => j.gen.toNat | none => 0
  beBytes 1 (partCode q.state) ++ beBytes 1 q.cause ++ beBytes 1 q.flags ++ beBytes 1 (b2n q.loaded.isSome) ++
  beBytes 2 q.grant.toNat ++ beBytes 2 (gen q.current) ++ beBytes 2 (gen q.loaded) ++ zeros 2 ++ beBytes 8 q.cycle ++
  beBytes 4 q.lastCycle ++ beBytes 4 q.maxCycle ++ beBytes 4 q.lastRun ++ beBytes 4 q.maxRun ++ beBytes 4 q.overruns ++
  beBytes 4 q.faults ++ beBytes 8 x.man.newestPeriodic ++ beBytes 8 x.man.newestFinal

/-- CYCLE_STATUS and RETAIN_SAVE: range and sender. -/
def checkPart (h : Hdr) (p : Nat) : Option Status :=
  if 16 ≤ p then some .badParam else if !ownPart h p then some .notPermitted else none

/-- RETAIN_SAVE: a save at the next pick; one that is being written finishes first (R158). -/
def runRetainSave (x : Lane) (e : Word) : Lane × Answer :=
  (x.onMan (fun m => { m with saveAt := some (m.saveAt.getD (e + 1)) }), .later (.saveDone (x.man.saveNumber + 1)))

/-- A load or an exchange for partition `p` is in progress. -/
def Lane.programBusy (x : Lane) (p : Nat) : Bool :=
  ((x.part p).exch).isSome ||
  x.man.senders.any (fun q => q.2.transfers.any (fun t => match t.op with | .programLoad r _ _ => r = p | _ => false)) ||
  x.job.any (fun j => match j.1 with | .image w => w.part = p | _ => false) || x.imgWait.any (fun w => w.part = p)

/-- PROGRAM_EXCHANGE: Table 05-1, in its order. -/
def State.checkExchange (s : State) (l : LaneId) (h : Hdr) (p : Nat) (retainMatch : Bool) (gen : BitVec 16) :
    Option Status :=
  let x := s.lane l
  let q := x.part p
  if 16 ≤ p then some .badParam
  else if !ownPart h p then some .notPermitted
  else match q.loaded, q.current with
    | some i, some c =>
      if q.state ≠ .running || i.gen ≠ gen || i.gen = c.gen || (retainMatch && i.retainSig ≠ c.retainSig) ||
          (i.symbols.any (fun s => s.kind = 2) && i.freshSym.isNone) then some .badParam
      else if !s.pkg.dom.timeValid && i.requiresTime then some .timeInvalid
      else if x.programBusy p then some .busy
      else none
    | _, _ => some .badParam

/-- PROGRAM_EXCHANGE: step 1 of Table 05-2. -/
def runExchange (x : Lane) (h : Hdr) (e : Word) (now p : Nat) : Lane × Answer :=
  match (x.part p).loaded with
  | some i => (x.onPart p (fun k => { k with exch := some { hdr := h, epoch := e, beat := now, image := i } }),
      .later (.exchange p))
  | none => (x, .done .badParam [])

/-- Partitions in WAIT_TIME start at the first accepted TIME_SET, in their configured modes; one whose grant is empty stops,
class N (R129, R166). -/
def State.startWaiting (s : State) (l : LaneId) : State :=
  (List.range 16).foldl (fun (t : State) p =>
    let q := (t.lane l).part p
    if q.state ≠ .waitTime then t
    else if q.grant = 0 then
      (t.onLane l (fun x => x.onPart p (fun k => { k with state := .stopped }))).flag l 2095 false
    else t.onLane l (fun x => x.onPart p (fun k => { k with restart := some ⟨0, 0, 6⟩ }))) s

/-! ### Rows -/

def execReady (l : LaneId) (part beat : Nat) (s : State) : Host.Outcome State Fault Refusal :=
  .next ((s.at_ beat).ready l part (s.at_ beat).pkg.beat)

def execReadyReceived (l : LaneId) (part : Nat) (s : State) : Host.Outcome State Fault Refusal := .next (s.readyReceived l part)

def execReadyLate (l : LaneId) (part beat : Nat) (s : State) : Host.Outcome State Fault Refusal :=
  .next ((s.at_ beat).readyLate l part (s.at_ beat).pkg.beat)

def execLateReadinessWindow (l : LaneId) (part beat : Nat) (s : State) : Host.Outcome State Fault Refusal :=
  .next ((s.at_ beat).lateWindow l part (s.at_ beat).pkg.beat)

def execCycleRunStart (l : LaneId) (part beat : Nat) (s : State) : Host.Outcome State Fault Refusal :=
  .next ((s.at_ beat).cycleRunStart l part (s.at_ beat).pkg.beat)

def execCoreReturn (l : LaneId) (core beat : Nat) (s : State) : Host.Outcome State Fault Refusal :=
  .next ((s.at_ beat).coreReturn l core (s.at_ beat).pkg.beat)

def execWatchdogOverrun (part beat : Nat) (s : State) : Host.Outcome State Fault Refusal :=
  .next ((s.at_ beat).watchdog part (s.at_ beat).pkg.beat)

def execOverrunNotice (l : LaneId) (part : Nat) (s : State) : Host.Outcome State Fault Refusal := .next (s.overrunNotice l part)

def execPartitionStarting (l : LaneId) (part : Nat) (s : State) : Host.Outcome State Fault Refusal :=
  .next (s.partitionStarting l part)

def execExchangeStaged (l : LaneId) (part : Nat) (digestOk : Bool) (s : State) : Host.Outcome State Fault Refusal :=
  .next (s.exchangeStaged l part digestOk)

def execPlanDigest (l : LaneId) (part : Nat) (s : State) : Host.Outcome State Fault Refusal := .next (s.planReceived l part)

def execInstall (l : LaneId) (part : Nat) (s : State) : Host.Outcome State Fault Refusal := .next (s.installReceived l part)

def execExchangeTimeout (l : LaneId) (part beat : Nat) (s : State) : Host.Outcome State Fault Refusal :=
  .next ((s.at_ beat).exchangeTimeout l part (s.at_ beat).pkg.beat)

def execSavePeriodExpiry (beat : Nat) (s : State) : Host.Outcome State Fault Refusal :=
  .next ((s.at_ beat).savePeriodExpiry (s.at_ beat).pkg.beat)

def execSaveComplete (l : LaneId) (s : State) : Host.Outcome State Fault Refusal := .next (s.saveComplete l)

def execWriteRetry (l : LaneId) (readBackOk : Bool) (s : State) : Host.Outcome State Fault Refusal :=
  .next (s.writeRetry l readBackOk)

def execCommitDigest (l : LaneId) (part beat : Nat) (s : State) : Host.Outcome State Fault Refusal :=
  .next ((s.at_ beat).compareDigest l part)

def execDigestWindow (l : LaneId) (beat : Nat) (s : State) : Host.Outcome State Fault Refusal :=
  .next ((s.at_ beat).digestWindow l (s.at_ beat).pkg.beat)

end Sys2Proof.Machine
end

