-- ==== Sys2Proof/Machine/Bulk.lean ====
section
/-! DEFINITION. Sequence windows (R338), bulk transfers into the module (R365 to R367), what a completed transfer does (R534, R288)
and bulk sends (R368, R370 to R374). -/

namespace Sys2Proof.Machine

/-! ### Sequence windows (R338, R369) -/

/-- A sequence number is fresh: above the high-water mark, or within 63 of it and not marked. -/
def freshSeq (high : Nat) (marked : List Nat) (n : Nat) : Bool :=
  decide (high < n) || (decide (n ≤ high) && decide (high ≤ n + 63) && !marked.contains n)

/-- The window after a fresh number. -/
def markSeq (high : Nat) (marked : List Nat) (n : Nat) : Nat × List Nat :=
  let h := max high n
  (h, insSorted n (marked.filter (fun k => decide (h ≤ k + 63))))

/-! ### Assembling a transfer (R366, R367) -/

/-- Bytes received without a gap from offset `n` on. -/
def gapless : Nat → Tab Byte → Nat
  | n, [] => n
  | n, (i, _) :: r => if i = n then gapless (n + 1) r else n

/-- Bytes of a segment added at an offset; none when a repeated byte differs. -/
def mergeBytes : Tab Byte → Nat → List Byte → Option (Tab Byte)
  | t, _, [] => some t
  | t, o, b :: r =>
    match t.lookup o with
    | some c => if c = b then mergeBytes t (o + 1) r else none
    | none => mergeBytes (oset t o b) (o + 1) r

/-- Transfers into the module that are open. -/
def Lane.openTransfers (x : Lane) : Nat := (x.man.senders.map (fun q => q.2.transfers.length)).sum

/-- Whether partition `p` may open transfer `id` now (R366, R367): a value that is not 0 and not in use, then room. -/
def Lane.transferRefused (x : Lane) (p id : Nat) : Option Status :=
  if id = 0 || (x.sender p).transfers.any (fun t => t.id = id) then some .badParam
  else if 4 ≤ (x.sender p).transfers.length || 16 ≤ x.openTransfers then some .busy
  else none

/-- Open a transfer (R366). -/
def Lane.openTransfer (x : Lane) (h : Hdr) (op : Op) (e : Word) (now id total : Nat) : Lane × Answer :=
  let p := h.sender.getD 0
  (x.onSender p (fun q => { q with transfers := q.transfers ++
    [{ id := id, total := total, bytes := [], opened := now, last := now, hdr := h, op := op, epoch := e }] }),
   .later (.transfer p id))

/-- A transfer is no longer open. -/
def Lane.closeTransfer (x : Lane) (p id : Nat) : Lane :=
  x.onSender p (fun q => { q with transfers := q.transfers.filter (fun t => t.id ≠ id) })

/-- A transfer ends with a final reply (R366, R367). -/
def State.endTransfer (s : State) (l : LaneId) (p id : Nat) (st : Status) (params : List Byte) : State :=
  (s.onLane l (fun x => x.closeTransfer p id)).finishAll l (.transfer p id) st params

/-- A command that waited for a transfer now waits for a flash write. -/
def Lane.waitFlash (x : Lane) (p id : Nat) : Lane :=
  x.onMan (fun m => { m with outstanding := m.outstanding.map (fun o =>
    if o.why = .transfer p id then { o with why := .flash } else o) })

/-- Steps 2 to 5 of R534 once the image has arrived: header, HMAC under the partition's image key, then the flash write. A write
that the supply warning keeps from beginning ends as an abandoned one (Table 17-3, R498). -/
def State.imageArrived (s : State) (l : LaneId) (p : Nat) (t : Transfer) (part : Nat) (bs : List Byte) : State :=
  match parseImage bs part with
  | none => s.endTransfer l p t.id .badParam []
  | some i =>
    match (s.lane l).keyOf 3 part with
    | none => s.endTransfer l p t.id .keyLost []
    | some k =>
      if !imageSigned bs k.2.1 then s.endTransfer l p t.id .authFail []
      else if (s.lane l).blk.pwr.warn then s.endTransfer l p t.id .lanesDisagree []
      else s.onLane l (fun x => ((x.waitFlash p t.id).closeTransfer p t.id).startFlash (.image ⟨part, i, bs, t.hdr⟩) s.pkg.beat)

/-- Big-endian samples. -/
def samplesOf (bs : List Byte) : List (BitVec 16) := (chunks 2 (bs.length / 2) bs).map (fun c => BitVec.ofNat 16 (beNat c))

/-- A transfer is complete, and its command proceeds (R367). -/
def State.transferDone (s : State) (l : LaneId) (p : Nat) (t : Transfer) (e : Word) : State :=
  let bs := t.bytes.map (·.2)
  match t.op with
  | .programLoad part _ _ => s.imageArrived l p t part bs
  | .patternWrite a =>
    match checkPattern (s.lane l) t.hdr a 65536 with
    | some st => s.endTransfer l p t.id st []
    | none => (s.onLane l (fun x => runPatternWrite x e a.loop a.offset (samplesOf bs))).endTransfer l p t.id .ok []
  | _ => s.endTransfer l p t.id .badParam []

/-- A segment that is dropped is counted at the port of its pair (R366, R369). -/
def State.dropSegment (s : State) (l : LaneId) (pair : Nat) : State :=
  s.onLane l (fun x => x.onPort pair (fun p => { p with rxSkelkanDrop := p.rxSkelkanDrop + 1 }))

/-- A segment of partition `p` with bulk header and data reaches its transfer. -/
def State.takeSegment (s : State) (l : LaneId) (pair p : Nat) (params : List Byte) (e : Word) : State :=
  let id := beAt params 0 4
  let offset := beAt params 4 4
  let data := params.drop 16
  match ((s.lane l).sender p).transfers.find? (fun t => t.id = id) with
  | none => s.dropSegment l pair
  | some t =>
    if data = [] || 8192 < data.length || beAt params 8 4 ≠ t.total || t.total < offset + data.length then s.dropSegment l pair
    else match mergeBytes t.bytes offset data with
      | none => s.endTransfer l p id .badParam []
      | some m =>
        let u := { t with bytes := m, last := if t.bytes.length < m.length then s.pkg.beat else t.last }
        if gapless 0 m = t.total then s.transferDone l p u e
        else s.onLane l (fun x => x.onSender p (fun q =>
          { q with transfers := q.transfers.map (fun v => if v.id = id then u else v) }))

/-- BULK_SEGMENT: the lane manager takes the oldest segment of ring 62 (R365). A stamp that is not the load generation in force
discards it (R334), and a sequence number that is not fresh drops it (R369). -/
def State.bulkSegment (s : State) (l : LaneId) : State :=
  match (s.lane l).bulkRing with
  | [] => s
  | (pair, b, gen, e) :: r =>
    let s1 := s.onLane l (fun x => ({ x with bulkRing := r }).onRing 62 (fun g => { g with taken := g.taken + 1 }))
    match readHeader b with
    | none => s1
    | some h =>
      match (s1.lane l).keyOf 2 h.part with
      | none => s1.dropSegment l pair
      | some k =>
        let q := (s1.lane l).sender h.part
        if gen ≠ some k.2.2 then s1
        else if !freshSeq q.bulkHigh.toNat q.bulkMarked h.seq then s1.dropSegment l pair
        else
          let w := markSeq q.bulkHigh.toNat q.bulkMarked h.seq
          (s1.onLane l (fun x => x.onSender h.part (fun v => { v with bulkHigh := w32 w.1, bulkMarked := w.2 }))).takeSegment
            l pair h.part (openParams b h (some k.2.1) 4) e

/-- BULK_TIMEOUT: a transfer that gained no byte for 2 s, or is incomplete 60 s after acceptance (R367). -/
def State.bulkTimeout (s : State) (l : LaneId) (p id : Nat) : State :=
  match ((s.lane l).sender p).transfers.find? (fun t => t.id = id) with
  | none => s
  | some t =>
    if t.last + 2 * secBeats ≤ s.pkg.beat || t.opened + 60 * secBeats ≤ s.pkg.beat then
      s.endTransfer l p id .badLength (beBytes 4 (gapless 0 t.bytes))
    else s

/-! ### Bulk sends (R368, R370 to R374) -/

/-- The ring that carries a pair's bulk sends. -/
def bulkRingOf : Via → Option Nat
  | .estate => some 57
  | .floor => some 59
  | .service => none

/-- Segments of a bulk send: offset and data. -/
def segmentsOf (n : Nat) : Nat → Nat → List Byte → List (Nat × List Byte)
  | 0, _, _ => []
  | f + 1, o, bs => if bs = [] then [] else (o, bs.take n) :: segmentsOf n f (o + n) (bs.drop n)

/-- One segment, sealed under the partition's bulk key with the next bulk-out SEQ (R370, Table 10-1). -/
def segmentPacket (key : List Byte) (target part opcode seq id total : Nat) (g : Nat × List Byte) : List Byte :=
  let params := beBytes 4 id ++ beBytes 4 g.1 ++ beBytes 4 total ++ zeros 4 ++ g.2
  sealPacket key (packetNonce target part 5 seq) (packetHeader 4 part 1 opcode params.length seq 0 0 0 target) params true

/-- One entry of a bulk send: its segments in order, then its closing frame if it has one (R371, R373). It is posted when the ring has
room for all of it, and is dropped and counted as a whole otherwise (Table 12-5); its numbers are taken in either case (R374). -/
def Lane.bulkEntry (x : Lane) (now ring : Nat) (h : Hdr) (key : List Byte) (opcode id total : Nat) (segs : List (Nat × List Byte))
    (closing : Option (List Byte)) : Lane :=
  let p := h.sender.getD 0
  let slots := (segs.map (fun g => slotsOf (g.2.length + 120))).sum +
    (match closing with | some b => slotsOf (b.length + 64) | none => 0)
  let room := decide (slots ≤ x.txFree ring)
  let y := segs.foldl (fun (y : Lane) g =>
    let seq := (y.sender p).bulkSeq
    (y.onSender p (fun q => { q with bulkSeq := seq + 1 })).postFrame room ring now h.src 48621
      (segmentPacket key y.man.moduleId.toNat p opcode seq.toNat id total g)) x
  let z := match closing with | some b => y.postFrame room ring now h.src 48620 b | none => y
  if room then z else z.dropTx ring

/-- A lane posts a bulk READ to its pair's bulk ring (R368): data of more than 65,536 bytes as several entries, each with its own
segments, the final reply as the closing frame of the last (R371, R373). -/
def Lane.bulkSend (x : Lane) (now ring : Nat) (h : Hdr) (key : List Byte) (opcode id : Nat) (data closing : List Byte) : Lane :=
  let entries := segmentsOf 65536 data.length 0 data
  entries.foldl (fun (y : Lane) e =>
    let segs := (segmentsOf 1400 e.2.length 0 e.2).map (fun g => (e.1 + g.1, g.2))
    y.bulkEntry now ring h key opcode id data.length segs
      (if e.1 + e.2.length = data.length then some closing else none)) x

/-! ### Rows -/

def execBulkSegment (l : LaneId) (s : State) : Host.Outcome State Fault Refusal := .next (s.bulkSegment l)

def execBulkTimeout (l : LaneId) (part : Nat) (transfer : Nat) (beat : Nat) (s : State) : Host.Outcome State Fault Refusal :=
  .next ((s.at_ beat).bulkTimeout l part transfer)

end Sys2Proof.Machine
end

