-- ==== Sys2Proof/Machine/Clock.lean ====
section
/-! DEFINITION. Writes posted into the calendar's island, setting the time, ticks, alarms and the time opcodes (chapter 13,
R438 to R440). -/

namespace Sys2Proof.Machine

/-! ### Answers that both lanes give alike (R347, R466, R469) -/

/-- The status that a recorded code names. -/
def statusOf (n : Nat) : Status :=
  if n = 0 then .ok else if n = 0x0300 then .busy else .badParam

/-! ### Posting (R438, R440, R33) -/

/-- The outcome of a posted write that a command asked for: the lane that executed the command answers, and so does its
partner, at once or when it executes the command (R469). -/
def State.postOutcome (s : State) (l : LaneId) (h : Hdr) (st : Status) : State :=
  let answer := fun (t : State) (k : LaneId) =>
    ((t.lane k).man.outstanding.filter (fun o => o.hdr = h && o.why = .timeSet)).foldl (fun (u : State) o =>
      let params := match o.op with | .timeTrim v => (if st = .ok then beBytes 2 (twos 16 v) else []) | _ => []
      let u1 := u.finish k o st params
      match o.op with
      | .timeTrim v =>
        if st = .ok then u1.onLane k (fun x =>
          (x.onFlash (fun f => { f with trim := some v })).startFlash .config u1.pkg.beat) else u1
      | _ => u1) t
  let waits := (s.lane l.other).man.outstanding.any (fun o => o.hdr = h && o.why = .timeSet)
  let e := match (s.lane l).man.outstanding.find? (fun o => o.hdr = h && o.why = .timeSet) with
    | some o => some o.epoch
    | none => none
  let s1 := (answer (answer s l) l.other)
  match e with
  | some n => if (s.lane l.other).releases && !waits then
      s1.onPkg (fun p => { p with outcomes := p.outcomes ++ [(h, n, st.code, [])] }) else s1
  | none => s1

/-- A write into the island, as `postWrite` says; a command whose write is dropped is answered BUSY (R469). -/
def State.postRtc (s : State) (p : Post) (wait : Bool) : State :=
  match p.hdr with
  | some h => if s.pkg.dom.t3Lost then (s.postWrite p wait).postOutcome p.lane h .busy else s.postWrite p wait
  | none => s.postWrite p wait

/-- Posts of a lane that waited are posted in order, each once its register is not BUSY. -/
def State.nextRtcPost (s : State) (l : LaneId) (r : PwReg) : State :=
  match (s.lane l).rtcPosts.find? (fun p => p.reg = r) with
  | none => s
  | some p => (s.onLane l (fun x => { x with rtcPosts := x.rtcPosts.erase p })).postRtc p true

/-- RTC_SET_GO.GO = 1: the date that RTC_SET_0 and RTC_SET_1 hold is checked, then posted (R467). -/
def State.setGo (s : State) (l : LaneId) (v : Word) : State :=
  let x := s.lane l
  if !bitOf v 0 then s
  else if dateOk (setDate x.rtcSet0 x.rtcSet1) then s.postRtc { lane := l, reg := .setGo, words := [x.rtcSet0, x.rtcSet1] } false
  else s.onLane l (fun y => y.setRtcWres .setGo 3)

/-- A PW register exists: alarms 0 to 3. -/
def pwOk : PwReg → Bool
  | .alm n => n < 4
  | .almCtl n => n < 4
  | _ => true

/-- POSTED_WRITE: the lane manager's write of a PW register (R438); a TRIM of -512 is out of range (Table 13-4). -/
def State.postedWrite (s : State) (l : LaneId) (r : PwReg) (v : Word) : State :=
  if !pwOk r then s
  else match r with
    | .setGo => s.setGo l v
    | .trim => if field v 9 0 = 512 then s.onLane l (fun x => x.setRtcWres .trim 3) else s.postRtc { lane := l, reg := .trim, words := [v] } false
    | q => s.postRtc { lane := l, reg := q, words := [v] } false

/-- What an accepted time set starts (R470): partitions in WAIT_TIME, and the phases of anchored loops (R266). -/
def Lane.anchorLoops (x : Lane) : Lane :=
  x.onLoopBlk (fun b => { b with loops := b.loops.map (fun e => (e.1, { e.2 with takePhase := true })) })

/-- The island takes a posted value (R468, R472, R474, R477); a write of the lane that is not active has no effect (R469). -/
def State.applyPost (s : State) (p : Post) : State :=
  let v := p.words.headD 0
  if s.active ≠ some p.lane then s
  else match p.reg with
    | .setGo =>
      let s1 := s.onDom (fun d => d.takeSet (setDate v (p.words.getD 1 0)))
      let s2 : State := { s1 with a := s1.a.anchorLoops, b := s1.b.anchorLoops }
      s2.eachLane (fun x => x.inService) (fun l t => t.startWaiting l)
    | .trim => s.onDom (fun d => { d with trim := signed 10 (field v 9 0) })
    | .chg => s.onDom (fun d => { d with chg := v &&& 0x13#32 })
    | .alm n => s.onDom (fun d => { d with alarms := tmod {} d.alarms n (fun a => { a with minute := v.toNat }) })
    | .almCtl n =>
      s.onDom (fun d => { d with alarms := tmod {} d.alarms n (fun a =>
        { a with en := bitOf v 31, rep := field v 15 0, missed := false }) })

/-- The lane manager keeps the alarm registers in flash in both lanes (R475). -/
def State.keepAlarms (s : State) (r : PwReg) : State :=
  let keep := fun (x : Lane) => (x.onFlash (fun f => { f with alarms := s.pkg.dom.alarms })).startFlash .config s.pkg.beat
  match r with
  | .alm _ => { s with a := keep s.a, b := keep s.b }
  | .almCtl _ => { s with a := keep s.a, b := keep s.b }
  | _ => s

/-- POSTED_WRITE_TAKEN: the island takes a lane's posted value and BUSY returns to 0 (R438). -/
def State.postTaken (s : State) (l : LaneId) (r : PwReg) : State :=
  if s.pkg.dom.t3Lost then s
  else match s.pkg.dom.busy.find? (fun p => p.lane = l && p.reg = r) with
    | none => s
    | some p =>
      let s1 := s.onDom (fun d => { d with busy := d.busy.erase p })
      let s2 := s1.applyPost p
      let s3 := if s.active = some l then s2.keepAlarms r else s2
      let s4 := match p.hdr with
        | some h => if s.active = some l then s3.postOutcome l h .ok else s3
        | none => s3
      s4.nextRtcPost l r

/-- T3 is lost: writes that are posted and not taken are dropped, and their commands are answered BUSY (R33, R469). -/
def State.dropPosts (s : State) : State :=
  let ps := s.pkg.dom.busy ++ s.a.rtcPosts ++ s.b.rtcPosts
  let clear := fun (x : Lane) => { x with rtcPosts := [] }
  let s1 : State := ({ s with a := clear s.a, b := clear s.b }).onDom (fun d => { d with busy := [] })
  ps.foldl (fun (t : State) p =>
    let t1 := t.onLane p.lane (fun x => x.postWres p 1)
    match p.hdr with | some h => t1.postOutcome p.lane h .busy | none => t1) s1

/-! ### Ticks, alarms, wrap, cell (R462 to R464, R473, R478) -/

/-- The instances that a tick refreshes: those of the lane manager and the service port; a core reads what its cycle's READY
carried (R465). -/
def Lane.tick (x : Lane) (words : List Word) : Lane :=
  (x.onMbx .rtcTime .manager (fun b => b.tick words)).onMbx .rtcTime .service (fun b => b.tick words)

/-- RTC_TICK: 32 T3 pulses pass, then each instance that is not frozen captures the calendar (R464). -/
def State.rtcTick (s : State) : State :=
  if s.pkg.dom.t3Lost then s
  else
    let d := Domain.pulses 32 { s.pkg.dom with epochWrap := false }
    let s1 := s.onDom (fun _ => { d with epochWrap := s.pkg.dom.epochWrap || d.epochWrap })
    let s2 := if d.epochWrap then s1.flagBoth 2091 false else s1
    let ws := s2.pkg.dom.timeWords
    { s2 with a := s2.a.tick ws, b := s2.b.tick ws }

/-- EPOCH_WRAP: the last second of 2999 ends (R462). -/
def State.wrapEpoch (s : State) : State :=
  if (dtNext s.pkg.dom.cal.date).isNone && !s.pkg.dom.t3Lost then
    (s.onDom (fun d => { d with cal := calendarStart, epochWrap := true })).flagBoth 2091 false
  else s

/-- RTC_ALARM: the calendar has reached the minute of an enabled alarm (R473). -/
def State.rtcAlarm (s : State) (n : Nat) : State :=
  if n < 4 && s.pkg.dom.alarmDue n && !s.pkg.dom.t3Lost then
    let ms := (tget {} s.pkg.dom.alarms n).minute * 60000
    let s1 := s.onDom (fun d => { d with alarms := tmod {} d.alarms n Alarm.fired })
    s1.eachLane (fun x => x.releases) (fun l t => t.onLane l (fun x => x.enter l 7 0 0 (.rtc n ms)))
  else s

/-- CELL_LOW: the backup source is measured; below 2.4 V is class N (R478). -/
def State.cellReading (s : State) (mv : Nat) : State :=
  if mv < 2400 then (s.onDom (fun d => { d with cellLow := true })).flagBoth 2085 false
  else s.onDom (fun d => { d with cellLow := false })

/-- T3_CLOCK_RESTORED: the calendar counts on; time stays invalid (R463). -/
def State.t3Restored (s : State) : State :=
  if s.pkg.dom.t3Lost then (s.onDom (fun d => { d with t3Lost := false })).endCauseBoth 6 else s

/-! ### Time opcodes (R466, R469, R472, R480) -/

/-- The parameters of TIME_GET (Table 09-13). -/
def Domain.timeBytes (d : Domain) : List Byte :=
  let c := d.cal.date
  beBytes 2 c.year ++ beBytes 1 c.month ++ beBytes 1 c.day ++ beBytes 1 c.hour ++ beBytes 1 c.minute ++
  beBytes 1 c.second ++ beBytes 1 (dtWeekday c) ++ beBytes 2 d.cal.msec ++
  beBytes 1 (b2n d.timeValid + 2 * b2n d.timeLost + 4 * b2n d.epochWrap) ++ zeros 1 ++ beBytes 2 (twos 16 d.trim)

/-- TIME_SET and TIME_TRIM: sender, then values, then T3 (R469, R472). -/
def State.checkTimeSet (s : State) (h : Hdr) (d : DateTime) : Option Status :=
  if h.sender.getD 0 ≠ 0 then some .notPermitted else if !dateOk d then some .badDate
  else if s.pkg.dom.t3Lost then some .busy else none

def State.checkTimeTrim (s : State) (h : Hdr) (t : Int) : Option Status :=
  if h.sender.getD 0 ≠ 0 then some .notPermitted else if t < -511 || 511 < t then some .badParam
  else if s.pkg.dom.t3Lost then some .busy else none

/-- The write that a time command posts; when its partner has already had the outcome, a lane answers at once (R469). -/
def State.runPost (s : State) (l : LaneId) (h : Hdr) (e : Word) (r : PwReg) (words : List Word) (params : List Byte) :
    State × Answer :=
  match s.pkg.outcomes.find? (fun o => o.1 = h && o.2.1 = e) with
  | some o =>
    (s.onPkg (fun p => { p with outcomes := p.outcomes.erase o }),
      .done (statusOf o.2.2.1) (if o.2.2.1 = 0 then params else []))
  | none => (s.postRtc { lane := l, reg := r, words := words, hdr := some h } true, .later .timeSet)

def State.runTimeSet (s : State) (l : LaneId) (h : Hdr) (e : Word) (d : DateTime) : State × Answer :=
  let s1 := s.onLane l (fun x => { x with rtcSet0 := dateWord0 d, rtcSet1 := dateWord1 d })
  s1.runPost l h e .setGo [dateWord0 d, dateWord1 d] []

def State.runTimeTrim (s : State) (l : LaneId) (h : Hdr) (e : Word) (t : Int) : State × Answer :=
  s.runPost l h e .trim [w32 (twos 10 t)] (beBytes 2 (twos 16 t))

/-! ### Rows -/

def execRtcSetGo (l : LaneId) (v : Word) (s : State) : Host.Outcome State Fault Refusal := .next (s.setGo l v)

def execPostedWrite (l : LaneId) (r : PwReg) (v : Word) (s : State) : Host.Outcome State Fault Refusal :=
  .next (s.postedWrite l r v)

def execPostedWriteTaken (l : LaneId) (r : PwReg) (s : State) : Host.Outcome State Fault Refusal := .next (s.postTaken l r)

def execRtcTick (s : State) : Host.Outcome State Fault Refusal := .next s.rtcTick

def execEpochWrap (s : State) : Host.Outcome State Fault Refusal := .next s.wrapEpoch

def execRtcAlarm (n : Nat) (s : State) : Host.Outcome State Fault Refusal := .next (s.rtcAlarm n)

def execCellLow (millivolts : Nat) (s : State) : Host.Outcome State Fault Refusal := .next (s.cellReading millivolts)

def execT3ClockRestored (s : State) : Host.Outcome State Fault Refusal := .next s.t3Restored

/-- RTC_TIME_0_READ: a read of RTC_TIME_0 by the lane manager or the service port freezes its instance (R464, R465). -/
def execRtcTime0Read (l : LaneId) (r : Reader) (beat : Nat) (s : State) : Host.Outcome State Fault Refusal :=
  let t := s.at_ beat
  match r with
  | .core _ => .next t
  | q => .next (t.onLane l (fun x => x.onMbx .rtcTime q (fun b => { b with frozen := some (b.frozen.getD t.pkg.beat) })))

/-- RTC_TIME_4_READ: a read of RTC_TIME_4 releases the freeze (R464). -/
def execRtcTime4Read (l : LaneId) (r : Reader) (s : State) : Host.Outcome State Fault Refusal :=
  match r with
  | .core _ => .next s
  | q => .next (s.onLane l (fun x => x.onMbx .rtcTime q (fun b => { b with frozen := none })))

/-- RTC_FREEZE_TIMEOUT: a freeze of 10 ms is released by hardware (R464). -/
def execRtcFreezeTimeout (l : LaneId) (r : Reader) (beat : Nat) (s : State) : Host.Outcome State Fault Refusal :=
  let t := s.at_ beat
  .next (t.onLane l (fun x => x.onMbx .rtcTime r (fun b => match b.frozen with
    | some f => if f + 1000000 ≤ t.pkg.beat then { b with frozen := none } else b
    | none => b)))

end Sys2Proof.Machine
end

