-- ==== Sys2Proof/Machine/Recorder.lean ====
section
/-! DEFINITION. The recorder: records as bytes, freezing and thawing (R507, R508), reading (R510), and the sequence reservations
in MRAM (R340, R506). -/

namespace Sys2Proof.Machine

/-- A record as REC_READ carries it (Table 15-1, R503). -/
def recordBytes (r : RecRecord) : List Byte :=
  beBytes 8 r.seq ++ beBytes 4 r.pick.toNat ++ beBytes 2 r.source ++
  beBytes 2 (r.part * 4096 + b2n r.all * 2048 + r.kind) ++ (r.payload ++ zeros 16).take 16

/-- The newest and the oldest sequence number of the ring; on an empty ring the number before the next, and the next. -/
def RecBlk.newest (r : RecBlk) : Nat := r.next - 1
def RecBlk.oldest (r : RecBlk) : Nat := match r.records with | q :: _ => q.seq | [] => r.next

/-- A gap record, when records were lost (R508, Table 15-2). -/
def RecBlk.gap (r : RecBlk) (pick : Word) : RecBlk :=
  if r.frozenLost = 0 then r
  else
    let q := r.write pick 0 0 true 0x13
      (beBytes 4 r.frozenLost ++ beBytes 4 (r.firstLost.getD 0).toNat ++ beBytes 4 r.lastLost.toNat ++ zeros 4)
    { q with gaps := q.gaps + 1 }

/-- REC_FREEZE (R507): a recorder that is frozen stays as it is. -/
def RecBlk.freeze (r : RecBlk) (closed : Nat) : RecBlk :=
  if r.frozen then r
  else { r with frozen := true, autoThawed := false, frozenLost := 0, firstLost := none, lastLost := 0, freezeBeat := closed }

/-- REC_THAW at the release of epoch `pick` (R508). -/
def RecBlk.thaw (r : RecBlk) (pick : Word) : RecBlk :=
  if r.frozen then RecBlk.gap { r with frozen := false } pick else r

/-- The automatic thaw (R508). -/
def RecBlk.autoThaw (r : RecBlk) (pick : Word) (closed : Nat) : RecBlk :=
  if r.frozen && r.freezeBeat + 100000000 ≤ closed then { r.thaw pick with autoThawed := true } else r

/-- Records that a reader sees (R510): every record for `none`, those of a tenant partition and those marked ALL for `some p`. -/
def recordSeen (reader : Option Nat) (r : RecRecord) : Bool :=
  match reader with
  | none => true
  | some p => r.all || r.part = p

/-- The window of R510: up to `max` records from `start`, of those not newer than `newest`, and NEXT. -/
def RecBlk.window (r : RecBlk) (reader : Option Nat) (start max newest : Nat) : List RecRecord × Nat :=
  let ahead : List RecRecord := if start < r.oldest then [⟨start, Config.overrunPick start, 0, 0, true, 0x14, beBytes 8 r.oldest ++ zeros 8⟩] else []
  let rs := (ahead ++ r.records.filter (fun q => decide (start ≤ q.seq) && decide (q.seq ≤ newest) && recordSeen reader q)).take max
  (rs, if rs.length = max then (match rs.getLast? with | some q => q.seq + 1 | none => newest + 1) else newest + 1)

/-- The reader that a partition is: partition 0 sees every record. -/
def readerOf (p : Nat) : Option Nat := if p = 0 then none else some p

/-! ### Reservations (R340, R506) -/

/-- A reservation that a value has reached moves on by 65,536 (R340); the number never passes `cap`. -/
def reserveAfter (cap reserved value : Nat) : Nat :=
  if reserved ≤ value then min cap (reserved + 65536 * ((value - reserved) / 65536 + 1)) else reserved

/-- The bytes that the CRC-32 of a partition's reservation and of the recorder's covers. -/
def seqBytes (r : SeqRes) : List Byte := leBytes 4 r.high ++ leBytes 4 r.event ++ leBytes 4 r.bulk
def recBytes (n : Nat) : List Byte := leBytes 8 n

/-- The reservations that an MRAM holds, read from the newest copy that checks; none when neither does. -/
def Mram.seqsOf (m : Mram) (p : Nat) : Option SeqRes := (twinAt seqBytes {} m.seqs p).read seqBytes
def Mram.recordNext (m : Mram) : Option Nat := (m.recNext.getD (Twin.make recBytes 1)).read recBytes

/-- A lane's reservations stay ahead of its values: each is written before a value reaches it. -/
def Lane.reserve (x : Lane) : Lane :=
  let cap := 0xFFFFFFFF
  let m := x.mram
  let r0 := (m.recordNext).getD 1
  let r1 := reserveAfter (2 ^ 64 - 1) r0 x.blk.recd.next
  let a := if r1 = r0 then m else { m with recNext := some ((m.recNext.getD (Twin.make recBytes 1)).put recBytes r1) }
  { x with mram := x.man.senders.foldl (fun (t : Mram) q =>
      let r := (t.seqsOf q.1).getD {}
      let n : SeqRes := ⟨reserveAfter cap r.high q.2.high.toNat, reserveAfter cap r.event q.2.eventSeq.toNat,
        reserveAfter cap r.bulk q.2.bulkSeq.toNat⟩
      if n = r then t else { t with seqs := twinPut seqBytes {} t.seqs q.1 n }) a }

end Sys2Proof.Machine
end

