-- ==== Sys2Proof/Machine/Events.lean ====
section
/-! DEFINITION. Events of an agreed epoch: the union of what the lanes bring (R63 to R66, R383, R411), their order (R73), and the
forms in which they reach rings, recorder and subscribers (R74 to R77, R362 to R364, Tables 09-17, 11-5, 12-7 and 15-2). -/

namespace Sys2Proof.Machine

/-! ### Payloads (Table 09-17) -/

/-- The fields of a 16-byte payload: size and value. -/
def payloadFields : EventBody → List (Nat × Nat)
  | .overflow e d => [(4, e.toNat), (4, d), (8, 0)]
  | .point p f w st => [(2, p), (2, f % 65536), (4, w.toNat), (4, st.toNat), (4, 0)]
  | .timer sy c => [(8, sy), (4, c % 2 ^ 32), (4, 0)]
  | .loop n c s v => [(1, n), (1, c), (2, 0), (4, s.toNat), (4, v.toNat), (4, 0)]
  | .meter ty s c w v => [(1, ty), (1, s), (1, c), (1, 0), (4, w.toNat), (4, v.toNat), (4, 0)]
  | .rtc a ms => [(1, a), (3, 0), (8, ms), (4, 0)]
  | .fault l c b sc i => [(1, l.num), (1, c), (2, b), (1, sc), (1, 0), (2, i), (8, 0)]
  | .can .. => []
  | .net .. => []

/-- The payload with every field most significant byte first, as packets and records carry it. -/
def payloadBE (b : EventBody) : List Byte := (payloadFields b).flatMap (fun f => beBytes f.1 f.2)

/-- The payload with every field least significant byte first, as rings carry it (Table 12-7). -/
def payloadLE (b : EventBody) : List Byte := (payloadFields b).flatMap (fun f => leBytes f.1 f.2)

/-- Word 0 of Table 11-4. -/
def canHeaderWord (f : CanFrame) : Nat := b2n f.fd * 2 ^ 31 + b2n f.brs * 2 ^ 30 + b2n f.xtd * 2 ^ 29 + f.id.toNat

/-- DLC, ESI and PAIR of Table 11-5. -/
def canFlags (f : CanFrame) (pairB : Bool) : Nat := f.dlc + 16 * b2n f.esi + 32 * b2n pairB

/-- Bytes of a frame from its destination address, without the PRP trailer. -/
def frameLength (f : Frame) : Nat := f.clientLen + 14 + 4 * f.tags.length - (if f.prp.isSome then 6 else 0)

/-- Where the model knows the bytes after a frame's EtherType: offset and bytes. -/
def frameKnown (f : Frame) : Nat × List Byte :=
  match f.body with
  | .other bs => (0, bs)
  | .ipv4 _ ihl _ _ _ _ _ (.udp _ _ _ bs) => (4 * ihl + 8, bs)
  | .ipv4 _ ihl _ _ _ _ _ (.echo _ _ bs) => (4 * ihl + 8, bs)
  | .ipv6 _ _ _ _ (.udp _ _ _ bs) => (48, bs)
  | .ipv6 _ _ _ _ (.echo _ _ bs) => (48, bs)
  | _ => (0, [])

/-- The first `n` bytes of a frame. Bytes that the frame as the model holds it does not say are free values. -/
def frameBytes (f : Frame) (n : Nat) : List Byte :=
  let head := beBytes 6 f.dst.toNat ++ beBytes 6 f.src.toNat ++
    f.tags.flatMap (fun t => beBytes 2 0x8100 ++ beBytes 2 (t.2 * 8192 + t.1)) ++ beBytes 2 f.etherType
  let known := frameKnown f
  (head ++ (List.range (n - head.length)).map (fun i =>
    if known.1 ≤ i && i < known.1 + known.2.length then known.2.getD (i - known.1) 0 else Config.frameByte f i)).take n

/-- The body of a ring entry in rings 32 to 47 (Table 12-7, Table 11-5). -/
def ringBody : EventBody → List Byte
  | .can f stamp pairB =>
    leBytes 4 (canHeaderWord f) ++ leBytes 4 stamp.toNat ++ leBytes 2 (canFlags f pairB) ++ leBytes 2 f.data.length ++ f.data ++
    zeros ((4 - f.data.length % 4) % 4)
  | .net lan (some f) _ _ _ _ _ =>
    leBytes 1 lan ++ leBytes 1 (b2n (decide (1516 < frameLength f))) ++ leBytes 2 (frameLength f) ++
    frameBytes f (min 1516 (frameLength f))
  | .net lan none _ bs _ _ _ => leBytes 1 lan ++ leBytes 1 0 ++ leBytes 2 bs.length ++ bs
  | b => payloadLE b

/-- A ring entry (R456, Table 12-7). -/
def ringEvent (e : Event) (epoch : Word) : List Byte :=
  let body := ringBody e.body
  leBytes 4 (0x40 + 256 * e.kind + 65536 * e.stream + 16777216 * e.part) ++ leBytes 4 e.seq.toNat ++ leBytes 4 epoch.toNat ++
  leBytes 4 body.length ++ body

/-- The UDP destination port that a frame carries, or 0. -/
def udpPort (f : Frame) : Nat :=
  match f.body with
  | .ipv4 _ _ _ _ _ _ _ (.udp _ d _ _) => d.toNat
  | .ipv6 _ _ _ _ (.udp _ d _ _) => d.toNat
  | _ => 0

/-- The 16-byte payload of an event's record (Table 15-2), most significant byte first. -/
def recordPayload : EventBody → List Byte
  | .can f stamp pairB =>
    beBytes 4 (canHeaderWord f) ++ beBytes 4 stamp.toNat ++ beBytes 2 (canFlags f pairB) ++ (f.data ++ zeros 6).take 6
  | .net lan (some f) _ _ _ _ _ =>
    beBytes 1 lan ++ zeros 1 ++ beBytes 2 (frameLength f) ++ beBytes 6 f.src.toNat ++ beBytes 2 f.etherType ++
    beBytes 2 (udpPort f) ++ zeros 2
  | .net lan none _ bs _ _ _ => beBytes 1 lan ++ zeros 1 ++ beBytes 2 bs.length ++ zeros 12
  | b => payloadBE b

/-! ### The union of two lanes' events (R63 to R66) -/

/-- Two copies are copies of one event (Table 02-2). On a single-pair bus every frame is an event of its own (R122). -/
def sameEvent (single : Nat → Bool) (e f : Event) : Bool :=
  e.kind = f.kind && e.stream = f.stream &&
  (match e.body, f.body with
   | .can a _ _, .can b _ _ =>
     !single e.stream && a.xtd = b.xtd && a.id = b.id && a.fd = b.fd && a.dlc = b.dlc && a.data = b.data
   | .net _ (some a) _ _ _ _ _, .net _ (some b) _ _ _ _ _ => a.prp.isSome && a.prp = b.prp && a.src = b.src
   | .net .., .net .. => false
   | _, _ => e.seq = f.seq)

/-- Remove the first event that satisfies a test; whether there was one. -/
def removeFirst (p : Event → Bool) : List Event → List Event × Bool
  | [] => ([], false)
  | e :: r => if p e then (r, true) else let q := removeFirst p r; (e :: q.1, q.2)

/-- The events ahead of the first that satisfies a test, and those behind it; none where there is no such event. -/
def splitFirst (p : Event → Bool) : List Event → Option (List Event × List Event)
  | [] => none
  | e :: r => if p e then some ([], r) else (splitFirst p r).map (fun q => (e :: q.1, q.2))

/-- Events of a list of which a second list holds no copy, then those of which it does, one copy for each. -/
def splitCopied (single : Nat → Bool) : List Event → List Event → List Event × List Event
  | [], _ => ([], [])
  | e :: r, fs =>
    let q := removeFirst (sameEvent single e) fs
    let t := splitCopied single r q.1
    if q.2 then (t.1, e :: t.2) else (e :: t.1, t.2)

/-- The union of what lanes A and B bring, each event with whether both hold it (R63, R64). Events of a stream keep the order of
either lane: ahead of an event that both hold go those that entered lane B's streams before it and lane A does not hold (R46, R73).
Where the lanes hold two events in opposite orders, lane A's order stands (log entry 107). -/
def unionEvents (single : Nat → Bool) : List Event → List Event → List (Event × Bool)
  | [], fs => fs.map (fun f => (f, false))
  | e :: r, fs =>
    match splitFirst (sameEvent single e) fs with
    | none => (e, false) :: unionEvents single r fs
    | some (ahead, behind) =>
      let q := splitCopied single ahead r
      q.1.map (fun f => (f, false)) ++ (e, true) :: unionEvents single r (q.2 ++ behind)

/-- The memory of a PRP pair after a frame from a source, and whether the frame is a duplicate (R383); `evicted` counts a
replacement. Sources stand in the order of their last use. -/
def prpCheck (mem : List PrpSource) (mac : BitVec 48) (seq : BitVec 16) (beat : Nat) : List PrpSource × Bool × Bool :=
  match mem.find? (fun e => e.mac = mac) with
  | none =>
    let full := decide (512 ≤ mem.length)
    ((if full then mem.drop 1 else mem) ++ [⟨mac, seq, [seq], beat⟩], false, full)
  | some s =>
    let d := (s.newest - seq).toNat
    let rest := mem.filter (fun e => e.mac ≠ mac)
    if d < 1024 then
      if s.seen.contains seq then (rest ++ [{ s with lastBeat := beat }], true, false)
      else (rest ++ [{ s with seen := s.seen ++ [seq], lastBeat := beat }], false, false)
    else if d < 32768 then (rest ++ [{ s with lastBeat := beat }], false, false)
    else (rest ++ [⟨mac, seq, (s.seen.filter (fun n => decide ((seq - n).toNat < 1024))) ++ [seq], beat⟩], false, false)

/-- A CAN copy of lane `l` against the discard memory of its bus (R411): the memory after, and whether the copy is a duplicate. -/
def canCheck (l : LaneId) (bus : Nat) (f : CanFrame) : List CanIdentity → List CanIdentity × Bool
  | [] => ([], false)
  | c :: r =>
    let same := decide (c.bus = bus) && c.f.xtd = f.xtd && c.f.id = f.id && c.f.fd = f.fd && c.f.dlc = f.dlc && c.f.data = f.data
    if same && !(match l with | .a => c.byA | .b => c.byB) then (r, true)
    else let q := canCheck l bus f r; (c :: q.1, q.2)

/-- A released identity that one lane supplied enters the memory of its bus, the oldest of 256 leaving it (R411). -/
def canRemember (l : LaneId) (bus : Nat) (f : CanFrame) (mem : List CanIdentity) : List CanIdentity :=
  let mine := mem.filter (fun c => c.bus = bus)
  let kept := if 256 ≤ mine.length then (match mine with | c :: _ => mem.erase c | [] => mem) else mem
  kept ++ [⟨bus, f, decide (l = .a), decide (l = .b)⟩]

/-- The discard memories and counters while the copies of an epoch are examined. -/
structure Discards where
  man : Manager
  dup : Nat := 0
  evict0 : Nat := 0
  evict1 : Nat := 0
  out : List Event := []

/-- Duplicates among CAN copies leave a lane's list before the union (R411). -/
def dropCan (single : Nat → Bool) (l : LaneId) (d : Discards) (es : List Event) : Discards :=
  es.foldl (fun (d : Discards) e =>
    match e.body with
    | .can f _ _ =>
      if single e.stream then { d with out := d.out ++ [e] }
      else
        let q := canCheck l e.stream f d.man.canDiscard
        if q.2 then { d with man := { d.man with canDiscard := q.1 }, dup := d.dup + 1 } else { d with out := d.out ++ [e] }
    | _ => { d with out := d.out ++ [e] }) { d with out := [] }

/-- One event of the union against the discard memories of kinds 1 and 3 to 8 as they stood before the agreement, `m0`; a released
event enters them (R65). An identity that a lane brings twice in one agreement is therefore released twice (R64). `both` tells that
both lanes brought it, `paired` that both lanes are in service. -/
def discardOne (single : Nat → Bool) (paired : Bool) (beat : Nat) (m0 : Manager) (d : Discards) (e : Event) (both : Bool) :
    Discards :=
  let dup := fun (m : Manager) => { d with man := m, dup := d.dup + 1 }
  let keep := fun (m : Manager) => { d with man := m, out := d.out ++ [e] }
  match e.body with
  | .can f _ _ =>
    if single e.stream || both || !paired then keep d.man
    else keep { d.man with canDiscard := canRemember e.lane e.stream f d.man.canDiscard }
  | .net _ (some f) _ _ _ _ _ =>
    (match f.prp with
     | none => keep d.man
     | some n =>
       let q := prpCheck (if e.stream = 0 then d.man.prpEstate else d.man.prpFloor) f.src n beat
       let old := prpCheck (if e.stream = 0 then m0.prpEstate else m0.prpFloor) f.src n beat
       let m := if e.stream = 0 then { d.man with prpEstate := q.1 } else { d.man with prpFloor := q.1 }
       let r := if old.2.1 then dup m else keep m
       if q.2.2 then (if e.stream = 0 then { r with evict0 := r.evict0 + 1 } else { r with evict1 := r.evict1 + 1 }) else r)
  | .net .. => keep d.man
  | _ =>
    let n := streamNo e.kind e.stream
    let last := tget 0 d.man.discard n
    if e.kind = 8 then keep { d.man with discard := tput 0 d.man.discard n e.seq }
    else if serialBefore last e.seq then keep { d.man with discard := tput 0 d.man.discard n e.seq }
    else dup d.man

/-- Order of R73: kind, then stream. -/
def eventKey (e : Event) : Nat := e.kind * 16 + e.stream

/-- Insert an event after those of its kind and stream that precede it in stream order: by sequence number where the kind has
one, else behind those that are there, which the union put ahead of it. -/
def insertEvent (e : Event) : List Event → List Event
  | [] => [e]
  | f :: r =>
    if eventKey e < eventKey f || (eventKey e = eventKey f && kindHasSeq e.kind && serialBefore e.seq f.seq) then e :: f :: r
    else f :: insertEvent e r

/-- Events in the order of R73. -/
def orderEvents (es : List Event) : List Event := es.foldl (fun t e => insertEvent e t) []

/-- The agreed contents of an epoch from what lanes A and B bring, with the discard memories of lane `x` (R63 to R66). -/
def Lane.agree (x : Lane) (paired : Bool) (beat : Nat) (ea eb : List Event) : Discards :=
  let single := fun (n : Nat) => busSingle (x.bus n).ctl
  let da := dropCan single .a { man := x.man } ea
  let db := dropCan single .b { da with out := [] } eb
  let all := unionEvents single da.out db.out
  let order := orderEvents (all.map (·.1))
  order.foldl (fun (d : Discards) e =>
    discardOne single paired beat db.man d e (all.any (fun c => decide (c.1 = e) && c.2))) { db with out := [] }

/-! ### Delivery to rings (R74 to R76) -/

/-- A loop group event goes to the owner of every loop in the group (R278). -/
def Lane.groupOwner (x : Lane) (p : Nat) (b : EventBody) : Bool :=
  match b with
  | .loop _ c _ v => (c = 0x09 || c = 0x0A) && x.blk.loop.loops.any (fun q => q.2.group = v.toNat && q.2.owner = p)
  | _ => false

/-- The partitions that receive an event (R74, R278). -/
def Lane.entitled (x : Lane) (p : Nat) (e : Event) : Bool :=
  p = 0 || ((e.kind = 1 || e.kind = 4 || e.kind = 5 || e.kind = 6) && e.part = p) || x.groupOwner p e.body

/-- An overflow marker as a ring entry. -/
def markerEntry (p : Nat) (epoch : Word) (m : Word × Nat) : List Byte :=
  ringEvent ⟨0, 0, p, 0, .a, 0, .overflow m.1 m.2⟩ epoch

/-- Deliver the events of an epoch to event-out ring `32 + p` (R76). An event that does not leave the marker's two slots free is
dropped for the partition. -/
def Ring.deliver (g : Ring) (p : Nat) (epoch : Word) (es : List Event) : Ring :=
  let r := 32 + p
  let mark := fun (q : Ring) =>
    match q.marker with
    | some m => if 2 ≤ q.free r then { q.post (RingEntry.mk (markerEntry p epoch m) epoch true 0) with marker := none } else q
    | none => q
  let put := fun (q : Ring) (e : Event) =>
    let bs := ringEvent e epoch
    if slotsOf bs.length + 2 ≤ q.free r then q.post (RingEntry.mk bs epoch true 0)
    else
      let m := q.marker.getD (epoch, 0)
      { q.dropOne with marker := some (m.1, m.2 + 1) }
  mark (es.foldl put (mark g))

/-- Every partition's ring receives its events. -/
def Lane.deliverRings (x : Lane) (epoch : Word) (es : List Event) : Lane :=
  (List.range 16).foldl (fun (y : Lane) p => y.onRing (32 + p) (fun g => g.deliver p epoch (es.filter (x.entitled p)))) x

/-! ### Event packets (R362 to R364) -/

/-- A 24-byte record of an event packet. -/
def packetRecord (e : Event) : List Byte :=
  beBytes 1 e.kind ++ beBytes 1 e.stream ++ beBytes 1 e.part ++ zeros 1 ++ beBytes 4 e.seq.toNat ++ payloadBE e.body

/-- Event records in groups of at most `n`. -/
def groupsOf (n : Nat) : Nat → List Event → List (List Event)
  | 0, _ => []
  | f + 1, es => if es = [] then [] else es.take n :: groupsOf n f (es.drop n)

/-- Packets that a subscription holds unacknowledged. -/
def Subscription.held (q : Subscription) : Nat := q.unacked.length + q.unsent.length

/-- One event packet takes the partition's next event SEQ and joins those that wait, or its events are dropped for the subscriber
and counted (R364). -/
def Lane.queuePacket (x : Lane) (p : Nat) (epoch : Word) (more : Bool) (es : List Event) : Lane :=
  let v := x.sender p
  match v.sub, x.keyOf 1 p with
  | some q, some k =>
    if 1024 ≤ q.held then
      x.onSender p (fun r => { r with sub := some { q with
        dropped := q.dropped + es.length, dropEpoch := if q.dropped = 0 then epoch else q.dropEpoch } })
    else
      let params := beBytes 2 es.length ++ zeros 2 ++ es.flatMap packetRecord
      let target := x.man.moduleId.toNat
      let seq := v.eventSeq.toNat
      let hd := packetHeader 3 p (b2n q.enc + 2 * b2n more) 0 params.length seq epoch.toNat 0 0 target
      let bytes := sealPacket k.2.1 (packetNonce target p 3 seq) hd params q.enc
      x.onSender p (fun r => { r with eventSeq := r.eventSeq + 1, sub := some { q with unsent := q.unsent ++ [(v.eventSeq, bytes)] } })
  | some q, none =>
    x.onSender p (fun r => { r with sub := some { q with
      dropped := q.dropped + es.length, dropEpoch := if q.dropped = 0 then epoch else q.dropEpoch } })
  | none, _ => x

/-- The overflow marker of a subscription waits for room. -/
def Lane.markerDue (x : Lane) (p : Nat) : Bool :=
  match (x.sender p).sub with
  | none => false
  | some q => !(q.dropped = 0 || 1024 ≤ q.held || (x.keyOf 1 p).isNone)

/-- The overflow marker of a subscription is sent once there is room again; `more`: further packets of the epoch follow. -/
def Lane.queueMarker (x : Lane) (p : Nat) (epoch : Word) (more : Bool) : Lane :=
  match (x.sender p).sub with
  | none => x
  | some q =>
    if x.markerDue p then
      let y := x.onSender p (fun r => { r with sub := some { q with dropped := 0 } })
      y.queuePacket p epoch more [⟨0, 0, p, 0, .a, 0, .overflow q.dropEpoch q.dropped⟩]
    else x

/-- The event packets of an epoch join those that wait: the marker if it is due, then one packet for each group of records. MORE = 1 on
each but the last that finds room (R363). -/
def Lane.queueEpoch (x : Lane) (p : Nat) (epoch : Word) (held : Nat) (gs : List (List Event)) : Lane :=
  let fit := min gs.length (1024 - held - b2n (x.markerDue p))
  (gs.zipIdx).foldl (fun (y : Lane) g => y.queuePacket p epoch (decide (g.2 + 1 < fit)) g.1)
    (x.queueMarker p epoch (decide (0 < fit)))

/-- Packets that wait are sent while the subscriber's credit allows it (R343, R364). The service port carries no event packets. -/
def State.sendEvents (s : State) (l : LaneId) (p : Nat) : State :=
  let v := (s.lane l).sender p
  match v.sub with
  | none => s
  | some q =>
    if q.via = .service then s
    else
      let room := v.credit - q.unacked.length
      let now := s.pkg.beat
      let go := q.unsent.take room
      let s1 := s.onLane l (fun x => x.onSender p (fun r => { r with sub := some { q with
        unsent := q.unsent.drop room, unacked := q.unacked ++ go.map (fun e => ⟨e.1, e.2, now, now⟩) } }))
      go.foldl (fun (t : State) e => t.sendPacket l q.via q.src e.2) s1

/-- The events of a released epoch go to the subscribers (R362, R363). -/
def State.exportEvents (s : State) (l : LaneId) (epoch : Word) (es : List Event) : State :=
  (List.range 16).foldl (fun (t : State) p =>
    match ((t.lane l).sender p).sub with
    | none => t
    | some q =>
      if q.via = .service then t
      else
        let mine := es.filter (fun e => (t.lane l).entitled p e && q.kinds.testBit e.kind)
        let t1 := t.onLane l (fun x => x.queueEpoch p epoch q.held (groupsOf 59 mine.length mine))
        t1.sendEvents l p) s

end Sys2Proof.Machine
end

