-- ==== Sys2Proof/Machine/Heddle.lean ====
section
/-! DEFINITION. The heddle matrix (chapter 06): staging, the commit of Table 06-12, cross-region interlocks and
supervision. -/

namespace Sys2Proof.Machine

/-! ### Region configuration images (Table 06-7) -/

/-- Bytes of a region configuration image. -/
def imageSize : Nat := 8976

/-- The CRC-32 of a staging image (R230). -/
def stagingCrc (m : Mem) : Word := crc32 (memRead m 0 imageSize)

/-- The staging image of region `r` of a lane. -/
def Lane.staging (x : Lane) (r : Nat) : Mem := tget [] x.blk.hed.staging r

/-- A little-endian number in a memory. -/
def memLe (m : Mem) (a n : Nat) : Nat := leNat (memRead m a n)

/-- Literal record `i`. -/
def readLiteral (m : Mem) (i : Nat) : Literal :=
  let a := 0x10 + 8 * i
  let b := memLe m (a + 4) 1
  ⟨memLe m a 2, memLe m (a + 2) 2, decide (b % 2 = 1), decide (b / 2 % 2 = 1), decide (b / 4 % 2 = 1)⟩

/-- Target record `i`. -/
def readTarget (m : Mem) (i : Nat) : Target :=
  let b := memLe m (0x210 + 4 * i) 1
  ⟨decide (b % 2 = 1), decide (b / 2 % 2 = 1), decide (b / 4 % 2 = 1)⟩

/-- The four local products of term `j`. -/
def readTerm (m : Mem) (j : Nat) : List (BitVec 64 × BitVec 64) :=
  (List.range 4).map (fun k =>
    let a := 0x310 + 64 * j + 16 * k
    (BitVec.ofNat 64 (memLe m a 8), BitVec.ofNat 64 (memLe m (a + 8) 8)))

/-- The four cross products of term `j`: the references in use, each a point and whether it is negated. -/
def readCross (m : Mem) (j : Nat) : List (List (Nat × Bool)) :=
  (List.range 4).map (fun k => (List.range 8).filterMap (fun q =>
    let v := memLe m (0x1310 + 64 * j + 16 * k + 2 * q) 2
    if v / 32768 % 2 = 1 then some (v % 512, decide (v / 512 % 2 = 1)) else none))

/-- The image that a staging memory spells. -/
def readImage (m : Mem) : HedImage :=
  let idx := List.range 64
  { format := memLe m 0 2
    region := memLe m 2 1
    literals := idx.foldl (fun t i => tput {} t i (readLiteral m i)) []
    targets := idx.foldl (fun t i => tput {} t i (readTarget m i)) []
    terms := idx.foldl (fun t j => tput [] t j ((readTerm m j).filter (fun q => q.1 ||| q.2 ≠ 0))) []
    cross := idx.foldl (fun t j => tput [] t j ((readCross m j).filter (fun q => q ≠ []))) []
    crc := stagingCrc m
    raw := m }

/-- Literals that a mask selects. -/
def maskCount (v : BitVec 64) : Nat := ((List.range 64).filter (fun i => v.getLsbD i)).length

/-- Configuration, parameter and stated safe word of a unit as last commanded: waiting for its frame, or in force. -/
def Lane.commandedUnit (x : Lane) (p : Nat) : Word × Word × Word :=
  match (x.blk.pnt.pendingUnits.filter (fun u => u.1 = p)).getLast? with
  | some u => u.2
  | none => (x.unitCfg p, x.unitParam p, x.unitSafeWord p)

/-- The safe value of a unit equals its inhibit state (R232). -/
def Lane.safeMatches (x : Lane) (p : Nat) (inh : Bool) : Bool :=
  let u := x.commandedUnit p
  let mode := cfgSafeMode u.1
  if inh then
    mode = 2 && ((cfgType u.1 = 11 && u.2.2 = 1) || (cfgType u.1 = 12 && u.2.2 = 100000))
  else mode = 0 || (mode = 2 && u.2.2 = 0)

/-- The checks of R232 (with those of R219 and R222) on an image for region `r`. -/
def Lane.imageOk (x : Lane) (r : Nat) (im : HedImage) : Bool :=
  im.format = 1 && im.region = r &&
  im.terms.all (fun t => t.2.all (fun q => maskCount (q.1 ||| q.2) ≤ 8 && (q.1 &&& q.2) = 0)) &&
  (List.range 64).all (fun i =>
    let p := 64 * r + i
    let ty := cfgType (x.commandedUnit p).1
    let lit := tget {} im.literals i
    let tg := tget {} im.targets i
    let used := tg.localEn || tg.crossEn
    (!lit.en || ty ≠ 0) && (!used || !(1 ≤ ty && ty ≤ 8)) && (!tg.inhState || ty = 11 || ty = 12) &&
    (!used || x.safeMatches p tg.inhState))

/-! ### HEDDLE_LOAD and HEDDLE_COMMIT (R230 to R233, Table 06-11) -/

/-- A commit of region `r` is in progress in a lane. -/
def Lane.committing (x : Lane) (r : Nat) : Bool := (x.blk.hed.commit.lookup r).isSome

def checkHeddleLoad (x : Lane) (h : Hdr) (region offset : Nat) (data : List Byte) : Option Status :=
  if 7 < region then some .badParam
  else if h.sender.getD 0 ≠ 0 then some .notPermitted
  else if data.length < 1 || 1024 < data.length || imageSize < offset + data.length then some .badParam
  else if x.committing region then some .busy
  else none

/-- HEDDLE_LOAD in one lane: the staging image takes the bytes, cleared first at offset 0; the reply carries its CRC. -/
def runHeddleLoad (x : Lane) (region offset : Nat) (data : List Byte) : Lane × Answer :=
  let m0 := if offset = 0 then [] else x.staging region
  let m := memWrite m0 offset data
  (x.onHed (fun h => { h with staging := tput [] h.staging region m, staged := insSorted region h.staged }),
   .done .ok (beBytes 4 (stagingCrc m).toNat))

/-- Checks of HEDDLE_COMMIT in one lane, in the order of Table 06-11; the comparison with its partner follows (`heddleCompare`). -/
def checkHeddleCommit (x : Lane) (h : Hdr) (region : Nat) (crc : Word) : Option Status :=
  if 7 < region then some .badParam
  else if h.sender.getD 0 ≠ 0 then some .notPermitted
  else if !x.blk.hed.staged.contains region || stagingCrc (x.staging region) ≠ crc then some .badParam
  else if !x.imageOk region (readImage (x.staging region)) then some .badParam
  else if x.committing region then some .busy
  else none

/-- HEDDLE_COMMIT in one lane: it waits for the comparison of the staged CRCs (step 1 of Table 06-12). -/
def runHeddleCommit (x : Lane) (h : Hdr) (e : Word) (now region : Nat) (crc : Word) : Lane × Answer :=
  (x.onHed (fun b => { b with
    commit := oset b.commit region ⟨readImage (x.staging region), crc, 1, h, e, now⟩ }), .later (.heddle region))

/-- The heddle commit of a lane ends with a status: the final reply leaves. -/
def State.endCommit (s : State) (l : LaneId) (r : Nat) (st : Status) (params : List Byte) : State :=
  (s.onLane l (fun x => x.onHed (fun h => { h with commit := odel h.commit r }))).finishAll l (.heddle r) st params

/-- The commit ends in every lane that makes it. -/
def State.endCommits (s : State) (r : Nat) (st : Status) : State :=
  let f := fun (t : State) (l : LaneId) => if (t.lane l).committing r then t.endCommit l r st [] else t
  f (f s .a) .b

/-- A lane's commit of region `r` goes on to step `n`. -/
def Lane.commitStep (x : Lane) (r n : Nat) : Lane :=
  match x.blk.hed.commit.lookup r with
  | some c => x.onHed (fun h => { h with commit := oset h.commit r { c with step := n } })
  | none => x

/-- Step 1 of Table 06-12 for a lane that has checked its staged image: once its partner has executed the command too, the staged
CRCs are compared, and a difference, or a partner that refused, ends the commit with LANES_DISAGREE; a lane alone goes on. -/
def State.heddleCompare (s : State) (l : LaneId) (r : Nat) : State :=
  let x := s.lane l
  let y := s.lane l.other
  match x.blk.hed.commit.lookup r with
  | none => s
  | some c =>
    if c.step ≠ 1 then s
    else if !y.inService then s.onLane l (fun k => k.commitStep r 2)
    else match y.blk.hed.commit.lookup r with
      | some d =>
        if d.step ≠ 1 || d.hdr ≠ c.hdr then s
        else if d.image.crc = c.image.crc then
          (s.onLane l (fun k => k.commitStep r 2)).onLane l.other (fun k => k.commitStep r 2)
        else s.endCommits r .lanesDisagree
      | none =>
        if c.epoch = y.blk.pick.released || serialBefore c.epoch y.blk.pick.released then s.endCommit l r .lanesDisagree [] else s

/-- Write the spare heddle record of a region, not yet marked valid: the records kept are the newest valid one and this
one (R233). -/
def putSpare (rs : List HedRecord) (im : HedImage) : List HedRecord :=
  let v := (rs.map (·.version)).foldl max 0 + 1
  (match rs.filter (·.valid) with
   | [] => []
   | q :: t => [t.foldl (fun best w => if best.version < w.version then w else best) q]) ++ [⟨im, v, false⟩]

/-- Mark the newest heddle record of a region valid (step 6 of Table 06-12). -/
def markSpare (rs : List HedRecord) : List HedRecord :=
  let v := (rs.map (·.version)).foldl max 0
  rs.map (fun q => if q.version = v then { q with valid := true } else q)

/-- HEDDLE_PERSIST: a lane has written the image to its spare record and sends it to the front-end die, which keeps the
active lane's copy in its shadow bank and compares the other lane's (steps 2 and 3 of Table 06-12). -/
def State.heddlePersist (s0 : State) (l : LaneId) (r : Nat) : State :=
  let s := s0.heddleCompare l r
  match (s.lane l).blk.hed.commit.lookup r with
  | none => s
  | some c =>
    if c.step ≠ 2 then s
    else if s.pkg.halted then s.endCommits r .safeState
    else if (s.lane l).blk.pwr.warn then s
    else
      let s1 := s.onLane l (fun x => (x.onHed (fun h => { h with commit := oset h.commit r { c with step := 3 } })).onFlash
        (fun f => { f with heddle := tput [] f.heddle r (putSpare (tget [] f.heddle r) c.image) }))
      let s2 := if s.active = some l then s1.onFe r (fun f => { f with shadow := some c.image }) else s1
      match (s2.lane l.other).blk.hed.commit.lookup r with
      | some d => if 3 ≤ d.step && d.image.raw ≠ c.image.raw then s2.endCommits r .lanesDisagree else s2
      | none => s2

/-! ### Vectors and inhibit messages (R223 to R229) -/

/-- The front-end die of region `r` sends its literal vector to both lanes (step 2 of Table 06-8). -/
def State.sendVector (s : State) (r : Nat) : State :=
  let la := s.literalsA r
  let lb := s.literalsB r
  let n := ((s.fe r).vector + 1) % 65536
  let s1 := s.onFe r (fun f => { f with vector := n, lastVector := some (la, lb), vectorBeat := s.pkg.beat })
  let put := fun (x : Lane) => if x.collects then { x with vectorIn := x.vectorIn ++ [(r, n, la, lb)] } else x
  { s1 with a := put s1.a, b := put s1.b }

/-- The two planes of region `r` give a local term different values. -/
def State.planesDiffer (s : State) (r : Nat) : Bool :=
  match (s.fe r).image with
  | none => false
  | some im =>
    let la := s.literalsA r
    let lb := s.literalsB r
    (List.range 64).any (fun j => localTerm im la j != localTerm im lb j)

/-- What a change of region `r`'s literals does at once, whatever changed them (a crossing, a fault value, a switch): the die sends
its vector (R226) and notes since when its planes differ (R236). -/
def State.literalsMoved (s : State) (r : Nat) : State :=
  if !(s.fe r).running || (s.fe r).lastVector = some (s.literalsA r, s.literalsB r) then s
  else (s.sendVector r).onFe r (fun f => { f with
    planeDiff := if s.planesDiffer r then some (f.planeDiff.getD s.pkg.beat) else none })

/-- The same for every region. -/
def State.allLiteralsMoved (s : State) : State := (List.range 8).foldl State.literalsMoved s

/-- Planes of region `r` that have differed for more than 1 µs put it at its safe values (R236). -/
def State.planeCheck (s : State) (r : Nat) : State :=
  match (s.fe r).planeDiff with
  | some t => if t + 100 < s.pkg.beat then s.raiseBoth (bitRegion r 5) true else s
  | none => s

/-- A lane sends an inhibit message to every region whose cross-region terms differ from those last sent (step 4 of Table
06-8); a lane whose gates are closed sends nothing. -/
def Lane.sendInhibits (x : Lane) (source vector : Nat) : Lane :=
  if x.blk.lane.gatesClosed then x
  else (List.range 8).foldl (fun (y : Lane) n =>
    let c := y.crossTerms n
    if c = tget 0 y.blk.hed.sent n then y
    else ({ y with inhibits := y.inhibits ++ [Inhibit.mk n source vector c] }).onHed
      (fun h => { h with sent := tput 0 h.sent n c, xmsg := h.xmsg + 1 })) x

/-- Both lanes send the terms that a switch changes, under the region's newest vector (step 5 of Table 06-12). -/
def State.switchInhibits (s : State) (r : Nat) : State :=
  let f := fun (x : Lane) => x.sendInhibits r (match x.blk.hed.vectors.lookup r with | some v => v.1 | none => 0)
  { s with a := f s.a, b := f s.b }

/-- The switch of region `r` (step 5 of Table 06-12): each lane takes the new CRC with the switch notice, terms are the
old or the new for 2 µs, and the comparators of the new literals start (R218). -/
def State.heddleSwitch (s : State) (r : Nat) (im : HedImage) : State :=
  let f := fun (x : Lane) => match x.blk.hed.commit.lookup r with
    | some c => x.onHed (fun h => { h with
        commit := oset h.commit r { c with step := 5 }
        old := match h.image.lookup r with | some o => oset h.old r o | none => odel h.old r
        image := oset h.image r c.image
        crc := tput 0 h.crc r c.image.crc })
    | none => x
  let s1 : State := { s with a := f s.a, b := f s.b }
  (((s1.onFe r (fun g => { g with
    old := g.image
    image := some im
    shadow := none }.startComparators)).endCauseBoth (bitRegion r 4)).literalsMoved r).switchInhibits r

/-- A lane takes no part in the commit of region `r`, or has verified it. -/
def Lane.commitVerified (x : Lane) (r : Nat) : Bool :=
  match x.blk.hed.commit.lookup r with
  | some c => 4 ≤ c.step
  | none => true

/-- HEDDLE_VERIFY: a lane compares the CRC that the front-end die reports of its shadow bank with the expected CRC (step 4 of
Table 06-12). When every lane that makes the commit has verified it, the region switches. -/
def State.heddleVerify (s : State) (l : LaneId) (r : Nat) (reported : Word) : State :=
  match (s.lane l).blk.hed.commit.lookup r with
  | none => s
  | some c =>
    if c.step ≠ 3 && c.step ≠ 4 then s
    else if s.pkg.halted then s.endCommits r .safeState
    else if reported ≠ c.expected then s.endCommits r .lanesDisagree
    else
      let s1 := s.onLane l (fun x => x.onHed (fun h => { h with commit := oset h.commit r { c with step := 4 } }))
      if s1.a.commitVerified r && s1.b.commitVerified r then s1.heddleSwitch r c.image else s1

/-- HEDDLE_SWITCH_OVERLAP_END: 2 µs after the switch the old configuration leaves the OR. -/
def State.heddleOverlapEnd (s : State) (r : Nat) : State :=
  let f := fun (x : Lane) => x.onHed (fun h => { h with old := odel h.old r })
  (({ s with a := f s.a, b := f s.b }).onFe r (fun g => { g with old := none })).switchInhibits r

/-- 55 s in T5 beats (R233, R348). -/
def abandonBeats : Nat := 5500000000

/-- HEDDLE_MARK: a lane marks its record valid and replies OK with the CRC (step 6 of Table 06-12); while the supply
warning holds flash writes back the commit waits, and 55 s after acceptance it is abandoned with BUSY; at class G the reply
is then SAFE_STATE (R233). -/
def State.heddleMark (s : State) (l : LaneId) (r now : Nat) : State :=
  match (s.lane l).blk.hed.commit.lookup r with
  | none => s
  | some c =>
    if c.step ≠ 5 then s
    else if (s.lane l).blk.pwr.warn then
      (if s.pkg.halted then s.endCommit l r .safeState []
       else if c.beat + abandonBeats ≤ now then s.endCommit l r .busy []
       else s)
    else if c.beat + abandonBeats ≤ now then s.endCommit l r .busy []
    else
      let crc := beBytes 4 c.image.crc.toNat
      let s1 := s.onLane l (fun x =>
        ((x.onFlash (fun f => { f with heddle := tput [] f.heddle r (markSpare (tget [] f.heddle r)) })).onHed
          (fun h => { h with commits := h.commits + 1 })).detail 0x0008 0 (beBytes 1 r ++ zeros 3 ++ crc ++ zeros 8))
      s1.endCommit l r .ok crc

/-! ### Rows of the interlocks (R218, R223 to R229) -/

/-- THRESHOLD_CROSSING: the signal of point `p` takes new codes in the two planes; its comparators follow, the local terms act,
and a changed literal is sent to both lanes (R218, R224, Table 06-8). A die that does not run yet only has the signal, which its
comparators take when it starts. -/
def State.thresholdCrossing (s : State) (p codeA codeB : Nat) : State :=
  let r := p / 64
  let i := p % 64
  if p < 512 then
    let lit : Literal := match (s.fe r).image with | some im => tget {} im.literals i | none => {}
    let s1 := (s.planeCheck r).onFe r (fun f => { f with
      codeA := tput 0 f.codeA i (codeA % 65536), codeB := tput 0 f.codeB i (codeB % 65536)
      compA := if f.running then tput 0 f.compA i (comparator lit (tget 0 f.compA i) (codeA % 65536)) else f.compA
      compB := if f.running then tput 0 f.compB i (comparator lit (tget 0 f.compB i) (codeB % 65536)) else f.compB })
    s1.literalsMoved r
  else s

/-- VECTOR_REFRESH: a front-end die whose last vector is 100 µs old sends its literals again (R227); planes that have differed for
more than 1 µs show (R236). -/
def State.vectorRefresh (s : State) (r : Nat) : State :=
  if r < 8 && (s.fe r).running && (s.fe r).vectorBeat + 10000 ≤ s.pkg.beat then (s.planeCheck r).sendVector r else s

/-- LITERAL_VECTOR: a lane receives the next vector of a region, evaluates every cross-region term and sends inhibit messages
(steps 3 and 4 of Table 06-8). -/
def State.literalVector (s : State) (l : LaneId) (r now : Nat) : State :=
  match (s.lane l).vectorIn.find? (fun v => v.1 = r) with
  | none => s
  | some v =>
    s.onLane l (fun x =>
      (({ x with vectorIn := x.vectorIn.erase v }).onHed (fun h =>
        { h with vectors := oset h.vectors r (v.2.1, v.2.2.1, v.2.2.2, now) })).sendInhibits r v.2.1)

/-- VECTOR_TIMEOUT: a lane that has received no vector of a region for 200 µs takes its literals at their fault values
(R227). -/
def State.vectorTimeout (s : State) (l : LaneId) (r now : Nat) : State :=
  match (s.lane l).blk.hed.vectors.lookup r with
  | some v =>
    if v.2.2.2 + 20000 ≤ now then
      s.onLane l (fun x => (x.onHed (fun h => { h with vectors := odel h.vectors r })).sendInhibits r v.1)
    else s
  | none => s

/-- The other lane's inhibit messages are applied as they arrive while the active lane's fault line is set or its heartbeat
is missing, not having toggled for 20 µs (R89, R229). -/
def State.activeSuspect (s : State) : Bool :=
  match s.active with
  | some l => (s.lane l).faultLine || !(s.lane l).blk.lane.heartbeat || (s.lane l).blk.lane.hbBeat + 2000 ≤ s.pkg.beat
  | none => true

/-- The lane whose inhibit messages a front-end die applies is `l` (R228, R229). -/
def State.inhibitsFrom (s : State) (l : LaneId) : Bool :=
  match s.active with
  | some k => if s.activeSuspect then decide (k ≠ l) else decide (k = l)
  | none => true

/-- The terms of a lane's inhibit message at the die. -/
def FrontEnd.putCross (f : FrontEnd) (l : LaneId) (c : BitVec 64) (use : Bool) : FrontEnd :=
  let g := match l with | .a => { f with crossA := c } | .b => { f with crossB := c }
  if use then { g with cross := c } else g

/-- The messages of a lane that a front-end die holds for pairing. -/
def FrontEnd.inhOf (f : FrontEnd) : LaneId → List Inhibit
  | .a => f.inhA
  | .b => f.inhB

/-- Put the messages of a lane that wait for their pair. -/
def FrontEnd.setInh (f : FrontEnd) (l : LaneId) (q : List Inhibit) : FrontEnd :=
  match l with
  | .a => { f with inhA := q }
  | .b => { f with inhB := q }

/-- INHIBIT_MESSAGE: the target front-end die receives a lane's next inhibit message, applies the active lane's, and pairs
messages by source region and vector number; a differing pair counts as a disagreement (R228, R229). -/
def State.inhibitMessage (s : State) (l : LaneId) (r : Nat) : State :=
  match (s.lane l).inhibits.find? (fun m => m.region = r) with
  | none => s
  | some m =>
    let s1 := s.onLane l (fun x => { x with inhibits := x.inhibits.erase m })
    let s2 := s1.onFe r (fun f => f.putCross l m.cross (s.inhibitsFrom l))
    let mate := ((s2.fe r).inhOf l.other).find? (fun q => q.source = m.source && q.vector = m.vector)
    match mate with
    | none => s2.onFe r (fun f => f.setInh l ((f.inhOf l ++ [m]).drop ((f.inhOf l).length - 15)))
    | some q =>
      let s3 := s2.onFe r (fun f => f.setInh l.other ((f.inhOf l.other).erase q))
      if !(s.a.inService && s.b.inService) then s3
      else
        let s4 := s3.onFe r (fun f => f.differTerms (q.cross ^^^ m.cross) s.pkg.beat)
        if q.cross = m.cross then s4 else s4.countDisagree.renewCause (bitRegion r 6)

/-! ### Supervision (R234 to R236) -/

/-- CRC_CHECK: the front-end die of region `r` read back CRCs `a` and `b` of its two planes and compares them with HED_CRC of
both lanes (R234). A region without a committed configuration has no CRC to compare. -/
def State.crcCheck (s : State) (r : Nat) (a b : Word) : State :=
  if r < 8 && (s.fe r).running && (s.fe r).image.isSome then
    let good := fun (x : Lane) => !x.inService || (tget 0 x.blk.hed.crc r = a && tget 0 x.blk.hed.crc r = b)
    if good s.a && good s.b then
      let f := fun (x : Lane) => if x.inService then x.onHed (fun h => { h with checks := h.checks + 1 }) else x
      ({ s with a := f s.a, b := f s.b }).endCauseBoth (bitRegion r 4)
    else s.raiseBoth (bitRegion r 4) true
  else s

/-- CROSS_REGION_CRC_CHECK: a lane's CRC of the cross-region terms of region `r` differs from HED_CRC: class L (R235). -/
def State.crossCrcCheck (s : State) (l : LaneId) (r : Nat) (crc : Word) : State :=
  if r < 8 && (s.lane l).inService && ((s.lane l).blk.hed.image.lookup r).isSome &&
      decide (crc ≠ tget 0 (s.lane l).blk.hed.crc r) then
    s.raise l 169 true
  else s

/-- WALKING_VECTOR: the front-end die of region `r` tested its planes (R236); planes whose terms differ outside the test keep the
cause present. -/
def State.walkingVector (s : State) (r : Nat) (passed : Bool) : State :=
  if r < 8 && (s.fe r).running then
    (if !passed then s.raiseBoth (bitRegion r 5) true
     else if (s.fe r).planeDiff.isSome then s.planeCheck r
     else s.endCauseBoth (bitRegion r 5))
  else s

/-! ### The rows of chapter 06 -/

def execRegionFrame (region : Nat) (samples : List UnitSample) (s : State) : Host.Outcome State Fault Refusal :=
  .next ((s.regionFrame region samples).literalsMoved region)

def execSampleFrame (l : LaneId) (region : Nat) (linkOk : Bool) (s : State) : Host.Outcome State Fault Refusal :=
  .next (s.sampleFrame l region linkOk)

def execFrameCheck (l : LaneId) (region : Nat) (resentOk : Bool) (s : State) : Host.Outcome State Fault Refusal :=
  .next (s.frameCheck l region resentOk)

def execOutputUpdate (l : LaneId) (region beat : Nat) (s : State) : Host.Outcome State Fault Refusal :=
  .next (((s.at_ beat).outputUpdate l region (s.at_ beat).pkg.beat).literalsMoved region)

def execRegionUpdateTimer (l : LaneId) (region beat : Nat) (s : State) : Host.Outcome State Fault Refusal :=
  .next ((s.at_ beat).regionUpdateTimer l region (s.at_ beat).pkg.beat)

def execUpdateTimeout (l : LaneId) (region beat : Nat) (s : State) : Host.Outcome State Fault Refusal :=
  .next (((s.at_ beat).updateTimeout l region (s.at_ beat).pkg.beat).literalsMoved region)

def execDisagreementWindow (region beat : Nat) (s : State) : Host.Outcome State Fault Refusal :=
  .next (((s.at_ beat).disagreementWindow region (s.at_ beat).pkg.beat).literalsMoved region)

def execTestSlot (region ms beat : Nat) (results : List SlotResult) (s : State) : Host.Outcome State Fault Refusal :=
  .next (((s.at_ beat).testSlot region ms (s.at_ beat).pkg.beat results).literalsMoved region)

def execOvercurrent (point beat : Nat) (s : State) : Host.Outcome State Fault Refusal :=
  .next (((s.at_ beat).overcurrent point (s.at_ beat).pkg.beat).literalsMoved (point / 64))

def execReadbackFault (point beat : Nat) (s : State) : Host.Outcome State Fault Refusal :=
  .next (((s.at_ beat).readbackFault point).literalsMoved (point / 64))

def execFieldSupplyFault (region : Nat) (f : FieldSupply) (s : State) : Host.Outcome State Fault Refusal :=
  .next ((s.fieldFault region f).literalsMoved region)

def execFieldSupplyRestored (region : Nat) (s : State) : Host.Outcome State Fault Refusal :=
  .next (s.fieldRestored region)

def execFrontEndRestart (region : Nat) (s : State) : Host.Outcome State Fault Refusal :=
  .next (s.frontEndRestart region)

def execFrontEndHeartbeatLoss (region beat : Nat) (s : State) : Host.Outcome State Fault Refusal :=
  .next ((s.at_ beat).noHeartbeats region (s.at_ beat).pkg.beat)

def execThresholdCrossing (point codeA codeB : Nat) (s : State) : Host.Outcome State Fault Refusal :=
  .next (s.thresholdCrossing point codeA codeB)

def execLiteralVector (l : LaneId) (region beat : Nat) (s : State) : Host.Outcome State Fault Refusal :=
  .next ((s.at_ beat).literalVector l region (s.at_ beat).pkg.beat)

def execVectorRefresh (region beat : Nat) (s : State) : Host.Outcome State Fault Refusal :=
  .next ((s.at_ beat).vectorRefresh region)

def execVectorTimeout (l : LaneId) (region beat : Nat) (s : State) : Host.Outcome State Fault Refusal :=
  .next ((s.at_ beat).vectorTimeout l region (s.at_ beat).pkg.beat)

def execInhibitMessage (l : LaneId) (region : Nat) (s : State) : Host.Outcome State Fault Refusal :=
  .next ((s.inhibitMessage l region).literalsMoved region)

def execCrcCheck (region : Nat) (crcA crcB : Word) (s : State) : Host.Outcome State Fault Refusal :=
  .next ((s.crcCheck region crcA crcB).literalsMoved region)

def execCrossRegionCrcCheck (l : LaneId) (region : Nat) (crc : Word) (beat : Nat) (s : State) :
    Host.Outcome State Fault Refusal :=
  .next ((s.at_ beat).crossCrcCheck l region crc)

def execWalkingVector (region : Nat) (passed : Bool) (s : State) : Host.Outcome State Fault Refusal :=
  .next ((s.walkingVector region passed).literalsMoved region)

def execHeddlePersist (l : LaneId) (region : Nat) (s : State) : Host.Outcome State Fault Refusal :=
  .next (s.heddlePersist l region)

def execHeddleVerify (l : LaneId) (region : Nat) (reported : Word) (s : State) : Host.Outcome State Fault Refusal :=
  .next (s.heddleVerify l region reported)

def execHeddleSwitchOverlapEnd (region : Nat) (s : State) : Host.Outcome State Fault Refusal :=
  .next (s.heddleOverlapEnd region)

def execHeddleMark (l : LaneId) (region beat : Nat) (s : State) : Host.Outcome State Fault Refusal :=
  .next ((s.at_ beat).heddleMark l region (s.at_ beat).pkg.beat)

end Sys2Proof.Machine
end

