-- ==== Sys2Proof/Machine/Forces.lean ====
section
/-! DEFINITION. The point opcodes (Table 09-9): reading and writing points (R354, R355), forces (R188 to R196, Table 05-6) and
the configuration of units and cluster owners (R237 to R240). A `check` gives the first refusal of steps 11 and 12 of
Table 09-5; a `run` is what the opcode does in one lane. -/

namespace Sys2Proof.Machine

/-- A tenant names a point of a cluster that it does not own (R152). -/
def Lane.pointDenied (x : Lane) (h : Hdr) (p : Nat) : Bool := h.sender.getD 0 ≠ 0 && x.pointOwner p ≠ h.sender.getD 0

/-! ### READ_POINTS and WRITE_POINTS -/

def checkReadPoints (x : Lane) (h : Hdr) (first count : Nat) : Option Status :=
  if 512 < first + count then some .badParam
  else if (List.range count).any (fun i => x.pointDenied h (first + i)) then some .notPermitted
  else if count < 1 || 128 < count then some .badParam
  else none

/-- The frame of region `r` that CLOSE named for the last released epoch (R355). -/
def Lane.closedFrame (x : Lane) (r : Nat) : SFrame :=
  match x.lastInfo with
  | some i =>
    let n := i.frames.getD r 0
    ((tget [] x.blk.pnt.frames r).find? (fun f => f.number = n)).getD ⟨n, [], 0⟩
  | none => ⟨0, [], 0⟩

/-- READ_POINTS: words, status and frame numbers of the frames that CLOSE named (R355). -/
def runReadPoints (x : Lane) (first count : Nat) : Answer :=
  .done .ok ((List.range count).flatMap (fun i =>
    let f := x.closedFrame ((first + i) / 64)
    let v := tget {} f.units ((first + i) % 64)
    beBytes 4 v.word.toNat ++ beBytes 2 (v.stat.toNat % 65536) ++ beBytes 2 f.number))

def checkWritePoints (x : Lane) (h : Hdr) (items : List (Nat × Word)) : Option Status :=
  if items.any (fun i => decide (511 < i.1)) then some .badParam
  else if items.any (fun i => x.pointDenied h i.1) then some .notPermitted
  else if items.length < 1 || 128 < items.length then some .badParam
  else if items.any (fun i => !isOutputType (x.unitType i.1)) then some .badParam
  else none

/-- WRITE_POINTS in epoch `e`: a write waits for a commit of its owner when that is in RUNNING, else for the next pick release
(R354). -/
def runWritePoints (x : Lane) (e : Word) (items : List (Nat × Word)) : Lane × Answer :=
  let running := fun (i : Nat × Word) => decide ((x.part (x.pointOwner i.1)).state = .running)
  (x.onMan (fun m => { m with
    pointWrites := m.pointWrites ++ (items.filter running).map (fun i => (e, i.1, i.2))
    pointsNext := m.pointsNext ++ (items.filter (fun i => !running i)).map (fun i => (e, i.1, i.2)) }), .done .ok [])

/-- At a pick release, writes of earlier epochs that wait for it reach the output image (R354). -/
def Lane.releaseWrites (x : Lane) : Lane :=
  x.onMan (fun m => { m with outImage := m.pointsNext.foldl (fun t w => tput 0 t w.2.1 w.2.2) m.outImage, pointsNext := [] })

/-! ### Forces -/

/-- Two force entries name one target: the same point in the same image, or the same variable of a partition (R189). -/
def sameTarget (kind part target : Nat) (f : Force) : Bool :=
  f.kind = kind && f.target = target && (kind ≠ 3 || f.part = part)

/-- The entry for a target. -/
def Lane.forceAt (x : Lane) (kind part target : Nat) : Option (Nat × Force) :=
  x.man.forces.find? (fun e => sameTarget kind part target e.2)

/-- Whether a force's arguments name a target in its identifier's range (step 11 of Table 09-5). -/
def forceInRange (a : ForceArgs) : Bool :=
  if a.kind = 1 || a.kind = 2 then a.target ≤ 511 else a.kind ≠ 3 || a.targetPart < 16

/-- A tenant may act only on points it owns, on its own variables, and not on entries of partition 0 (R190). -/
def Lane.forceDenied (x : Lane) (h : Hdr) (a : ForceArgs) : Bool :=
  let p := h.sender.getD 0
  p ≠ 0 && ((if a.kind = 1 || a.kind = 2 then x.pointOwner a.target ≠ p else a.targetPart ≠ p) ||
    (match x.forceAt a.kind a.targetPart a.target with | some e => e.2.setter = 0 | none => false))

/-- The kind-3 symbol that a variable force names in its partition's running image. -/
def Lane.forceSymbol (x : Lane) (part target : Nat) : Option Symbol :=
  match (x.part part).current with
  | some i => i.symbols.find? (fun s => s.kind = 3 && s.id = target)
  | none => none

/-- Entries that partition `p` has set. -/
def Lane.forcesBy (x : Lane) (p : Nat) : Nat := (x.man.forces.filter (fun e => e.2.setter = p)).length

/-- FORCE_SET (Table 05-6). -/
def checkForceSet (x : Lane) (h : Hdr) (a : ForceArgs) : Option Status :=
  let p := h.sender.getD 0
  if !forceInRange a then some .badParam
  else if x.forceDenied h a then some .notPermitted
  else if a.kind < 1 || 3 < a.kind then some .badParam
  else
    let bad := a.kind = 3 && (match x.forceSymbol a.targetPart a.target with
      | some s => decide (2 ^ (8 * s.size) ≤ a.value.toNat)
      | none => true)
    let isNew := (x.forceAt a.kind a.targetPart a.target).isNone
    if bad || (isNew && (1024 ≤ x.man.forces.length || (p ≠ 0 && 64 ≤ x.forcesBy p))) then some .badParam
    else none

/-- The lowest free index of the force table. -/
def Lane.freeForce (x : Lane) : Nat := ((List.range 1024).find? (fun i => (x.man.forces.lookup i).isNone)).getD 0


/-- FORCE_SET creates or replaces one entry (R189, R190). -/
def runForceSet (x : Lane) (h : Hdr) (e : Word) (a : ForceArgs) : Lane × Answer :=
  let old := x.forceAt a.kind a.targetPart a.target
  let i := match old with | some q => q.1 | none => x.freeForce
  let part := if a.kind = 3 then a.targetPart else x.pointOwner a.target
  let f : Force := ⟨a.kind, h.sender.getD 0, part, a.target, a.value, e⟩
  (x.onMan (fun m => { m with forces := oset m.forces i f }),
   .done .ok (beBytes 2 i ++ beBytes 1 (b2n old.isSome) ++ zeros 1 ++ beBytes 4 e.toNat))

/-- FORCE_CLEAR (Table 05-6). -/
def checkForceClear (x : Lane) (h : Hdr) (mode : Nat) (a : ForceArgs) : Option Status :=
  if mode = 1 then
    (if !forceInRange a then some .badParam
     else if x.forceDenied h a then some .notPermitted
     else if a.kind < 1 || 3 < a.kind then some .badParam
     else none)
  else if 15 < a.targetPart then some .badParam
  else if h.sender.getD 0 ≠ 0 && a.targetPart ≠ h.sender.getD 0 then some .notPermitted
  else none

/-- The entries that a FORCE_CLEAR clears. -/
def Lane.forcesCleared (x : Lane) (h : Hdr) (mode : Nat) (a : ForceArgs) : Tab Force :=
  x.man.forces.filter (fun e =>
    if mode = 1 then sameTarget a.kind a.targetPart a.target e.2
    else e.2.part = a.targetPart && (h.sender.getD 0 = 0 || e.2.setter ≠ 0))

/-- FORCE_CLEAR clears one target's entry, or every entry of a target partition that the sender may clear. -/
def runForceClear (x : Lane) (h : Hdr) (mode : Nat) (a : ForceArgs) : Lane × Answer :=
  let ds := x.forcesCleared h mode a
  (x.onMan (fun m => { m with forces := m.forces.filter (fun q => !ds.contains q) }), .done .ok (beBytes 2 ds.length))

/-- FORCE_LIST: MAX is 1 to 32. -/
def checkForceList (max : Nat) : Option Status := if max < 1 || 32 < max then some .badParam else none

/-- A force is HELD (R194). -/
def State.forceHeld (s : State) (l : LaneId) (f : Force) : Bool :=
  let x := s.lane l
  if f.kind = 2 then
    let q := (x.part (x.pointOwner f.target)).state
    s.unitFault f.target || x.loopHolds f.target || q = .noProgram || q = .waitTime || q = .safe
  else (x.part f.part).state ≠ .running

/-- The entries that a sender sees, from an index (Table 05-6). -/
def Lane.forcesSeen (x : Lane) (h : Hdr) (start : Nat) : Tab Force :=
  x.man.forces.filter (fun e => decide (start ≤ e.1) && (h.sender.getD 0 = 0 || e.2.part = h.sender.getD 0))

/-- FORCE_LIST: entries in index order. -/
def State.runForceList (s : State) (l : LaneId) (h : Hdr) (start max : Nat) : Answer :=
  let es := (s.lane l).forcesSeen h start
  let next := match (es.drop max).head? with | some e => e.1 | none => 0xFFFF
  .done .ok (beBytes 2 (es.take max).length ++ beBytes 2 next ++ (es.take max).flatMap (fun e =>
    beBytes 2 e.1 ++ beBytes 1 e.2.kind ++ beBytes 1 e.2.setter ++ beBytes 1 e.2.part ++
    beBytes 1 (b2n (s.forceHeld l e.2)) ++ zeros 2 ++ beBytes 8 e.2.target ++ beBytes 8 e.2.value.toNat ++
    beBytes 4 e.2.setPick.toNat ++ zeros 4))

/-! ### CONFIG_UNITS and cluster moves -/

/-- What was last written for a unit: configuration, parameter and safe word, in force or not (R446). -/
def Lane.unitWritten (x : Lane) (p : Nat) : Word × Word × Word :=
  match x.blk.pnt.pendingUnits.find? (fun u => u.1 = p) with
  | some u => u.2
  | none => (x.unitCfg p, x.unitParam p, x.unitSafeWord p)

/-- The committed configuration of the unit's region uses it as an enabled literal or as a target (R238). -/
def Lane.heddleUses (x : Lane) (p : Nat) : Bool :=
  match x.blk.hed.image.lookup (p / 64) with
  | none => false
  | some im =>
    (tget {} im.literals (p % 64)).en || (tget {} im.targets (p % 64)).localEn || (tget {} im.targets (p % 64)).crossEn

/-- A loop that is not OFF uses the unit as FB, FB2, FF or OUT (R277). -/
def Lane.loopUses (x : Lane) (p : Nat) : Bool :=
  x.blk.loop.loops.any (fun e =>
    let w := fun (i : Nat) => e.2.recWords.getD i 0
    e.2.recWords ≠ [] && e.2.mode ≠ 0 &&
    (field (w 0) 8 0 = p || (bitOf (w 0) 31 && field (w 0) 24 16 = p) || (bitOf (w 1) 15 && field (w 1) 8 0 = p) ||
     (bitOf (w 1) 31 && field (w 1) 24 16 = p)))

/-- The parameter word that a type admits (Table 06-14): every word for the types with a deadband or an event step, a curve and a
deadband for AI_NTC, a period for PWM, and 0 for the others. -/
def typeParamOk (t : Nat) (v : Word) : Bool :=
  if (1 ≤ t && t ≤ 5) || t = 8 then true
  else if t = 6 then (v &&& 0xFFFF0003#32) = v && field v 1 0 ≠ 3
  else if t = 12 then 500 ≤ v.toNat && v.toNat ≤ 10000000
  else v = 0

/-- The values that one item may carry: defined bits, type, safe mode, debounce and parameter (R198, R212, Table 06-14). -/
def unitItemOk (u : UnitItem) : Bool :=
  (u.cfg &&& 0x830FFF00#32) = u.cfg && cfgType u.cfg ≤ 12 && cfgSafeMode u.cfg ≠ 3 && cfgFilter u.cfg ≤ 200 &&
  typeParamOk (cfgType u.cfg) u.param

/-- Two items give one cluster different owners (R355). -/
def ownersDiffer (items : List UnitItem) : Bool :=
  items.any (fun u => items.any (fun v =>
    u.setOwner && v.setOwner && decide (u.point / 8 = v.point / 8) && decide (u.owner ≠ v.owner)))

/-- One item against the unit as last written (R238, R277, R447). -/
def Lane.checkUnit (x : Lane) (u : UnitItem) : Option Status :=
  let w := x.unitWritten u.point
  let retype := cfgType u.cfg ≠ cfgType w.1
  let remode := cfgSafeMode u.cfg ≠ cfgSafeMode w.1
  if (retype || remode || u.safe ≠ w.2.2) && x.heddleUses u.point then some .badParam
  else if retype && x.loopUses u.point then some .badParam
  else if remode && !retype && cfgEn w.1 then some .rejectedRunning
  else none

/-- CONFIG_UNITS. -/
def checkConfigUnits (x : Lane) (h : Hdr) (items : List UnitItem) : Option Status :=
  let p := h.sender.getD 0
  if items.any (fun u => decide (511 < u.point) || (u.setOwner && decide (15 < u.owner))) then some .badParam
  else if p ≠ 0 && items.any (fun u => u.setOwner || x.pointOwner u.point ≠ p) then some .notPermitted
  else if items.length < 1 || 64 < items.length || items.any (fun u => !unitItemOk u) || ownersDiffer items then some .badParam
  else if items.any (fun u => x.checkUnit u = some .badParam) then some .badParam
  else items.findSome? x.checkUnit

/-- CONFIG_UNITS: units change with their region's next frame, owners with the next pick release (R237); the configuration is
stored in flash (R240). -/
def runConfigUnits (x : Lane) (now : Nat) (items : List UnitItem) : Lane × Answer :=
  ((x.onPnt (fun b => { b with
    pendingUnits := items.foldl (fun t u => t.filter (fun q => q.1 ≠ u.point) ++ [(u.point, u.cfg, u.param, u.safe)])
      b.pendingUnits
    pendingOwner := items.foldl (fun t u => if u.setOwner then oset t (u.point / 8) u.owner else t) b.pendingOwner
    })).startFlash .config now, .done .ok [])

/-- The forces of a cluster that moves from `old` to `new` (R195): entries of the former tenant are cleared, each with a
recorder entry, and those of partition 0 take the new owner as target partition. -/
def Lane.moveForces (x : Lane) (cluster old new : Nat) : Lane :=
  let mine := fun (e : Nat × Force) => e.2.kind ≠ 3 && decide (e.2.target / 8 = cluster)
  let gone := x.man.forces.filter (fun e => mine e && decide (e.2.setter = old) && decide (old ≠ 0))
  let y := x.onMan (fun m => { m with forces := (m.forces.filter (fun e => !gone.contains e)).map (fun e =>
    if mine e && decide (e.2.setter = 0) then (e.1, { e.2 with part := new }) else e) })
  gone.foldl (fun (z : Lane) e => z.detail 0x0004 old
    (beBytes 2 e.2.target ++ beBytes 1 e.2.setter ++ zeros 5 ++ beBytes 8 e.2.value.toNat)) y

/-- Cluster owners change at a pick release (R237): forces follow R195, and loops R277, class N. -/
def State.applyOwners (s : State) (l : LaneId) : State :=
  let x := s.lane l
  let moves := x.blk.pnt.pendingOwner.filter (fun m => decide (tget 0 x.blk.pnt.owner m.1 ≠ m.2))
  let s1 := s.onLane l (fun y => y.onPnt (fun b => { b with pendingOwner := [] }))
  moves.foldl (fun (t : State) m =>
    let old := tget 0 (t.lane l).blk.pnt.owner m.1
    let offs := (t.lane l).loopsOffByMove m.1 m.2
    let t1 := t.onLane l (fun y => ((y.onPnt (fun b => { b with owner := tput 0 b.owner m.1 m.2 })).moveForces m.1 old m.2))
    let t2 := offs.foldl (fun (u : State) n => u.onLane l (fun y => y.loopOffByMove n u.pkg.beat)) t1
    if offs = [] then t2 else t2.flag l 2093 false) s1

end Sys2Proof.Machine
end

