-- ==== Sys2Proof/Machine/Meter.lean ====
section
/-! DEFINITION. The metering engine (chapter 08): blocks, windows, accumulation, pulses and the metering opcodes. -/

namespace Sys2Proof.Machine

/-! ### What is fitted (Table 00-1) -/

/-- Metering circuits, and current inputs, of an ordering code. -/
def Order.circuits : Order → Nat
  | .m00 => 0
  | .m32 => 32
  | .m96 => 96

/-- Voltage inputs of an ordering code. -/
def Order.vins : Order → Nat
  | .m00 => 0
  | _ => 12

/-- Pulse outputs of an ordering code. -/
def Order.pulses : Order → Nat
  | .m96 => 24
  | _ => 0

/-! ### Blocks (R292 to R295) -/

/-- Samples of input `n` in a block. -/
def blockOf (b : List (List Int)) (n : Nat) : List Int := b.getD n []

/-- The CRC-32 over a block's samples from every fitted input (R293), each sample as its 24 bits, least significant byte
first (assumption 33). -/
def blockCrc (o : Order) (vin iin : List (List Int)) : Word :=
  let bytes := fun (n : Nat) (b : List (List Int)) => (List.range n).flatMap (fun i =>
    ((List.range 8).map (fun k => (blockOf b i).getD k 0)).flatMap (fun v => leBytes 3 (twos 24 v)))
  crc32 (bytes o.vins vin ++ bytes o.circuits iin)

/-- Input fields of NRG_CIRC_CFG (Table 08-11). -/
def circEn (w : Word) : Bool := bitOf w 31
def circSign (w : Word) : Bool := bitOf w 30
def circMode (w : Word) : Bool := bitOf w 29
def circIin (w : Word) : Nat := field w 14 8
def circVin (w : Word) : Nat := field w 3 0

/-! ### Decimators (R292) -/

/-- A quotient whose rounding the spec leaves open: the one below or the one above. -/
def quot (num den : Int) : Int :=
  let q := num / den
  if num % den = 0 then q else if Config.roundChoice num den then q + 1 else q

/-- One modulator bit enters the integrators. -/
def Sinc3.bit (q : Sinc3) (b : Bool) : Sinc3 :=
  let i1 := if b then q.i1 + 1 else q.i1
  let i2 := q.i2 + i1
  { q with i1 := i1, i2 := i2, i3 := q.i3 + i2 }

/-- Bits `k` to `k + n - 1` of a word of modulator bits enter, in order. -/
def Sinc3.bits (w : Nat) : Nat → Nat → Sinc3 → Sinc3
  | 0, _, q => q
  | n + 1, k, q => Sinc3.bits w n (k + 1) (q.bit (w.testBit k))

/-- The combs give a sample, scaled so that a density of 1 gives 8,388,607 and a density of 0 gives -8,388,608. -/
def Sinc3.sample (q : Sinc3) : Int × Sinc3 :=
  let d1 := q.i3 - q.c1
  let d2 := d1 - q.c2
  (quot ((d2 - q.c3).toNat * (2 ^ 24 - 1)) (1250 ^ 3) - 2 ^ 23, { q with c1 := q.i3, c2 := d1, c3 := d2 })

/-- The eight samples of a block from the 10,000 bits that a modulator gave in its 1 ms, 1,250 for each. -/
def Sinc3.block (q : Sinc3) (w : Nat) : List Int × Sinc3 :=
  (List.range 8).foldl (fun a k =>
    let r := (Sinc3.bits w 1250 (1250 * k) a.2).sample
    (a.1 ++ [r.1], r.2)) ([], q)

/-- Every fitted input's block, and the decimators after it. -/
def Lane.decimate (x : Lane) (o : Order) (vin iin : List Nat) : Lane × List (List Int) × List (List Int) :=
  let run := fun (n : Nat) (t : Tab Sinc3) (ws : List Nat) => (List.range n).map (fun i => (tget {} t i).block (ws.getD i 0))
  let keep := fun (bs : List (List Int × Sinc3)) => (bs.zipIdx).foldl (fun (t : Tab Sinc3) b => tput {} t b.2 b.1.2) []
  let v := run o.vins x.decV vin
  let i := run o.circuits x.decI iin
  ({ x with decV := keep v, decI := keep i }, v.map (·.1), i.map (·.1))

/-! ### Agreed samples (R294, R295) -/

/-- GAIN and PHASE of a trim register (Table 08-11). -/
def trimGain (w : Word) : Int := signed 16 (field w 15 0)
def trimPhase (w : Word) : Int := signed 16 (field w 31 16)

/-- One agreed sample of an input: the runs of Table 08-2 go on, and the sample takes stages 1 and 2 of R294. The results tell whether
the sample completes a condition, stuck and clipping. -/
def MInput.take (m : MInput) (x : Int) : MInput × Int × Bool × Bool :=
  let hi := if x = 8388607 then m.runHi + 1 else 0
  let lo := if x = -8388608 then m.runLo + 1 else 0
  let cl := if 8304722 ≤ x.natAbs then m.runClip + 1 else 0
  let stuck := decide (8 ≤ hi) || decide (8 ≤ lo)
  let y := Config.highPass m.xPrev m.yPrev x
  ({ m with runHi := hi, runLo := lo, runClip := cl, stuck := m.stuck || stuck, clip := m.clip || (decide (8 ≤ cl) && !stuck),
            xPrev := x, yPrev := y }, quot (y * (2 ^ 20 + trimGain m.trim)) (2 ^ 20), stuck, decide (8 ≤ cl) && !stuck)

/-- Agreed block `n` of an input. -/
def MInput.takeBlock (m : MInput) (n : Nat) (xs : List Int) : MInput :=
  let r := xs.foldl (fun (a : MInput × MBlock) x =>
    let q := a.1.take x
    (q.1, { a.2 with ys := a.2.ys ++ [q.2.1], stuck := a.2.stuck || q.2.2.1, clip := a.2.clip || q.2.2.2 }))
    (m, MBlock.mk n [] false false)
  { r.1 with blocks := (r.1.blocks ++ [r.2]).drop (r.1.blocks.length - 299) }

/-- The event of a metering subject (Table 08-8): subject type 0 circuit, 1 VIN, 2 IIN, 3 pulse output. -/
def Lane.meterEvent (x : Lane) (l : LaneId) (ty subj code : Nat) (value : Word) : Lane :=
  let owner := if ty = 0 then (x.circuit subj).owner else 0
  x.enter l 6 0 owner (.meter ty subj code (w32 x.blk.nrg.window) value)

/-- The collector bit of an input: VIN at 2,016, IIN at 1,920 (Table 14-1). -/
def inputBit (ty n : Nat) : Nat := if ty = 1 then 2016 + n else 1920 + n

/-- Input `n` of a type. -/
def Lane.minput (x : Lane) (ty n : Nat) : MInput := if ty = 1 then tget {} x.blk.nrg.vin n else tget {} x.blk.nrg.iin n

/-- Put input `n` of a type. -/
def Lane.setMinput (x : Lane) (ty n : Nat) (m : MInput) : Lane :=
  x.onNrg (fun b => if ty = 1 then { b with vin := tput {} b.vin n m } else { b with iin := tput {} b.iin n m })

/-- A lane takes the agreed samples of one input: a new fault is class N and enters an event (R295). -/
def Lane.takeInput (x : Lane) (l : LaneId) (ty n block : Nat) (samples : List Int) : Lane :=
  let m := x.minput ty n
  let q := m.takeBlock block samples
  let y := x.setMinput ty n q
  let newStuck := q.stuck && !m.stuck
  let newClip := q.clip && !m.clip
  let z := if newStuck || newClip then y.setBit l (inputBit ty n) true else y
  let z1 := if newStuck then z.meterEvent l ty n 0x05 1 else z
  if newClip then z1.meterEvent l ty n 0x05 2 else z1

/-- A lane takes agreed block `k`. -/
def Lane.takeBlock (x : Lane) (l : LaneId) (o : Order) (k : Nat) (vin iin : List (List Int)) : Lane :=
  let y := (List.range o.vins).foldl (fun (z : Lane) n => z.takeInput l 1 n k (blockOf vin n)) x
  (List.range o.circuits).foldl (fun (z : Lane) n => z.takeInput l 2 n k (blockOf iin n)) y

/-- DECIMATOR_BLOCK: a lane's decimators complete a block of eight samples of every fitted input, from the modulator bits that it sampled
since the block before; block n ends at module beat count 100,000 n, and the row's block is the last that has ended (R291, R292). With the engine enabled the lane sends the block's CRC
to its partner (R293); a lane without a partner takes its own block. While the lane's T4 is lost no bits come (R34). -/
def State.decimatorBlock (s : State) (l : LaneId) (vin iin : List Nat) : State :=
  let x := s.lane l
  let n := s.pkg.beat / 100000
  if s.pkg.order = .m00 || !x.collects || x.clockLost 4 then s
  else
    let d := x.decimate s.pkg.order vin iin
    let s0 := s.setLane l d.1
    if x.inService && x.blk.nrg.en && x.blk.nrg.blockNo < n then
      let s1 := s0.onLane l (fun y => y.onNrg (fun b => { b with blockNo := n }))
      if (s.lane l.other).inService then
        (s1.onLane l (fun y => y.onNrg (fun b => { b with blocks := b.blocks ++ [(n, d.2.1, d.2.2)] }))).send l
          (.block n d.2.1 d.2.2 (blockCrc s.pkg.order d.2.1 d.2.2))
      else s1.onLane l (fun y => y.takeBlock l s.pkg.order n d.2.1 d.2.2)
    else s0

def isBlock (q : Msg) : Bool := match q with | .block .. => true | _ => false

/-- BLOCK_CRC: a lane compares its own oldest block with its partner's CRC; blocks that differ are settled on the active lane's
block, and three within 8 ms are class L for the standby lane (R293). -/
def State.blockCheck (s : State) (l : LaneId) : State :=
  let x := s.lane l
  match x.blk.nrg.blocks with
  | [] => s
  | own :: rest =>
    if !x.inService then s
    else
      let drop := fun (y : Lane) => y.onNrg (fun b => { b with blocks := rest })
      let o := s.pkg.order
      match x.inbox.find? (fun q => match q with | .block n .. => n = own.1 | _ => false) with
      | some (.block n vin iin crc) =>
        let s1 := s.onLane l (fun y => drop { y with inbox := y.inbox.erase (.block n vin iin crc) })
        if crc = blockCrc o own.2.1 own.2.2 then s1.onLane l (fun y => y.takeBlock l o own.1 own.2.1 own.2.2)
        else
          let act := s.active = some l
          let s2 := s1.onLane l (fun y =>
            (y.takeBlock l o own.1 (if act then own.2.1 else vin) (if act then own.2.2 else iin)).onNrg
              (fun b => { b with mismatch := b.mismatch + 1 }))
          if act then s2
          else
            let ts := s.pkg.beat :: x.blk.nrg.mismatches.filter (fun t => decide (s.pkg.beat < t + 800000))
            let s3 := s2.onLane l (fun y => y.onNrg (fun b => { b with mismatches := ts }))
            if 3 ≤ ts.length then s3.raise l 168 true else s3
      | _ =>
        if (s.lane l.other).inService then s
        else s.onLane l (fun y => (drop y).takeBlock l o own.1 own.2.1 own.2.2)

/-! ### Windows (R297 to R309) -/

/-- The sum of products of two windows. -/
def dot (a b : List Int) : Int := (List.zipWith (· * ·) a b).sum

/-- The 800 samples of window `w` of an input, after stages 1 and 2 of R294: those of its hundred blocks; none when a block is
missing. -/
def MInput.window (m : MInput) (w : Nat) : Option (List Int) :=
  let bs := m.blocks.filter (fun b => decide (100 * w < b.n + 100) && decide (b.n ≤ 100 * w) && decide (b.ys.length = 8))
  if bs.length = 100 then some (bs.flatMap (·.ys)) else none

/-- The 256 samples before window `w`, 0 where the input has none. -/
def MInput.before (m : MInput) (w : Nat) : List Int :=
  let ys := (m.blocks.filter (fun b => decide (100 * w < b.n + 132) && decide (b.n + 100 ≤ 100 * w))).flatMap (·.ys)
  List.replicate (256 - ys.length) 0 ++ ys

/-- Stage 3 of R294 over a window: a whole delay moves the samples; how another shift interpolates is open. -/
def shiftPhase (phase : Int) (before win : List Int) : List Int :=
  let all := before ++ win
  (List.range win.length).map (fun k =>
    let i := before.length + k
    if phase % 4096 = 0 && 0 ≤ phase then all.getD (i - (phase / 4096).toNat) 0
    else Config.phaseShift phase ((all.drop (i - 16)).take 33))

/-- v90 of Table 08-3: each sample of the window from the 255 samples up to it. -/
def delay90 (before win : List Int) : List Int :=
  let all := before ++ win
  (List.range win.length).map (fun k =>
    let i := before.length + k
    quot (((List.range 255).map (fun j => Config.shifterTap j * all.getD (i - j) 0)).sum) (2 ^ 30))

/-- The integer square root, from bit `n - 1` down. -/
def isqrtFrom (v : Nat) : Nat → Nat → Nat
  | 0, r => r
  | n + 1, r => isqrtFrom v n (if (r + 2 ^ n) * (r + 2 ^ n) ≤ v then r + 2 ^ n else r)
def isqrt (v : Nat) : Nat := isqrtFrom v 64 0

/-- One of the values from `lo` to `hi`, which the spec leaves open. -/
def between (kind : Nat) (lo hi num den : Int) : Int := lo + Config.meterValue kind num den % (hi - lo + 1)

/-- A computed quantity of exact value `num / den`: within 0.05 % of it, to the unit it is reported in (Table 08-4). -/
def within (kind : Nat) (num den : Int) : Int :=
  let tol : Int := 5 * num.natAbs
  between kind ((10000 * num - tol) / (10000 * den)) (-((-(10000 * num + tol)) / (10000 * den))) num den

/-- The same for a quantity that is the square root of `num / den`. -/
def rootWithin (kind num den : Nat) : Int :=
  between kind (isqrt (num * 9995 ^ 2 / (den * 10000 ^ 2))) (isqrt (num * 10005 ^ 2 / (den * 10000 ^ 2)) + 1) num den

/-- RMS of a window at full scale `fs` (R294, Table 08-3). -/
def rmsOf (kind : Nat) (w : List Int) (fs : Nat) : Int := rootWithin kind ((dot w w).natAbs * fs ^ 2) (800 * 2 ^ 46)

/-- The positive zero crossings of a window, interpolated between two samples: each at numerator / denominator samples. -/
def zeroCrossings : List Int → Nat → List (Int × Int)
  | a :: b :: r, k =>
    let t := zeroCrossings (b :: r) (k + 1)
    if a < 0 && 0 ≤ b then (k * (b - a) - a, b - a) :: t else t
  | _, _ => []

/-- f of a voltage window in mHz (Table 08-3): within 1 mHz of the mean over the periods between the first and the last crossing (Table
08-4); a window without a whole period has none, and its f is open. -/
def frequencyOf (v : List Int) : Int :=
  let cs := zeroCrossings v 0
  match cs.head?, cs.getLast? with
  | some p, some q =>
    let num := 8000000 * ((cs.length : Int) - 1) * p.2 * q.2
    let den := q.1 * p.2 - p.1 * q.2
    if 0 < den then between 6 (-(-num / den) - 1) (num / den + 1) num den else Config.meterValue 7 (dot v v) 0
  | _, _ => Config.meterValue 7 (dot v v) 0

/-- The quantities of a circuit over one window (Table 08-3): `v` and `i` are processed, `v90` is `v` delayed by 90°. Q and f are 0 while
FREQ_RANGE is set (R299). -/
def quantities (v v90 i : List Int) (fsV fsI : Nat) (sign freqRange : Bool) : Quantities :=
  let i1 := if sign then i.map (fun k => -k) else i
  let den : Int := 800 * 2 ^ 46 * 10000
  let power := within 2 (dot v i1 * fsV * fsI * 2 ^ 24) den
  let p := quot power (2 ^ 24)
  let s := rootWithin 4 ((dot v v).natAbs * (dot i1 i1).natAbs * (fsV * fsI) ^ 2) ((800 * 2 ^ 46 * 10000) ^ 2)
  { power := power, vrms := rmsOf 0 v fsV, irms := rmsOf 1 i1 fsI, p := p,
    q := if freqRange then 0 else within 3 (dot v90 i1 * fsV * fsI) den, s := s,
    pf := if s = 0 then 0 else quot (p * 10000) s, f := if freqRange then 0 else frequencyOf v }

/-- Energy of a window in units of 2⁻¹⁶ µWh for a power in 10 mW / 2^24: P × 100 ms is 5 / 18 µWh per 10 mW (R302). -/
def windowEnergy (power : Int) : Int := quot (power * 5 * 65536) (18 * 2 ^ 24)

/-- Add to a value with a 16-bit fraction below it. -/
def addFrac (acc : Int) (frac : Nat) (e : Int) : Int × Nat :=
  let t := acc * 65536 + frac + e
  (t / 65536, (t % 65536).toNat)

/-- Accumulate a contributing window (R302, R303, R305); the second result tells of a wrap. -/
def Circuit.accumulate (c : Circuit) (o : Order) (p : Int) : Circuit × Bool :=
  match o with
  | .m96 =>
    if 0 < p then
      let r := addFrac c.acc c.frac (windowEnergy p)
      ({ c with acc := r.1, frac := r.2 }, false)
    else if p < 0 then
      let r := addFrac c.exp c.expFrac (windowEnergy (-p))
      ({ c with exp := r.1.toNat, expFrac := r.2 }, false)
    else (c, false)
  | _ =>
    if circMode c.cfg then
      let r := addFrac c.acc c.frac (windowEnergy p.natAbs)
      ({ c with acc := r.1 % 2 ^ 64, frac := r.2, wrap := c.wrap || decide (2 ^ 64 ≤ r.1) }, decide (2 ^ 64 ≤ r.1))
    else
      let r := addFrac c.acc c.frac (windowEnergy p)
      let out := decide (2 ^ 63 ≤ r.1) || decide (r.1 < -(2 ^ 63))
      ({ c with acc := signed 64 (twos 64 r.1), frac := r.2, wrap := c.wrap || out }, out)

/-- The bytes that a ledger entry's CRC-32 covers, and those of a BACKLOG entry (R316). -/
def pulseBytes (k : PulseNos) : List Byte :=
  leBytes 4 k.impIssued.toNat ++ leBytes 4 k.impReleased.toNat ++ leBytes 4 k.expIssued.toNat ++ leBytes 4 k.expReleased.toNat
def backlogBytes (n : Nat) : List Byte := leBytes 4 n

/-- The ledger entry of a circuit is written (R309, R316). -/
def Lane.writeLedger (x : Lane) (c : Nat) : Lane :=
  let k := x.circuit c
  x.onMram (fun m => { m with
    ledger := twinPut pulseBytes {} m.ledger c ⟨k.impIssued, k.impReleased, k.expIssued, k.expReleased⟩ })

/-- A pulse that an epoch releases: its number is written as RELEASED after the pick (R309). -/
def Lane.pulseReleased (x : Lane) (e : Event) : Lane :=
  match e.body with
  | .meter 0 c 1 _ n => (x.onCircuit c (fun k => { k with impReleased := n })).writeLedger c
  | .meter 0 c 2 _ n => (x.onCircuit c (fun k => { k with expReleased := n })).writeLedger c
  | _ => x

/-- Pulse output `n`, and its change. -/
def Lane.pulse (x : Lane) (n : Nat) : PulseOut := tget {} x.blk.nrg.pulses n
def Lane.onPulse (x : Lane) (n : Nat) (f : PulseOut → PulseOut) : Lane :=
  x.onNrg (fun b => { b with pulses := tmod {} b.pulses n f })

/-- BACKLOG of an output is written to the ledger (R310). -/
def Lane.writeBacklog (x : Lane) (n : Nat) : Lane :=
  x.onMram (fun m => { m with backlog := twinPut backlogBytes 0 m.backlog n (x.pulse n).backlog })

/-- Fields of NRG_PULSE_CFG. -/
def pulseEn (w : Word) : Bool := bitOf w 31
def pulseDir (w : Word) : Nat := field w 16 16
def pulseCircuit (w : Word) : Nat := field w 6 0

/-- The largest BACKLOG (R311). -/
def backlogMax : Nat := 0xFFFFFFFF

/-- A pulse of a circuit and direction counts on every enabled output that follows it (R310, R311). -/
def Lane.countPulse (x : Lane) (l : LaneId) (c dir : Nat) : Lane :=
  ((List.range 24).filter (fun n =>
    let w := (x.pulse n).cfg
    pulseEn w && pulseCircuit w = c && pulseDir w = dir && !(x.pulse n).saturated)).foldl (fun (y : Lane) n =>
      let b := (y.pulse n).backlog + 1
      let z := (y.onPulse n (fun p => { p with backlog := b, saturated := decide (b = backlogMax) })).writeBacklog n
      if b = backlogMax then (z.setBit l (2028 + n) true).meterEvent l 3 n 0x0A (w32 n) else z) x

/-- Issue one pulse: its number, the ledger, its event and the outputs (R308 to R310). -/
def Lane.issuePulse (x : Lane) (l : LaneId) (c dir : Nat) : Lane :=
  let y := x.onCircuit c (fun k => if dir = 0 then { k with impIssued := k.impIssued + 1 }
    else { k with expIssued := k.expIssued + 1 })
  let n := if dir = 0 then (y.circuit c).impIssued else (y.circuit c).expIssued
  ((y.writeLedger c).meterEvent l 0 c (if dir = 0 then 0x01 else 0x02) n).countPulse l c dir

/-- Spill one direction's accumulator: at most 1,024 pulses (R307). -/
def Lane.spill (l : LaneId) (c dir : Nat) : Nat → Lane → Lane
  | 0, x => x
  | n + 1, x =>
    let k := x.circuit c
    let acc : Int := if dir = 0 then k.acc else k.exp
    if k.weight ≠ 0 && decide ((k.weight : Int) ≤ acc) then
      Lane.spill l c dir n ((x.onCircuit c (fun q => if dir = 0 then { q with acc := q.acc - q.weight }
        else { q with exp := q.exp - q.weight })).issuePulse l c dir)
    else x

/-- Steps 1 and 2 of R301 for an enabled circuit that has the 800 samples of both its inputs; any other produces nothing. -/
def Lane.computeCircuit (x : Lane) (l : LaneId) (o : Order) (c w : Nat) : Lane :=
  let k := x.circuit c
  let v := x.minput 1 (circVin k.cfg)
  let i := x.minput 2 (circIin k.cfg)
  if !circEn k.cfg then x.onCircuit c (fun q => { q with computing := false })
  else match v.window w, i.window w with
    | some vs, some is =>
      let q := quantities vs (delay90 (v.before w) vs) (shiftPhase (trimPhase i.trim) (i.before w) is) v.fs.toNat i.fs.toNat
        (circSign k.cfg) v.freqRange
      let noload := decide (q.p.natAbs < k.noload.toNat)
      let fault := v.stuck || v.clip || i.stuck || i.clip
      let k1 : Circuit := { k with quant := q, isNoload := noload, inputFault := fault, computing := true, started := true,
                                   unmeasured := if fault then k.unmeasured + 1 else k.unmeasured }
      let r := if noload || fault then (k1, false) else k1.accumulate o q.power
      let y := x.onCircuit c (fun _ => r.1)
      let y1 := if noload && !k.isNoload then y.meterEvent l 0 c 0x03 (BitVec.ofInt 32 q.p)
        else if k.isNoload && !noload then y.meterEvent l 0 c 0x04 (BitVec.ofInt 32 q.p) else y
      if r.2 then y1.meterEvent l 0 c 0x09 0 else y1
    | _, _ => x

/-- Steps 1 to 3 of R301 for one circuit; a circuit that is not enabled spills what its accumulators still hold. -/
def Lane.windowCircuit (x : Lane) (l : LaneId) (o : Order) (w c : Nat) : Lane :=
  let y := x.computeCircuit l o c w
  if o = .m96 then Lane.spill l c 1 1024 (Lane.spill l c 0 1024 y) else y

/-- FREQ_RANGE of a voltage input over a window (R299): f outside 45 Hz to 65 Hz, or Vrms below 10 % of FS / √2. -/
def Lane.windowFreq (x : Lane) (l : LaneId) (w n : Nat) : Lane :=
  let m := x.minput 1 n
  match m.window w with
  | none => x
  | some vs =>
    let f := frequencyOf vs
    let bad := decide (f < 45000) || decide (65000 < f) || decide (200 * (dot vs vs).natAbs < 800 * 2 ^ 46)
    let y := x.setMinput 1 n { m with freqRange := bad }
    if bad && !m.freqRange then y.meterEvent l 1 n 0x07 (BitVec.ofInt 32 f)
    else if m.freqRange && !bad then y.meterEvent l 1 n 0x08 (BitVec.ofInt 32 f) else y

/-- The end of window `w` for one input: a fault whose conditions did not occur in it, nor since, ends (R295); blocks that no later
window needs are dropped. -/
def Lane.windowInput (x : Lane) (l : LaneId) (ty w n : Nat) : Lane :=
  let m := x.minput ty n
  let ended := (m.stuck || m.clip) && !m.blocks.any (fun b => decide (100 * w < b.n + 100) && (b.stuck || b.clip))
  let y := x.setMinput ty n { m with stuck := m.stuck && !ended, clip := m.clip && !ended
                                     blocks := m.blocks.filter (fun b => decide (100 * w < b.n + 32)) }
  if ended then (y.endCause (inputBit ty n)).meterEvent l ty n 0x06 0 else y

/-! ### Changes at step 4 (R301, R313, R324) -/

/-- The 64 bits of an accumulator as a MODE reads them: two's complement in SIGNED, unsigned in ABSOLUTE (R302). -/
def accMode (absolute : Bool) (acc : Int) : Int := if absolute then twos 64 acc else signed 64 (twos 64 acc)

/-- A METER_CONFIG item comes into force (R357). -/
def Lane.applyItem (x : Lane) (l : LaneId) (i : MeterItem) : Lane :=
  let w := w32 i.value
  match i.item with
  | 1 => x.setMinput 1 i.index { x.minput 1 i.index with fs := w }
  | 2 => x.setMinput 1 i.index { x.minput 1 i.index with trim := w }
  | 3 => x.setMinput 2 i.index { x.minput 2 i.index with fs := w }
  | 4 => x.setMinput 2 i.index { x.minput 2 i.index with trim := w }
  | 5 => x.onCircuit i.index (fun c => { c with cfg := w, computing := c.computing && circEn w, acc := accMode (circMode w) c.acc })
  | 6 => x.onCircuit i.index (fun c => { c with noload := w })
  | 8 => x.onCircuit i.index (fun c => { c with weight := i.value })
  | 9 =>
    let p := x.pulse i.index
    if pulseDir p.cfg = pulseDir w && pulseCircuit p.cfg = pulseCircuit w then
      x.onPulse i.index (fun q => { q with cfg := w })
    else
      let y := ((x.onPulse i.index (fun q => { q with cfg := w, backlog := 0, saturated := false })).writeBacklog
        i.index).endCause (2028 + i.index)
      y.meterEvent l 3 i.index 0x0C (w32 p.backlog)
  | _ => x

/-- METER_RESET_ACCUM at step 4: the accumulators of a circuit become 0 (R324). -/
def Circuit.cleared (c : Circuit) (o : Order) : Circuit :=
  match o with
  | .m96 => { c with acc := 0, frac := 0, exp := 0, expFrac := 0 }
  | _ => { c with acc := 0, frac := 0, wrap := false }

/-- The reply of METER_RESET_ACCUM (Table 09-11). -/
def resetReply (c : Circuit) (o : Order) (window : Nat) : List Byte :=
  beBytes 8 (twos 64 c.acc) ++ beBytes 8 (if o = .m96 then c.exp else 0) ++ beBytes 8 window

/-- One change at step 4. -/
def State.applyMeter (s : State) (l : LaneId) (c : MeterChange) : State :=
  match c with
  | .item i => s.onLane l (fun x => x.applyItem l i)
  | .enable v => s.onLane l (fun x => x.onNrg (fun b => { b with en := v }))
  | .reset n h e =>
    let k := (s.lane l).circuit n
    let o := s.pkg.order
    let s1 := s.onLane l (fun x => (x.onCircuit n (fun q => q.cleared o)).meterEvent l 0 n 0x0B (BitVec.ofInt 32 k.acc))
    let params := resetReply k o (s.lane l).blk.nrg.window
    ((s1.lane l).man.outstanding.filter (fun q => q.why = .meter n && q.hdr = h && q.epoch = e)).foldl
      (fun (t : State) q => t.finish l q .ok params) s1

/-- The circuits as they stood after window `w` in a lane: its own copy, or its newest (R322). -/
def Lane.circuitsAt (x : Lane) (w : Nat) : Nat × Tab Circuit :=
  match x.blk.nrg.history.find? (fun h => h.1 = w) with
  | some h => h
  | none => (x.blk.nrg.window, x.blk.nrg.circuits)

/-- The words of NRG_ACC_DATA for a set of a circuit as it stood after a window (Table 08-12). -/
def accWords (o : Order) (set : Nat) (c : Circuit) (window : Nat) : List Word :=
  let acc := twos 64 c.acc
  match set with
  | 0 =>
    [w32 acc, w32 (if o = .m96 then acc / 2 ^ 32 % 256 else acc / 2 ^ 32), w32 (if o = .m96 then c.exp else 0),
     w32 (if o = .m96 then c.exp / 2 ^ 32 % 256 else 0), w32 window,
     w32 (b2n c.wrap + 2 * b2n (circMode c.cfg) + 4 * b2n c.isNoload), w32 c.unmeasured, 0]
  | 1 =>
    [BitVec.ofInt 32 c.quant.vrms, BitVec.ofInt 32 c.quant.irms, BitVec.ofInt 32 c.quant.p, BitVec.ofInt 32 c.quant.q,
     BitVec.ofInt 32 c.quant.s, w32 (twos 16 c.quant.pf), BitVec.ofInt 32 c.quant.f, w32 window]
  | 2 =>
    if o = .m96 then
      [c.impIssued, c.impReleased, c.expIssued, c.expReleased, w32 c.weight, w32 (c.weight / 2 ^ 32 % 256), w32 window, 0]
    else List.replicate 8 0
  | _ => List.replicate 8 0

/-- The reply of METER_READ from lane `l`'s copy of window `w` (R322, Table 09-11). -/
def State.meterReadBytes (s : State) (l : LaneId) (w set first count : Nat) : List Byte :=
  let q := (s.lane l).circuitsAt w
  beBytes 8 q.1 ++ (List.range count).flatMap (fun i =>
    (accWords s.pkg.order set (tget {} q.2 (first + i)) q.1).flatMap (fun v => beBytes 4 v.toNat))

/-- METER_READ commands that waited for a window which the lane has now completed are answered (R322). -/
def State.answerWindows (s : State) (l : LaneId) : State :=
  ((s.lane l).man.outstanding.filter (fun o => match o.why with
    | .window w => decide (w ≤ (s.lane l).blk.nrg.window) | _ => false)).foldl (fun (t : State) o =>
      match o.why, o.op with
      | .window w, .meterRead set f c => t.finish l o .ok (t.meterReadBytes l w set f c)
      | _, _ => t) s

/-- A lane completes the end of window `w` (R301): while the engine runs, quantities, energy and pulses; then the changes executed up to
pick `pick`. -/
def State.completeWindow (s : State) (l : LaneId) (w : Nat) (pick : Word) : State :=
  let x := s.lane l
  let o := s.pkg.order
  let s1 := s.onLane l (fun y =>
    let y0 := y.onNrg (fun b => { b with window := w })
    if x.blk.nrg.en then
      let y1 := (List.range o.vins).foldl (fun (z : Lane) n => z.windowFreq l w n) y0
      let y2 := (List.range o.circuits).foldl (fun (z : Lane) c => z.windowCircuit l o w c) y1
      let y3 := (List.range o.vins).foldl (fun (z : Lane) n => z.windowInput l 1 w n) y2
      (List.range o.circuits).foldl (fun (z : Lane) n => z.windowInput l 2 w n) y3
    else y0)
  let due := x.blk.nrg.changes.filter (fun c => c.1 = pick || serialBefore c.1 pick)
  let s2 := s1.onLane l (fun y => y.onNrg (fun b => { b with changes := b.changes.filter (fun c => !due.contains c) }))
  let s3 := due.foldl (fun (t : State) c => t.applyMeter l c.2) s2
  (s3.onLane l (fun y => y.onNrg (fun b => { b with history := ((w, b.circuits) :: b.history).take 32 }))).answerWindows l

/-- WINDOW_END: at a multiple of 10,000,000 beats the active lane sends the window message and completes the window (R297,
R301). -/
def State.windowEnd (s : State) (now : Nat) : State :=
  match s.active with
  | none => s
  | some l =>
    let x := s.lane l
    let w := now / 10000000
    if s.pkg.order ≠ .m00 && x.inService && now % 10000000 = 0 && x.blk.nrg.window < w then
      let pick := x.blk.pick.released
      let s1 := if (s.lane l.other).inService then s.send l (.window w pick) else s
      s1.completeWindow l w pick
    else s

/-- WINDOW_MESSAGE: a standby lane that has itself released the pick that the oldest window message names completes the
window (R301). -/
def State.windowMessage (s : State) (l : LaneId) : State :=
  let x := s.lane l
  match x.inbox.find? (fun q => match q with | .window .. => true | _ => false) with
  | some (.window w pick) =>
    let s1 := s.onLane l (fun y => { y with inbox := y.inbox.erase (.window w pick) })
    if !x.inService then s1
    else if pick = x.blk.pick.released || serialBefore pick x.blk.pick.released then s1.completeWindow l w pick
    else s
  | _ => s

/-! ### Pulse outputs (R310 to R314) -/

/-- PULSE_START: an idle output with BACKLOG above 0 and its off time met starts a pulse; none starts after the supply warning
or at class G. -/
def Lane.pulseStart (x : Lane) (n now : Nat) : Lane :=
  let p := x.pulse n
  let offMet := match p.offBeat with | some t => decide (t + 3050000 ≤ now) | none => true
  if x.inService && pulseEn p.cfg && p.backlog ≠ 0 && !p.on && offMet && !x.blk.pwr.warn then
    x.onPulse n (fun q => { q with on := true, onBeat := now })
  else x

/-- PULSE_END: a pulse whose on time of 32 ms has passed ends, and BACKLOG decrements. -/
def Lane.pulseEnd (x : Lane) (n now : Nat) : Lane :=
  let p := x.pulse n
  if p.on && p.onBeat + 3200000 ≤ now then
    ((x.onPulse n (fun q => { q with on := false, offBeat := some now, backlog := q.backlog - 1, saturated := false
                              })).writeBacklog n).endCause (2028 + n)
  else x

/-- The level of PULSE[n] (R312): the selector drives the active lane's waveform, and the output is off at class G. -/
def State.pulsePin (s : State) (n : Nat) : Bool :=
  match s.active with
  | some l => ((s.lane l).pulse n).on && !s.pkg.halted
  | none => false

/-! ### METER_CONFIG (R324, R325, R357) -/

/-- The lane as its NRG registers read: every change that waits for step 4 applied (R446). -/
def Lane.nrgWritten (x : Lane) (l : LaneId) : Lane :=
  x.blk.nrg.changes.foldl (fun (y : Lane) c => match c.2 with | .item i => y.applyItem l i | .enable v => y.onNrg (fun b => { b with en := v }) | .reset .. => y) x

/-- An input is used by an enabled circuit. -/
def Lane.inputUsed (x : Lane) (ty n : Nat) : Bool :=
  x.blk.nrg.circuits.any (fun e => circEn e.2.cfg && (if ty = 1 then circVin e.2.cfg else circIin e.2.cfg) = n)

/-- The register that an item writes is of something fitted (R5). -/
def meterIndexFitted (o : Order) (i : MeterItem) : Bool :=
  match i.item with
  | 1 => i.index < o.vins
  | 2 => i.index < o.vins
  | 9 => i.index < o.pulses
  | _ => i.index < o.circuits

/-- Everything that the item names is fitted: its index, the inputs of a circuit and the circuit of a pulse output (step 11 of Table 09-5,
R5). -/
def meterItemFitted (o : Order) (i : MeterItem) : Bool :=
  meterIndexFitted o i &&
  (match i.item with
   | 5 => circVin (w32 i.value) < o.vins && circIin (w32 i.value) < o.circuits
   | 9 => pulseCircuit (w32 i.value) < o.circuits
   | _ => true)

/-- The value checks of one item against the registers as the items before it left them. -/
def Lane.checkMeterItem (x : Lane) (o : Order) (i : MeterItem) : Option Status :=
  let w := w32 i.value
  if i.item = 0 || 9 < i.item then some .badParam
  else if i.item ≠ 8 && 2 ^ 32 ≤ i.value then some .badParam
  else if i.item = 1 || i.item = 3 then
    let ty := if i.item = 1 then 1 else 2
    let lo := if i.item = 1 then 1000 else 100
    let hi := if i.item = 1 then 1000000 else 10000000
    if i.value < lo || hi < i.value then some .badParam
    else if x.inputUsed ty i.index && (x.minput ty i.index).fs ≠ w then some .rejectedRunning else none
  else if i.item = 2 || i.item = 4 then
    let ty := if i.item = 2 then 1 else 2
    if i.item = 2 && 65536 ≤ i.value then some .badParam
    else if x.inputUsed ty i.index && (x.minput ty i.index).trim ≠ w then some .rejectedRunning else none
  else if i.item = 5 then
    let c := x.circuit i.index
    if (w &&& 0x1FFF80F0#32) ≠ 0 || 11 < circVin w || o.circuits ≤ circIin w || (circMode w && o = .m96) then some .badParam
    else if circEn c.cfg && (c.cfg &&& 0x60007F0F#32) ≠ (w &&& 0x60007F0F#32) then some .rejectedRunning
    else if circEn w && x.blk.nrg.circuits.any (fun e => e.1 ≠ i.index && circEn e.2.cfg && circIin e.2.cfg = circIin w) then
      some .badParam
    else if circEn w && o = .m96 && c.weight = 0 then some .badParam else none
  else if i.item = 7 then (if 15 < i.value then some .badParam else none)
  else if i.item = 8 then (if i.value < 1000000 || 100000000000 < i.value then some .badParam else none)
  else if i.item = 9 then
    let p := x.pulse i.index
    if (w &&& 0x7FFEFF80#32) ≠ 0 || o.circuits ≤ pulseCircuit w then some .badParam
    else if pulseEn p.cfg && (p.cfg &&& 0x0001007F#32) ≠ (w &&& 0x0001007F#32) then some .rejectedRunning else none
  else none

/-- The checks of a list of items, in list order. -/
def checkMeterItems (o : Order) (l : LaneId) : List MeterItem → Lane → Option Status
  | [], _ => none
  | i :: r, x => match x.checkMeterItem o i with | some st => some st | none => checkMeterItems o l r (x.applyItem l i)

def State.checkMeterConfig (s : State) (l : LaneId) (h : Hdr) (items : List MeterItem) : Option Status :=
  let o := s.pkg.order
  if items.any (fun i => 1 ≤ i.item && i.item ≤ 9 && !meterItemFitted o i) then some .badParam
  else if h.sender.getD 0 ≠ 0 then some .notPermitted
  else if items.length < 1 || 64 < items.length then some .badParam
  else checkMeterItems o l items ((s.lane l).nrgWritten l)

/-- METER_CONFIG in one lane: the items wait for step 4 of the next window end that names their epoch, an owner for the next
pick release (R321, R325). -/
def runMeterConfig (x : Lane) (e : Word) (now : Nat) (items : List MeterItem) : Lane × Answer :=
  ((x.onNrg (fun b =>
    { b with changes := b.changes ++ (items.filter (fun i => i.item ≠ 7)).map (fun i => (e, .item i)),
             pendingOwner := items.foldl (fun t i => if i.item = 7 then oset t i.index i.value else t) b.pendingOwner
             })).startFlash .config now, .done .ok [])

/-! ### Reads (R320, R322) -/

/-- A sender that is a tenant and does not own a circuit (R152). -/
def Lane.circuitDenied (x : Lane) (h : Hdr) (c : Nat) : Bool :=
  h.sender.getD 0 ≠ 0 && (x.circuit c).owner ≠ h.sender.getD 0

def State.checkMeterList (s : State) (l : LaneId) (h : Hdr) (first count : Nat) : Option Status :=
  let x := s.lane l
  if s.pkg.order.circuits < first + count then some .badParam
  else if (List.range count).any (fun i => x.circuitDenied h (first + i)) then some .notPermitted
  else if count < 1 || 32 < count then some .badParam
  else none

def State.checkMeterReset (s : State) (h : Hdr) (circuit : Nat) : Option Status :=
  if s.pkg.order.circuits ≤ circuit then some .badParam
  else if h.sender.getD 0 ≠ 0 then some .notPermitted
  else none

/-- METER_RESET_ACCUM executes at step 4 of a window end (R357). -/
def runMeterReset (x : Lane) (h : Hdr) (e : Word) (circuit : Nat) : Lane × Answer :=
  (x.onNrg (fun b => { b with changes := b.changes ++ [(e, .reset circuit h e)] }), .later (.meter circuit))

/-- The loss record of a circuit (Table 09-11): FLAGS, DT_MS, P, LOSS. -/
def Lane.lossRecord (x : Lane) (o : Order) (c : Nat) : List Byte :=
  let q := (x.blk.nrg.loss.lookup c).getD (0, some 0, false, false, false)
  let flags := b2n x.blk.nrg.lossFinal + 2 * b2n q.2.2.1 + 4 * b2n q.2.2.2.1 + 8 * b2n (q.2.2.2.2 && o = .m96)
  beBytes 1 c ++ beBytes 1 flags ++ zeros 2 ++ beBytes 4 x.blk.nrg.lossDt ++ beBytes 4 q.1 ++
  beBytes 8 (match q.2.1 with | some v => v | none => 2 ^ 64 - 1) ++ zeros 4

/-- METER_LOSS_REPORT (R320). -/
def State.runMeterLoss (s : State) (l : LaneId) (first count : Nat) : Answer :=
  let x := s.lane l
  .done .ok (beBytes 4 x.blk.nrg.unmeteredMs ++ zeros 4 ++
    (List.range count).flatMap (fun i => x.lossRecord s.pkg.order (first + i)))

/-- Owners of circuits change at a pick release (R321). -/
def Lane.applyCircuitOwners (x : Lane) : Lane :=
  (x.blk.nrg.pendingOwner.foldl (fun (y : Lane) e => y.onCircuit e.1 (fun c => { c with owner := e.2 })) x).onNrg
    (fun b => { b with pendingOwner := [] })

/-! ### The rows of chapter 08 -/

def execDecimatorBlock (l : LaneId) (vin iin : List Nat) (s : State) : Host.Outcome State Fault Refusal :=
  .next (s.decimatorBlock l vin iin)

def execBlockCrc (l : LaneId) (beat : Nat) (s : State) : Host.Outcome State Fault Refusal :=
  .next ((s.at_ beat).blockCheck l)

def execWindowEnd (beat : Nat) (s : State) : Host.Outcome State Fault Refusal :=
  .next ((s.at_ beat).windowEnd (s.at_ beat).pkg.beat)

def execWindowMessage (l : LaneId) (s : State) : Host.Outcome State Fault Refusal :=
  .next (s.windowMessage l)

def execPulseStart (output beat : Nat) (s : State) : Host.Outcome State Fault Refusal :=
  let t := s.at_ beat
  .next (if output < t.pkg.order.pulses then
    { t with a := t.a.pulseStart output t.pkg.beat, b := t.b.pulseStart output t.pkg.beat } else t)

def execPulseEnd (output beat : Nat) (s : State) : Host.Outcome State Fault Refusal :=
  let t := s.at_ beat
  .next (if output < t.pkg.order.pulses then
    { t with a := t.a.pulseEnd output t.pkg.beat, b := t.b.pulseEnd output t.pkg.beat } else t)

end Sys2Proof.Machine
end

