-- ==== Sys2Proof/Machine/Settings.lean ====
section
/-! DEFINITION. The opcodes that set up the network ports, the policy items and the module settings (R404, R405, R560 to R563). A
`check` gives the first refusal of steps 11 and 12 of Table 09-5; a `run` is what the opcode does in one lane. -/

namespace Sys2Proof.Machine

/-! ### NET_CONFIG and FILTER_SET -/

/-- An IPv4 address that NET_CONFIG refuses (R404). -/
def ipv4Refused (v : Word) : Bool :=
  v ≠ 0 && (field v 31 24 = 0 || field v 31 24 = 127 || 224 ≤ field v 31 24)

/-- NET_CONFIG (R404). -/
def checkNetConfig (h : Hdr) (n : NetArgs) : Option Status :=
  if h.sender.getD 0 ≠ 0 then some .notPermitted
  else if n.moduleId = 0xFFFFFFFF#32 || 1 < n.pair || 2 < n.speed ||
      (n.vlan.getLsbD 12 && n.vlan.toNat % 4096 = 0xFFF) || groupBit n.mac || n.mac = 0 ||
      ipv4Refused n.ipv4 || n.prefixLen < 8 || 30 < n.prefixLen || n.ipv6.toNat / 2 ^ 120 = 0xFF then some .badParam
  else none

/-- The pair's configuration that NET_CONFIG carries. -/
def netCfg (n : NetArgs) : PairCfg := ⟨n.mac, n.vlan.zeroExtend 32, n.ipv4, n.ipv6, n.prefixLen, n.speed⟩

/-- NET_CONFIG in one lane: the pair's registers, and an ID for the next pick release (R404). -/
def runNetConfig (x : Lane) (now : Nat) (n : NetArgs) : Lane × Answer :=
  let y := x.onNet (fun b => if n.pair = 0 then { b with estate := netCfg n } else { b with floor := netCfg n })
  ((if n.moduleId = 0 then y else y.onMan (fun m => { m with pendingId := some n.moduleId })).startFlash .config now, .done .ok [])

/-- FILTER_SET (R405). -/
def checkFilterSet (h : Hdr) (f : FilterArgs) : Option Status :=
  if h.sender.getD 0 ≠ 0 then some .notPermitted
  else if 1 < f.port || 31 < f.filter || 1 < f.en || 1 < f.action ||
      f.ring < 48 + 4 * f.port || 51 + 4 * f.port < f.ring || 0xFFF < f.vid || 0xFFF < f.vidMask then some .badParam
  else none

/-- FILTER_SET in one lane: NET_FILT_VLAN and NET_FILT_ACT of one filter (Table 10-6). -/
def runFilterSet (x : Lane) (now : Nat) (f : FilterArgs) : Lane × Answer :=
  let i := 32 * f.port + f.filter
  ((x.onNet (fun b => { b with
    filtVlan := tput 0 b.filtVlan i (w32 (f.vidMask * 65536 + f.vid))
    filtAct := tput 0 b.filtAct i
      (w32 (f.en * 2 ^ 31 + f.action * 2 ^ 30 + f.ring * 2 ^ 24 + f.pcpMask * 65536 + f.etherType)) })).startFlash .config now,
   .done .ok [])

/-! ### Policy items (Table 17-5) -/

/-- Entries of a policy item (R360). -/
def policyCount (item : Nat) : Nat :=
  match item with
  | 1 => 2
  | 2 => 4
  | 3 => 8
  | 4 => 256
  | 5 => 256
  | _ => 0

/-- The pin of a policy item. -/
def Lane.pinOf (x : Lane) (item index : Nat) : Option Word :=
  (x.man.pins.find? (fun p => p.1 = item && p.2.1 = index)).map (·.2.2)

/-- The value in force of a policy item (Table 17-5); an item of a lane that makes no capture reads 0 (R347). -/
def State.policyValue (s : State) (l : LaneId) (item index : Nat) : Nat :=
  let named := fun (k : Nat) => if k = 0 then s.a else s.b
  let x := s.lane l
  match item with
  | 1 => if (named index).releases then (named index).blk.pwr.core else 0
  | 2 =>
    let y := named (index / 2)
    if y.releases then (if (y.port (index % 2)).speed10 then 10000 else 1000) else 0
  | 3 => b2n (x.group index).delayed
  | 4 => (x.loop index).klEff.toNat
  | _ => (x.loop index).cmEff.toNat * 65536 + field (x.loop index).bmEff 15 0

/-- POLICY_GET (R562): an item outside its range comes before the sender where it names a loop or a group (step 11 of Table
09-5). -/
def checkPolicyGet (h : Hdr) (item first count : Nat) : Option Status :=
  let named := 3 ≤ item && item ≤ 5
  if named && policyCount item < first + count then some .badParam
  else if h.sender.getD 0 ≠ 0 then some .notPermitted
  else if policyCount item < first + count || count < 1 || 64 < count then some .badParam
  else none

/-- A pin's value lies in Table 17-5 and, for a loop, within the limits of its active bank (R562). -/
def Lane.pinValueOk (x : Lane) (item index : Nat) (v : Word) : Bool :=
  let o := x.loop index
  match item with
  | 1 => 600 ≤ v.toNat && v.toNat ≤ 900 && v.toNat % 10 = 0
  | 2 => v.toNat = 1000 || v.toNat = 10000
  | 3 => v = 1
  | 4 => (v &&& 0x000FFFFF#32) = v && o.patLen ≠ 0 && coefValue (o.bw 14) ≤ coefValue v && coefValue v ≤ coefValue (o.bw 15)
  | _ =>
    let bm := coefValue (coefWith o.bmEff (valueLo v))
    o.nres ≠ 0 && coefValue (o.bw 19) ≤ bm && bm ≤ coefValue (o.bw 20) &&
    valueLo (o.bw 22) ≤ valueHi v && valueHi v ≤ valueHi (o.bw 22)

/-- POLICY_PIN, pin or unpin (R562). -/
def checkPolicyPin (x : Lane) (h : Hdr) (item index : Nat) (pin : Option Word) : Option Status :=
  let named := 3 ≤ item && item ≤ 5
  if named && policyCount item ≤ index then some .badParam
  else if h.sender.getD 0 ≠ 0 then some .notPermitted
  else if policyCount item ≤ index then some .badParam
  else match pin with
    | some v => if x.pinValueOk item index v then none else some .badParam
    | none => none

/-- A pin or unpin acts in lane `l` (Table 17-5, R562): a core supply pin at the next pick release, loops and groups under R248. -/
def Lane.actPin (x : Lane) (l : LaneId) (e : Word) (item index : Nat) (pin : Option Word) : Lane :=
  match item with
  | 1 =>
    if index = l.num then
      x.onPwr (fun p => { p with pendingPin := some (match pin with | some v => (true, v.toNat) | none => (false, p.pinMv)) })
    else x
  | 2 =>
    if index / 2 = l.num then
      x.onPort (index % 2) (fun p => { p with pin := pin.map (fun v => if v.toNat = 10000 then 1 else 2) })
    else x
  | 3 => (x.onGroup index (fun g => { g with pinDelay := pin.isSome })).queueGroup index (.pick e) (.pinDelay pin.isSome)
  | 4 => x.queueLoop index (.pick e) (.pin 4 pin)
  | _ => x.queueLoop index (.pick e) (.pin 5 pin)

/-- POLICY_PIN in one lane: the pins are kept and stored (R560). -/
def runPolicyPin (x : Lane) (l : LaneId) (e : Word) (now item index : Nat) (pin : Option Word) : Lane × Answer :=
  let rest := x.man.pins.filter (fun p => !(p.1 = item && p.2.1 = index))
  let y := x.onMan (fun m => { m with pins := rest ++ (pin.toList.map (fun v => (item, index, v))) })
  ((y.actPin l e item index pin).startFlash .config now, .done .ok [])

/-! ### Module settings (Table 17-9) -/

/-- Indices of a module setting (R361). -/
def settingCount (item : Nat) : Nat := if item = 5 then 2 else if 1 ≤ item && item ≤ 6 then 1 else 0

/-- A value of a module setting that Table 17-9 admits. -/
def settingOk (i : SettingItem) : Bool :=
  i.index < settingCount i.item &&
  (match i.item with
   | 1 => 250 ≤ i.value && i.value ≤ 60000
   | 2 => 160 ≤ i.value && i.value ≤ 210
   | 3 => i.value &&& 0x13 = i.value
   | 5 =>
     let w := w32 i.value
     (w &&& 0x00FFFF0E#32) = w && 1 ≤ pctLow w && pctLow w ≤ 99 && pctLow w + 1 ≤ pctHigh w && pctHigh w ≤ 100
   | _ => i.value ≤ 1)

/-- The further refusal of enclosure-loop arming (Table 17-9, Table 16-4). -/
def State.enclRefused (s : State) (i : SettingItem) : Option Status :=
  if i.item ≠ 4 then none
  else if s.pkg.life ≠ .issued then some .lifecycleDenied
  else if i.value = 1 && (s.pkg.dom.enclOhm < 10 || 10000 < s.pkg.dom.enclOhm) then some .notPermitted
  else none

/-- MODULE_SET (R563). -/
def State.checkModuleSet (s : State) (h : Hdr) (items : List SettingItem) : Option Status :=
  if h.sender.getD 0 ≠ 0 then some .notPermitted
  else if items.length < 1 || 16 < items.length || items.any (fun i => !settingOk i) || !h.reservedOk then some .badParam
  else items.findSome? s.enclRefused

/-- One setting in lane `l`. The charger's setting is posted to the island (R477). -/
def State.takeSetting (s : State) (l : LaneId) (i : SettingItem) : State :=
  let on := fun (f : Lane → Lane) => s.onLane l f
  match i.item with
  | 1 => on (fun x => x.onPwr (fun p => { p with savePeriod := i.value }))
  | 2 => on (fun x => x.onPwr (fun p => { p with pendingVwarn := some i.value }))
  | 3 => (on (fun x => x.onFlash (fun f => { f with chg := some (w32 i.value) }))).postRtc { lane := l, reg := .chg, words := [w32 i.value] } true
  | 4 => on (fun x => x.onKey (fun k => { k with pendingEncl := some (decide (i.value = 1)) }))
  | 5 => on (fun x => x.onPort i.index (fun p => { p with pendingCtl := some (w32 i.value) }))
  | _ => on (fun x => x.onFlt (fun f => { f with pendingNev := some (decide (i.value = 1)) }))

/-- MODULE_SET in one lane: items take effect in list order and are stored (R361, R563). -/
def State.runModuleSet (s : State) (l : LaneId) (now : Nat) (items : List SettingItem) : State × Answer :=
  ((items.foldl (fun (t : State) i => t.takeSetting l i) s).onLane l (fun x => x.startFlash .config now), .done .ok [])

/-- MODULE_GET (R563). -/
def checkModuleGet (h : Hdr) (item index : Nat) : Option Status :=
  if h.sender.getD 0 ≠ 0 then some .notPermitted
  else if settingCount item ≤ index then some .badParam
  else none

/-- The value in force of a module setting (R361). -/
def State.settingValue (s : State) (l : LaneId) (item index : Nat) : Nat :=
  let b := (s.lane l).blk
  match item with
  | 1 => b.pwr.savePeriod
  | 2 => b.pwr.vwarn
  | 3 => s.pkg.dom.chg.toNat
  | 4 => b2n b.key.enclEn
  | 5 => ((s.lane l).port index).ctl.toNat
  | _ => b2n b.flt.nevEn

/-! ### Pick releases -/

/-- The LIVE changes of the module settings, the core supply pin, the role preference and the module's ID take effect at the next
pick release (R115, R404, Table 17-9, R556). A supply pin steps the supply to its value, never below the floor. -/
def Lane.releaseSettings (x : Lane) : Lane :=
  let a := x.onMan (fun m => { m with moduleId := m.pendingId.getD m.moduleId, pendingId := none })
  let b := a.onPwr (fun p =>
    let q := { p with vwarn := p.pendingVwarn.getD p.vwarn, pendingVwarn := none }
    match q.pendingPin with
    | none => q
    | some (en, mv) =>
      let r := { q with pinEn := en, pinMv := mv, pendingPin := none }
      let v := if en then max r.floor mv else r.core
      if v = r.core then r else { r with core := v, coreSteps := r.coreSteps + 1 })
  let c := b.onKey (fun k => { k with enclEn := k.pendingEncl.getD k.enclEn, pendingEncl := none })
  let d := c.onFlt (fun f => { f with nevEn := f.pendingNev.getD f.nevEn, pendingNev := none })
  d.onLaneBlk (fun k => match k.pendingPrefer with
    | some (p, t) => { k with prefer := p, holdoff := t, pendingPrefer := none }
    | none => k)

end Sys2Proof.Machine
end

