-- ==== Sys2Proof/Machine/Captures.lean ====
section
/-! DEFINITION. Replies that carry values of one lane (R347): each lane captures its own when it executes the command and sends it to its
partner, and both reply with both captures. A reply of the active lane's value alone (R322, R466) takes the active lane's capture. -/

namespace Sys2Proof.Machine

/-- The state of a lane as a capture carries it. -/
def Lane.roleNow (x : Lane) : Nat := roleCode x.blk.lane.role

/-- The parameters of IDENTIFY (Table 09-8), the captures of both lanes' states given. -/
def State.identifyBytes (s : State) (l : LaneId) (roleA roleB : Nat) : List Byte :=
  let x := s.lane l
  beBytes 4 x.man.moduleId.toNat ++ beBytes 1 (orderCode s.pkg.order) ++ beBytes 1 (lifeCode s.pkg.life) ++
  beBytes 2 s.pkg.lcGen.toNat ++ beBytes 4 x.version ++
  beBytes 1 (roleA + 16 * roleB) ++ beBytes 1 s.activeLane.num ++
  beBytes 1 (b2n s.pkg.dom.timeValid + 2 * b2n s.pkg.dom.sysKekLost) ++ zeros 1 ++ beBytes 8 s.pkg.serial.toNat ++
  beBytes 6 x.blk.net.estate.mac.toNat ++ beBytes 6 x.blk.net.floor.mac.toNat

/-- One lane's words of LANE_STATUS, then its last compared state digest (R125). -/
def State.laneWords (s : State) (l : LaneId) : List Byte :=
  let b := (s.lane l).blk.lane
  beBytes 4 (s.roleWord l).toNat ++ beBytes 4 (s.linkWord l).toNat ++ beBytes 4 s.busReach.toNat ++
  beBytes 4 b.holdElapsed ++ beBytes 4 b.lastCause.toNat ++ beBytes 4 b.imgMismatch.toNat ++
  beBytes 4 b.imgUnresolved.toNat ++ beBytes 4 b.outDisagree.toNat ++ beBytes 4 b.digestMismatch.toNat ++
  beBytes 4 b.switchovers.toNat ++ beBytes 4 b.takebacks.toNat ++ beBytes 4 b.rejoinFails.toNat ++ beBytes 8 b.compared.toNat

/-- A tenant receives STATE, PARTNER, ACTIVE and SOLO of LANE_ROLE alone (R125). -/
def tenantWords (c : List Byte) : List Byte := beBytes 4 (w32 (beAt c 0 4) &&& 0x677#32).toNat ++ zeros 44

/-- The reply of an operation carries the active lane's value alone. -/
def leaderGives : Op → Bool
  | .timeGet => true
  | .meterRead .. => true
  | .moduleGet .. => true
  | _ => false

/-- What lane `l` captures of its own for a reply when it executes the command. -/
def State.capture (s : State) (l : LaneId) (op : Op) : List Byte :=
  let x := s.lane l
  match op with
  | .identify => beBytes 1 x.roleNow
  | .faultStatus first count =>
    beBytes 1 x.highest ++ (List.range (count / 32)).flatMap (fun i => beBytes 4 (bitsWord x.blk.flt.sticky (first / 32 + i)).toNat)
  | .laneStatus => s.laneWords l
  | .policyGet item first count => (List.range count).flatMap (fun i => beBytes 4 (s.policyValue l item (first + i)))
  | .moduleGet item index => beBytes 4 (s.settingValue l item index)
  | .timeGet => s.pkg.dom.timeBytes
  | .meterRead .. => beBytes 8 x.blk.nrg.window
  | _ => []

/-- Lane A's capture, or lane B's where lane A made none. -/
def eitherCapture (a b : List Byte) : List Byte := if a = [] then b else a

/-- The lane whose value a policy item shows: the supply and the ports are a lane's own (Table 17-5). -/
def policyCapture (item index : Nat) (a b : List Byte) : List Byte :=
  match item with
  | 1 => if index = 0 then a else b
  | 2 => if index / 2 = 0 then a else b
  | _ => eitherCapture a b

/-- The reply of lane `l` from both captures; one that a lane did not make reads 0. -/
def State.jointBytes (s : State) (l : LaneId) (h : Hdr) (op : Op) (a b : List Byte) : List Byte :=
  let padded := fun (n : Nat) (c : List Byte) => (c ++ zeros n).take n
  match op with
  | .identify => s.identifyBytes l (beAt a 0 1) (beAt b 0 1)
  | .faultStatus first count =>
    beBytes 1 (max (beAt a 0 1) (beAt b 0 1)) ++ zeros 1 ++ beBytes 2 first ++ beBytes 2 count ++ zeros 2 ++
    padded (4 * (count / 32)) (a.drop 1) ++ padded (4 * (count / 32)) (b.drop 1)
  | .laneStatus =>
    if h.sender.getD 0 ≠ 0 then tenantWords a ++ tenantWords b ++ zeros 8
    else padded 48 a ++ padded 48 b ++ padded 8 ((eitherCapture a b).drop 48)
  | .policyGet item first count =>
    (List.range count).flatMap (fun i =>
      let p := (s.lane l).pinOf item (first + i)
      beBytes 1 item ++ beBytes 1 (b2n p.isSome) ++ beBytes 2 (first + i) ++
      padded 4 ((policyCapture item (first + i) a b).drop (4 * i)) ++ beBytes 4 (p.getD 0).toNat)
  | .moduleGet item index => beBytes 1 item ++ beBytes 1 index ++ zeros 2 ++ a
  | .meterRead set first count => s.meterReadBytes l (beAt a 0 8) set first count
  | _ => a

/-- What lane `l` answers once it has the captures; a METER_READ of a window that it has still to complete waits for it (R322). -/
def State.jointAnswer (s : State) (l : LaneId) (h : Hdr) (op : Op) (a b : List Byte) : Answer :=
  match op with
  | .meterRead .. =>
    if (s.lane l).blk.nrg.window < beAt a 0 8 then .later (.window (beAt a 0 8)) else .done .ok (s.jointBytes l h op a b)
  | _ => .done .ok (s.jointBytes l h op a b)

/-- The two captures in the order of the lanes; where the active lane's alone counts, that one for both. -/
def orderCaptures (op : Op) (l : LaneId) (leads : Bool) (own theirs : List Byte) : List Byte × List Byte :=
  if leaderGives op then (if leads then (own, own) else (theirs, theirs))
  else match l with | .a => (own, theirs) | .b => (theirs, own)

/-- A command of lane `l` that waited for a capture is answered. -/
def State.giveCapture (s : State) (l : LaneId) (o : Outstanding) (a b : List Byte) : State :=
  match s.jointAnswer l o.hdr o.op a b with
  | .done st ps => s.finish l o st ps
  | .later why => s.onLane l (fun x => x.onMan (fun m => { m with
      outstanding := m.outstanding.map (fun q => if q = o then { q with why := why } else q) }))
  | .sent => s

/-- The commands of lane `l` that wait for a capture of the command `h` of epoch `e`. -/
def Lane.awaitingCapture (x : Lane) (h : Hdr) (e : Word) : List Outstanding :=
  x.man.outstanding.filter (fun o => o.why = .capture && o.hdr = h && o.epoch = e)

/-- A command whose reply carries lane-local values executes in lane `l`: it captures its own, and the second lane to execute completes
both replies (R347). The active lane's value alone needs no partner (R322, R466). -/
def State.jointReply (s : State) (l : LaneId) (h : Hdr) (e : Word) (op : Op) : State × Answer :=
  let x := s.lane l
  let own := s.capture l op
  let post := fun (t : State) => t.onPkg (fun p => { p with outcomes := p.outcomes ++ [(h, e, 0, own)] })
  match s.pkg.outcomes.find? (fun o => o.1 = h && o.2.1 = e) with
  | some o =>
    let s1 := s.onPkg (fun p => { p with outcomes := p.outcomes.erase o })
    let c := orderCaptures op l x.leads own o.2.2.2
    let s2 := ((s1.lane l.other).awaitingCapture h e).foldl (fun (t : State) q => t.giveCapture l.other q c.1 c.2) s1
    (s2, s2.jointAnswer l h op c.1 c.2)
  | none =>
    let c := orderCaptures op l true own []
    if !(s.lane l.other).releases then (s, s.jointAnswer l h op c.1 c.2)
    else if leaderGives op && x.leads then (post s, s.jointAnswer l h op c.1 c.2)
    else (post s, .later .capture)

/-- The partner of lane `l` has left: its capture reads 0, and the lane's own value counts (R347). -/
def State.settleCaptures (s : State) (l : LaneId) : State :=
  ((s.lane l).man.outstanding.filter (fun o => o.why = .capture)).foldl (fun (t : State) o =>
    let own := match s.pkg.outcomes.find? (fun q => q.1 = o.hdr && q.2.1 = o.epoch) with
      | some q => if leaderGives o.op then s.capture l o.op else q.2.2.2
      | none => s.capture l o.op
    let c := orderCaptures o.op l true own []
    t.giveCapture l o c.1 c.2) s

end Sys2Proof.Machine
end

