-- ==== Sys2Proof/Machine/Rejoin.lean ====
section
/-! DEFINITION. The shuttle link and the lines between the lanes (R86 to R89), what a lane does when its partner has left
service (R109 to R112) and the rejoin of a lane (R113, R114, Table 03-6). -/

namespace Sys2Proof.Machine

/-! ### Sub-links and lines -/

/-- KEEPALIVE: a valid message reaches lane `l` on a sub-link (R87). -/
def State.keepalive (s : State) (l : LaneId) (sub : Nat) : State :=
  if sub < 2 && (s.lane l).blk.lane.role ≠ .off && (s.lane l.other).blk.lane.role ≠ .off then
    s.onLane l (fun x => (x.onLaneBlk (fun b =>
      if sub = 0 then { b with sub0 := true, sub0Beat := s.pkg.beat } else { b with sub1 := true, sub1Beat := s.pkg.beat })).endCause
        (160 + sub))
  else s

/-- Both sub-links are lost (R88, R114): the rejoin of a lane from step 3 on fails; with both lanes in service and no fault line
set, the standby lane leaves service. -/
def State.linkLost (s : State) (l : LaneId) : State :=
  let x := s.lane l
  let y := s.lane l.other
  if x.inService && y.inService then
    (if s.active = some l || x.faultLine || y.faultLine then s else s.raise l 162 true)
  else if 3 ≤ x.blk.lane.rejoinStep then s.rejoinFail l
  else s

/-- SUB_LINK_LOSS: a sub-link delivers no valid message for 50 µs (R87, R116). -/
def State.subLinkLoss (s : State) (l : LaneId) (sub : Nat) : State :=
  let b := (s.lane l).blk.lane
  let up := if sub = 0 then b.sub0 else b.sub1
  let last := if sub = 0 then b.sub0Beat else b.sub1Beat
  if sub < 2 && up && last + 5000 ≤ s.pkg.beat then
    let s1 := s.onLane l (fun x => (x.onLaneBlk (fun b =>
      if sub = 0 then { b with sub0 := false } else { b with sub1 := false })).restartHoldoff)
    let s2 := (s1.onLane l.other Lane.restartHoldoff).flag l (160 + sub) true
    let c := (s2.lane l).blk.lane
    if !c.sub0 && !c.sub1 then s2.linkLost l else s2
  else s

/-- HEARTBEAT_TOGGLE: a lane in service toggles its heartbeat line (R89). -/
def State.heartbeatToggle (s : State) (l : LaneId) : State :=
  if (s.lane l).inService then
    s.onLane l (fun x => x.onLaneBlk (fun b => { b with heartbeat := true, hbBeat := s.pkg.beat }))
  else s

/-! ### The partner has left service (Tables 03-4 and 03-5) -/

/-- Messages of a departed lane that its partner still uses: closes and epoch contents (R71). -/
def keptMsg (m : Msg) : Bool := match m with | .close _ => true | .epoch .. => true | _ => false

/-- A bus in single-pair mode is enabled. -/
def Lane.singlePair (x : Lane) : Bool := (List.range 8).any (fun n => bitOf (x.bus n).ctl 0 && bitOf (x.bus n).ctl 1)

/-- Steps 3 to 6 of Table 03-4 in the lane that remains, once per departure: it takes the active role if its partner held it,
every front-end die selects it, an exchange that has not reached its boundary is aborted, and the hold-off restarts. -/
def State.partnerLeft (s : State) (l : LaneId) : State :=
  let x := s.lane l
  let y := s.lane l.other
  if x.inService && x.blk.lane.paired && !y.inService then
    let cause := y.blk.lane.lastCause
    let s1 := s.onLane l (fun k => { (k.onLaneBlk (fun b => { b with paired := false, lastCause := cause })).restartHoldoff with
      inbox := k.inbox.filter keptMsg
      parts := k.parts.map (fun p => (p.1, { p.2 with theirs := none, late := none })) })
    let s2 := (s1.settleCaptures l).onPkg (fun p => { p with
      accepted := [], outcomes := [], pickReqs := p.pickReqs.filter (fun r => r.lane = l) })
    let s3 := if x.blk.lane.role = .standby then
        (s2.onLane l (fun k => (k.onLaneBlk (fun b => { b with role := .active, switchovers := b.switchovers + 1 })).detail 0x0007 0
          (beBytes 1 l.num ++ zeros 1 ++ beBytes 2 (cause.toNat % 65536) ++ zeros 12))).selectLane l
      else s2.selectLane l
    let s4 := (List.range 16).foldl (fun (t : State) p =>
      match ((t.lane l).part p).exch with
      | some e => if e.installed then t else t.abortExchangeIn l p .exchangeAborted
      | none => t) s3
    let s5 := s4.settleImages
    if l = .b && x.singlePair then s5.flag l 2098 true else s5
  else s

/-- HEARTBEAT_MISSING: the partner's heartbeat has not toggled for 20 µs (R89). A partner that stopped without a detection of
its own is put out of service by this lane's collector. -/
def State.heartbeatMissing (s : State) (l : LaneId) : State :=
  let y := s.lane l.other
  if (s.lane l).inService && (!y.blk.lane.heartbeat || y.blk.lane.hbBeat + 2000 ≤ s.pkg.beat) then
    if y.inService && !y.faultLine then
      (((s.flag l 171 true).cutFrames l.other).onLane l.other (fun k => k.depart 171 s.pkg.beat l.other)).partnerLeft l
    else s.partnerLeft l
  else s

/-- FAULT_LINE: a lane sees its partner's fault line set (R109); both fault lines within 1 ms are class G (R106). -/
def State.seeFaultLine (s : State) (l : LaneId) : State :=
  let x := s.lane l
  let y := s.lane l.other
  if !y.faultLine then s
  else
    let near := match x.blk.lane.lBeat, y.blk.lane.lBeat with
      | some a, some b => decide (a ≤ b + msBeats) && decide (b ≤ a + msBeats)
      | _, _ => false
    if x.faultLine && near then s.haltG else s.partnerLeft l

/-- The first fault notice in a lane's inbox. -/
def isNotice (m : Msg) : Bool := match m with | .notice _ => true | _ => false

/-- FAULT_NOTICE: a lane receives its partner's fault notice (R109). -/
def State.seeNotice (s : State) (l : LaneId) : State :=
  match (s.lane l).inbox.find? isNotice with
  | some m => (s.onLane l (fun x => { x with inbox := x.inbox.erase m })).partnerLeft l
  | none => s

/-! ### Rejoin (Table 03-6) -/

/-- Step 1: a lane's digital logic is reset. Its flash, MRAM and registers of lane-local state (Table 03-1) stay; class L bits
are cleared, and class N bits whose cause is gone (Table 14-2). -/
def Lane.rejoinReset (x : Lane) : Lane :=
  let f := x.blk.flt
  let keep := fun (b : Nat) => bitClass b ≠ 2 && (bitClass b ≠ 1 || f.cause.contains b)
  { flash := x.flash, mram := x.mram, version := x.version, booted := x.booted, tested := x.tested,
    announced := x.announced, announceBeat := x.announceBeat, configured := x.configured, supplyFault := x.supplyFault,
    blk := { net := { x.blk.net with port0 := { x.blk.net.port0 with sending := none }
                                     port1 := { x.blk.net.port1 with sending := none } }
             can := { x.blk.can with bus := x.blk.can.bus.map (fun e => (e.1, { e.2 with
               state := 3, recovering := false, tec := 0, recCnt := 0, offBeats := [], waitUntil := none, rx := [], tx := []
               fifo := [], queue := [] })) }
             flt := { f with sticky := f.sticky.filter keep, cause := f.cause.filter (fun b => bitClass b ≠ 2) }
             key := { x.blk.key with slots := [], signed := [] }
             pwr := { x.blk.pwr with firstSaveDone := false, saving := false }
             lane := { x.blk.lane with rejoinStep := 2, percent := 0, copiedParts := [], copiedGroups := [], paired := false } } }

/-- REJOIN_RESET. -/
def State.rejoinReset (s : State) (l : LaneId) : State :=
  let b := (s.lane l).blk.lane
  if b.role = .selftest && b.rejoinStep = 1 && (s.lane l.other).inService then s.onLane l Lane.rejoinReset else s

/-- Both sub-links of a lane are down. -/
def Lane.noLink (x : Lane) : Bool := !x.blk.lane.sub0 && !x.blk.lane.sub1

/-- REJOIN_SELF_TEST: step 2 ends; step 3 needs a sub-link (R114). DESIGN CHOICE (log 127): a test that passes found every clock of
the lane running. -/
def State.rejoinSelfTest (s : State) (l : LaneId) (passed : Bool) : State :=
  let x := s.lane l
  if x.blk.lane.role = .selftest && x.blk.lane.rejoinStep = 2 then
    if !passed || x.noLink then s.rejoinFail l
    else s.onLane l (fun y => ({ y with lostClocks := [] } : Lane).onLaneBlk (fun b => { b with role := .transfer, rejoinStep := 3 }))
  else s

/-- REJOIN_KEYS: step 3 ends: every stored blob of the lane in service is unwrapped into its slot (R524). -/
def State.rejoinKeys (s : State) (l : LaneId) : State :=
  let x := s.lane l
  if x.blk.lane.role = .transfer && x.blk.lane.rejoinStep = 3 then
    if x.noLink then s.rejoinFail l
    else s.onLane l (fun y => ((y.onFlash (fun f => { f with blobs := (s.lane l.other).flash.blobs })).unwrapAll
      s.pkg.dom.kekValue s.pkg.dom.kekGen).onLaneBlk (fun b => { b with rejoinStep := 4 }))
  else s

/-- Partitions whose remaining state step 5 has still to take, and groups that step 6 has still to take. -/
def Lane.partsToCopy (y : Lane) : List Nat :=
  (List.range 16).filter (fun p => decide ((y.part p).state = .running) || decide ((y.part p).state = .starting))
def Lane.groupsToCopy (y : Lane) : List Nat := (List.range 8).filter (fun g => y.blk.loop.en && (y.group g).enNow)

/-- Steps 5 and 6 end when everything has been taken. -/
def Lane.rejoinNext (x y : Lane) : Lane :=
  let b := x.blk.lane
  let n1 := if b.rejoinStep = 5 && (y.partsToCopy).all (fun p => b.copiedParts.contains p) then 6 else b.rejoinStep
  let n2 := if n1 = 6 && (y.groupsToCopy).all (fun g => b.copiedGroups.contains g) then 7 else n1
  x.onLaneBlk (fun k => { k with rejoinStep := n2 })

/-- Replicated state of Table 03-1 that the pre-copy brings: point configuration and image, heddle, loops, metering, recorder,
rings, the lane manager and the stored configuration. -/
def Lane.takeReplica (x y : Lane) : Lane :=
  let ports := fun (n : Nat) => (fun (p q : PortSt) => { p with en := q.en, pair := q.pair, ctl := q.ctl, pendingCtl := none })
    (x.port n) (y.port n)
  let buses := (List.range 8).foldl (fun (t : Tab BusSt) n =>
    let own := x.bus n
    let b := y.bus n
    tput {} t n { own with ctl := b.ctl, nbt := b.nbt, dbt := b.dbt, tdc := b.tdc, seq := b.seq
                           state := if bitOf b.ctl 0 then 0 else 3
                           rx := b.rx.map (fun m => (m.1, { m.2 with content := none, shadow := none, locked := false }))
                           tx := b.tx.map (fun m => (m.1, { m.2 with content := none })) }) []
  { x with
    blk := { x.blk with
      pick := y.blk.pick, pnt := y.blk.pnt, hed := y.blk.hed, loop := y.blk.loop, nrg := y.blk.nrg, recd := y.blk.recd
      net := { y.blk.net with port0 := ports 0, port1 := ports 1 }
      can := { y.blk.can with bus := buses }
      key := { x.blk.key with slots := y.blk.key.slots, enclEn := y.blk.key.enclEn, pendingEncl := y.blk.key.pendingEncl
                              meas := x.blk.key.meas.filter (fun m => m.1 < 4) ++ y.blk.key.meas.filter (fun m => 4 ≤ m.1)
                              loads := y.blk.key.loads, authFails := y.blk.key.authFails }
      flt := { x.blk.flt with nevEn := y.blk.flt.nevEn, pendingNev := y.blk.flt.pendingNev }
      pwr := { x.blk.pwr with vwarn := y.blk.pwr.vwarn, pendingVwarn := y.blk.pwr.pendingVwarn
                              savePeriod := y.blk.pwr.savePeriod }
      lane := { x.blk.lane with prefer := y.blk.lane.prefer, holdoff := y.blk.lane.holdoff
                                pendingPrefer := y.blk.lane.pendingPrefer, preferCount := y.blk.lane.preferCount }
      rings := y.blk.rings.filter (fun r => replicatedRing r.1) }
    man := y.man, parts := y.parts, cores := y.cores, mbx := y.mbx, flash := y.flash, job := y.job
    mram := { x.mram with seqs := y.mram.seqs, recNext := y.mram.recNext, ledger := y.mram.ledger, backlog := y.mram.backlog }
    rtcSet0 := y.rtcSet0, rtcSet1 := y.rtcSet1, lastInfo := y.lastInfo, lastUpdate := y.lastUpdate, repeats := y.repeats, txRings := y.txRings
    bulkRing := y.bulkRing, netQueue := y.netQueue, token := x.token }

/-- REJOIN_PRE_COPY: step 4 ends, with everything copied at least once. -/
def State.rejoinPreCopy (s : State) (l : LaneId) : State :=
  let x := s.lane l
  let y := s.lane l.other
  if x.blk.lane.role = .transfer && x.blk.lane.rejoinStep = 4 && y.inService then
    if x.noLink then s.rejoinFail l
    else s.onLane l (fun k => ((k.takeReplica y).onLaneBlk (fun b => { b with rejoinStep := 5, percent := 100 })).rejoinNext y)
  else s

/-- REJOIN_FINAL_COPY: at a cycle boundary of a partition, the rejoining lane receives its remaining state (step 5). -/
def State.rejoinFinalCopy (s : State) (l : LaneId) (p : Nat) : State :=
  let x := s.lane l
  let y := s.lane l.other
  let q := y.part p
  if p < 16 && x.blk.lane.role = .transfer && x.blk.lane.rejoinStep = 5 && y.inService &&
      (q.state ≠ .running || q.phase = .idle || q.phase = .ready) then
    s.onLane l (fun k =>
      let c := (q.coreList).foldl (fun (z : Lane) n => z.onCore n (fun _ => y.core n)) (k.onPart p (fun _ => q))
      (c.onLaneBlk (fun b => { b with copiedParts := insSorted p b.copiedParts })).rejoinNext y)
  else s

/-- REJOIN_ENGINE_STATE: at a group's sample boundary, the rejoining lane takes the group's loop state, and the metering state
(step 6). -/
def State.rejoinEngineState (s : State) (l : LaneId) (g : Nat) : State :=
  let x := s.lane l
  let y := s.lane l.other
  if g < 8 && x.blk.lane.role = .transfer && x.blk.lane.rejoinStep = 6 && y.inService && !(y.group g).awaiting then
    s.onLane l (fun k =>
      let a := (y.blk.loop.loops.filter (fun e => e.2.group = g)).foldl (fun (z : Lane) e => z.onLoop e.1 (fun _ => e.2))
        (k.onGroup g (fun _ => y.group g))
      ((a.onNrg (fun _ => y.blk.nrg)).onLaneBlk (fun b => { b with copiedGroups := insSorted g b.copiedGroups })).rejoinNext y)
  else s

/-- The lane's own measurements of start-up, MEAS[0] to MEAS[3] (R533). -/
def Lane.bootMeas (x : Lane) : List (List Byte) := (List.range 4).map (fun i => tget (zeros 48) x.blk.key.meas i)

/-- REJOIN_JOIN: with no agreement open, the lane takes all replicated state, the pick numbers and the open epoch's number, matches
its state digest, and reaches STANDBY (step 7, R62, R49, R412); PICK_STAT.SOLO drops at the next pick. Requests that the lane in
service has pending are replicated. -/
def State.rejoinJoin (s : State) (l : LaneId) : State :=
  let x := s.lane l
  let y := s.lane l.other
  if x.blk.lane.role = .transfer && x.blk.lane.rejoinStep = 7 && y.inService && y.closed = [] then
    if x.noLink || x.bootMeas ≠ y.bootMeas || (x.takeReplica y).stateDigest ≠ y.stateDigest then s.rejoinFail l
    else
      let n := streamNo 8 l.num
      let s1 := s.onLane l (fun k =>
        let a := k.takeReplica y
        { a with
          man := { a.man with seqNext := tput 1 a.man.seqNext n (tget 0 y.man.discard n + 1)
                              saveJob := y.man.saveJob.map (fun j => { j with area := k.mram.nextArea }) }
          blk := { a.blk with pick := { a.blk.pick with soloHold := true }, lane := { a.blk.lane with
            role := .standby, rejoinStep := 0, percent := 0, gatesClosed := false, heartbeat := true, hbBeat := s.pkg.beat
            holdElapsed := 0, holdBeat := none, paired := true, copiedParts := [], copiedGroups := [] } }
          joining := true, started := true, open_ := [], openBytes := 0, held := [], closed := [], inbox := [], arrivals := 0 })
      let s2 := s1.onLane l.other (fun k => ((k.onLaneBlk (fun b => { b with paired := true })).onPick
        (fun p => { p with soloHold := true })).endCause 171)
      let s3 := if l = .a then s2.onLane .b (fun k => k.endCause 2098) else s2
      s3.onPkg (fun p => { p with pickReqs := p.pickReqs ++ p.pickReqs.map (fun r => { r with lane := l }) })
  else s

/-! ### Rows -/

def execKeepalive (l : LaneId) (sub beat : Nat) (s : State) : Host.Outcome State Fault Refusal := .next ((s.at_ beat).keepalive l sub)

def execSubLinkLoss (l : LaneId) (sub beat : Nat) (s : State) : Host.Outcome State Fault Refusal :=
  .next ((s.at_ beat).subLinkLoss l sub)

def execHeartbeatToggle (l : LaneId) (beat : Nat) (s : State) : Host.Outcome State Fault Refusal :=
  .next ((s.at_ beat).heartbeatToggle l)

def execHeartbeatMissing (l : LaneId) (beat : Nat) (s : State) : Host.Outcome State Fault Refusal :=
  .next ((s.at_ beat).heartbeatMissing l)

def execFaultLine (l : LaneId) (beat : Nat) (s : State) : Host.Outcome State Fault Refusal := .next ((s.at_ beat).seeFaultLine l)

def execFaultNotice (l : LaneId) (beat : Nat) (s : State) : Host.Outcome State Fault Refusal := .next ((s.at_ beat).seeNotice l)

def execRejoinReset (l : LaneId) (s : State) : Host.Outcome State Fault Refusal := .next (s.rejoinReset l)

def execRejoinSelfTest (l : LaneId) (passed : Bool) (beat : Nat) (s : State) : Host.Outcome State Fault Refusal :=
  .next ((s.at_ beat).rejoinSelfTest l passed)

def execRejoinKeys (l : LaneId) (beat : Nat) (s : State) : Host.Outcome State Fault Refusal := .next ((s.at_ beat).rejoinKeys l)

def execRejoinPreCopy (l : LaneId) (s : State) : Host.Outcome State Fault Refusal := .next (s.rejoinPreCopy l)

def execRejoinFinalCopy (l : LaneId) (part : Nat) (s : State) : Host.Outcome State Fault Refusal := .next (s.rejoinFinalCopy l part)

def execRejoinEngineState (l : LaneId) (group : Nat) (s : State) : Host.Outcome State Fault Refusal :=
  .next (s.rejoinEngineState l group)

def execRejoinJoin (l : LaneId) (beat : Nat) (s : State) : Host.Outcome State Fault Refusal := .next ((s.at_ beat).rejoinJoin l)

end Sys2Proof.Machine
end

