-- ==== Sys2Proof/Machine/Commands.lean ====
section
/-! DEFINITION. Skelkan commands (chapter 09): acceptance (steps 3 to 6 of Table 09-5), execution (steps 7 to 12), the general,
fault, lane and recorder opcodes, and the rows that are commands. -/

namespace Sys2Proof.Machine

/-! ### Which opcodes run where (R346, R350, Table 09-6) -/

/-- Opcodes of the fast path (R346). -/
def fastCodes : List Nat := [0x0001, 0x0002, 0x0003, 0x0005, 0x0101]

/-- Opcodes that run while the module is halted at class G (R350). -/
def haltedCodes : List Nat :=
  [0x0001, 0x0002, 0x0003, 0x0004, 0x0704, 0x0901, 0x0903, 0x0404, 0x0601, 0x0501, 0x0502, 0x0503]

/-- The read-only set (R351). -/
def readOnlyCodes : List Nat :=
  [0x0001, 0x0002, 0x0003, 0x0004, 0x0005, 0x0101, 0x0105, 0x0204, 0x0302, 0x0304, 0x0404, 0x0502, 0x0601, 0x0704, 0x0901,
   0x0903, 0x0A01, 0x0A04]

/-- NOP, ECHO, IDENTIFY and GET_MEASUREMENT. -/
def basicCodes : List Nat := [0x0001, 0x0002, 0x0003, 0x0004]

/-- Table 09-6: whether a life-cycle state admits an opcode on a transport, unprotected or from a partition. -/
def codeAllowed (life : LifeCycle) (service unprotected : Bool) (c : Nat) : Bool :=
  let network := basicCodes.contains c || c = 0x0701
  let lifeGet := basicCodes.contains c || c = 0x0704
  let last := c = 0x0003 || c = 0x0004
  match life with
  | .sealed =>
    if service then (if unprotected then lifeGet else readOnlyCodes.contains c) else if unprotected then network else true
  | .returned => if unprotected then (if service then true else network) else lifeGet
  | .void => if unprotected && !service then last else last || c = 0x0704
  | _ => if unprotected && !service then network else true

/-- Steps 7 to 10 of Table 09-5. -/
def State.earlyRefusal (s : State) (h : Hdr) (op : Op) : Option Status :=
  let c := opCode op
  let unknown := match op with | .unknown _ => true | _ => false
  if (h.fast && !fastCodes.contains c) || unknown || (s.pkg.order = .m00 && 0x0301 ≤ c && c ≤ 0x0304) then some .badOpcode
  else if !codeAllowed s.pkg.life (decide (h.via = .service)) h.sender.isNone c then
    some (if h.sender.isNone && h.via ≠ .service then .notPermitted else .lifecycleDenied)
  else if s.pkg.halted && !haltedCodes.contains c then some .safeState
  else if !h.lenOk then some .badLength
  else none

/-- A refusal of steps 11 and 12 beside the reserved bytes and bits of the parameters (R353): an item out of its range or a sender
that may not comes before them, any other refusal after. -/
def withReserved (h : Hdr) (c : Option Status) : Option Status :=
  if c = some .badParam || c = some .notPermitted then c else if h.reservedOk then c else some .badParam

/-- A selector that names no layout (R349): refused with BAD_PARAM, after the sender where the opcode has one. -/
def State.selectorRefusal (s : State) (l : LaneId) (h : Hdr) (c : Nat) (b : List Byte) : Status :=
  let x := s.lane l
  let tenant := decide (h.sender.getD 0 ≠ 0)
  let denied : Bool := match c with
    | 0x0205 => x.loopDenied h (beAt b 0 1)
    | 0x0302 => s.checkMeterList l h (beAt b 1 1) (beAt b 2 1) = some .notPermitted
    | 0x0403 => decide (beAt b 0 1 < 16) && !ownPart h (beAt b 0 1)
    | 0x0703 => offService h
    | 0x0A02 => tenant && !(3 ≤ beAt b 0 1 && beAt b 0 1 ≤ 5 && decide (policyCount (beAt b 0 1) ≤ beAt b 2 2))
    | _ => false
  if denied then .notPermitted else .badParam

/-! ### General opcodes (Table 09-8) -/

/-- PICK: the command's request enters (R50, R54); its ticket comes when it is accepted. -/
def State.runPick (s : State) (l : LaneId) (h : Hdr) : State × Answer :=
  (s.requestPick l (.command (h.sender.getD 16) h.seq) 0, .later .pickTicket)

/-- The parameters that EVENT_SUBSCRIBE answers (Table 09-8). -/
def subReply (v : Sender) : List Byte :=
  beBytes 4 v.eventSeq.toNat ++
  (match v.sub with
   | some q => beBytes 2 q.kinds ++ beBytes 2 q.unacked.length
   | none => zeros 4)

/-- START binds, STOP ends and ACK acknowledges (R362, R364). -/
def State.runSubscribe (s : State) (l : LaneId) (h : Hdr) (f : Option Subscription → Option Subscription) : State × Answer :=
  let p := h.sender.getD 0
  let s1 := (s.onLane l (fun x => x.onSender p (fun v => { v with sub := f v.sub }))).sendEvents l p
  (s1, .done .ok (subReply ((s1.lane l).sender p)))

/-- A START: a later one replaces the binding (R362). -/
def subStarted (h : Hdr) (kinds : Nat) (old : Option Subscription) : Option Subscription :=
  match old with
  | some q => some { q with via := h.via, src := h.src, enc := h.enc, kinds := kinds }
  | none => some { via := h.via, src := h.src, enc := h.enc, kinds := kinds }

/-- An ACK: every packet below `n` is acknowledged (R364). -/
def subAcked (n : Word) (old : Option Subscription) : Option Subscription :=
  old.map (fun q => { q with unacked := q.unacked.filter (fun e => decide (n ≤ e.seq)) })

/-! ### Fault opcodes (R359, R501) -/

/-- An INDEX in the range of its scope (Table 14-11). -/
def scopeInRange (scope index : Nat) : Bool :=
  match scope with
  | 1 => index < 512
  | 2 => index < 64
  | 3 => index < 8
  | 4 => index < 256
  | 5 => index < 16
  | 6 => index = 0
  | _ => false

def checkFaultAck (x : Lane) (h : Hdr) (scope index : Nat) : Option Status :=
  if 1 ≤ scope && scope ≤ 5 && !scopeInRange scope index then some .badParam
  else if h.sender.getD 0 ≠ 0 &&
      !([1, 2, 4, 5].contains scope && decide (x.scopeOwner scope index = h.sender.getD 0)) then some .notPermitted
  else if !scopeInRange scope index then some .badParam
  else none

/-- A bit of class N or S that a FAULT_ACK of a scope acts on. -/
def ackActs (scope index b : Nat) : Bool :=
  (bitClass b = 1 || bitClass b = 3) && (scope = 6 || (scopeBits scope index).contains b)

/-- The class S bits of a scope that are set in either lane. -/
def State.ackable (s : State) (scope index : Nat) : List Nat :=
  let f := fun (x : Lane) => x.blk.flt.sticky.filter (fun b => ackActs scope index b && bitClass b = 3)
  (f s.b).foldl (fun t b => insSorted b t) (f s.a)

/-- The cause of an overcurrent is gone once the stage has been off for 1 s (Table 14-3). -/
def State.endOvercurrents (s : State) : State :=
  (List.range 8).foldl (fun (t : State) r =>
    (t.fe r).overcurrent.foldl (fun (u : State) i =>
      if tget 0 (u.fe r).overBeat i + secBeats ≤ u.pkg.beat && !(u.fe r).testFail.contains i then u.endCauseBoth (bitUnit (64 * r + i))
      else u) t) s

/-- Every bit of a scope whose cause is gone is cleared in a lane; loops of the scope that no bit holds leave their safe value at
their next sample (R276), and a partition leaves SAFE for STOPPED (R145). -/
def Lane.ackScope (x : Lane) (e : Word) (scope index : Nat) : Lane :=
  let y := (x.blk.flt.sticky.filter (ackActs scope index)).foldl (fun (z : Lane) b => z.clearBit b) x
  let z := (y.blk.loop.loops.filter (fun e => e.2.safe && (scope = 6 || (scope = 4 && e.1 = index)) && !y.loopFaulted e.1)).foldl
    (fun (w : Lane) q => w.queueLoop q.1 (.pick e) .leave) y
  ((List.range 16).filter (fun p => (z.part p).state = .safe && ((scope = 5 && p = index) ||
      (scope = 6 && !z.hasBit (bitProgramFault p) && !z.hasBit (bitPartOverrun p))))).foldl
    (fun (w : Lane) p => w.onPart p (fun q => { q with state := .stopped })) z

/-- The stages of units whose bits a FAULT_ACK has cleared are enabled again (Table 14-3). -/
def State.enableStages (s : State) (bits : List Nat) : State :=
  bits.foldl (fun (t : State) b =>
    if 256 ≤ b && b ≤ 767 then
      t.onFe ((b - 256) / 64) (fun f => { f with overcurrent := f.overcurrent.filter (· ≠ (b - 256) % 64),
                                                 overBeat := tput 0 f.overBeat ((b - 256) % 64) 0 })
    else t) s

/-- The owners of what the bits concern. -/
def Lane.bitOwners (x : Lane) (bits : List Nat) : List Nat := bits.map (fun b => x.scopeOwner (bitScope b).1 (bitScope b).2)

/-- A FAULT_ACK of epoch `e` acts on both lanes: the reply's bytes and the class S bits cleared, or none when a cause persists
(R359). -/
def State.ackFaults (s : State) (e : Word) (scope index : Nat) : State × Option (List Byte × List Nat) :=
  let s0 := s.endOvercurrents
  let before := s0.ackable scope index
  if scope ≠ 6 && before.any (fun b => s0.a.hasCause b || s0.b.hasCause b) then (s, none)
  else
    let s1 : State := { s0 with a := s0.a.ackScope e scope index, b := s0.b.ackScope e scope index }
    let after := s1.ackable scope index
    let gone := before.filter (fun b => !after.contains b)
    ((s1.enableStages gone).allLiteralsMoved, some (beBytes 2 gone.length ++ beBytes 2 after.length, gone))

/-- The bytes that the first lane leaves its partner: the reply, then one byte for each partition concerned. -/
def ownersMask (ps : List Nat) : Nat := ((List.range 16).map (fun p => if ps.contains p then 2 ^ p else 0)).sum

/-- FAULT_ACK: the lane that executes first acts on both lanes, and the other gives the same answer. -/
def State.runFaultAck (s : State) (l : LaneId) (h : Hdr) (e : Word) (scope index : Nat) : State × Answer :=
  let give := fun (t : State) (code : Nat) (bs : List Byte) =>
    if code = 0 then
      let mask := beAt bs 4 2
      let ps := (List.range 16).filter (fun p => mask.testBit p && p ≠ 0 && decide (h.sender ≠ some p))
      (if scope = 6 then t.onLane l (fun x => x.noticeTo h 0x0902 e ps (opBytes (.faultAck scope index))) else t,
        Answer.done .ok (bs.take 4))
    else (t, Answer.done .safeState [])
  match s.pkg.outcomes.find? (fun o => o.1 = h && o.2.1 = e) with
  | some o => give (s.onPkg (fun p => { p with outcomes := p.outcomes.erase o })) o.2.2.1 o.2.2.2
  | none =>
    let q := s.ackFaults e scope index
    let r : Nat × List Byte := match q.2 with
      | some (bs, gone) => (0, bs ++ beBytes 2 (ownersMask (((s.lane l).bitOwners gone))))
      | none => (Status.safeState.code, [])
    let t := if (q.1.lane l.other).releases then q.1.onPkg (fun p => { p with outcomes := p.outcomes ++ [(h, e, r.1, r.2)] }) else q.1
    give t r.1 r.2

def checkFaultStatus (h : Hdr) (first count : Nat) : Option Status :=
  if h.sender.getD 0 ≠ 0 then some .notPermitted
  else if first % 32 ≠ 0 || count = 0 || count % 32 ≠ 0 || 4096 < first + count then some .badParam
  else none

/-! ### Lane opcodes (R125, R126) -/

def checkLanePrefer (h : Hdr) (prefer holdoff : Nat) : Option Status :=
  if h.sender.getD 0 ≠ 0 then some .notPermitted
  else if 2 < prefer || holdoff < 10 || 3600 < holdoff then some .badParam
  else none

/-- LANE_PREFER in one lane: preference and hold-off change at the next pick release, and are stored (R115, R126). -/
def runLanePrefer (x : Lane) (now prefer holdoff : Nat) : Lane × Answer :=
  ((x.onLaneBlk (fun b => { b with pendingPrefer := some (prefer, holdoff), preferCount := b.preferCount + 1 })).startFlash .config now,
   .done .ok [])

/-! ### Recorder opcodes (R507 to R511) -/

/-- REC_FREEZE and REC_THAW come from partition 0. -/
def ownerOnly (h : Hdr) : Option Status := if h.sender.getD 0 ≠ 0 then some .notPermitted else none

def State.runRecFreeze (s : State) (l : LaneId) : State × Answer :=
  let s1 := s.onLane l (fun x => x.onRec (fun r => r.freeze (s.closingBeat l)))
  let r := (s1.lane l).blk.recd
  (s1, .done .ok (beBytes 8 r.oldest ++ beBytes 8 r.newest))

def checkRecRead (x : Lane) (start max : Nat) : Option Status :=
  if max < 1 || 16 < max || x.blk.recd.newest + 1 < start then some .badParam else none

def runRecRead (x : Lane) (h : Hdr) (start max : Nat) : Answer :=
  let q := x.blk.recd.window (readerOf (h.sender.getD 0)) start max x.blk.recd.newest
  .done .ok (beBytes 8 q.2 ++ beBytes 1 q.1.length ++ zeros 3 ++ q.1.flatMap recordBytes)

def runRecThaw (x : Lane) (e : Word) : Lane × Answer :=
  let r := x.blk.recd
  (x.onRec (fun r => r.thaw e), .done .ok (beBytes 4 (if r.frozen then r.frozenLost else 0)))

/-! ### Bulk forms -/

def State.checkProgramLoad (s : State) (l : LaneId) (h : Hdr) (part length transfer : Nat) : Option Status :=
  let x := s.lane l
  let p := h.sender.getD 0
  if 16 ≤ part then some .badParam
  else if !ownPart h part then some .notPermitted
  else if length < 112 || imageLimit < length then some .badParam
  else match x.transferRefused p transfer with
    | some .badParam => some .badParam
    | c => if (x.keyOf 2 p).isNone then some .keyLost else if x.programBusy part then some .busy else c

/-- LOOP_PATTERN_CTL WRITE: in-packet, or a transfer that opens (R356, R366). -/
def checkPatternWrite (x : Lane) (h : Hdr) (a : PatternArgs) : Option Status :=
  let p := h.sender.getD 0
  match checkPattern x h a (if a.transfer = 0 then 512 else 65536) with
  | some st => some st
  | none =>
    if a.transfer = 0 then (if a.samples.length ≠ a.count then some .badParam else none)
    else if a.count = 0 then some .badParam
    else match x.transferRefused p a.transfer with
      | some .badParam => some .badParam
      | c => if (x.keyOf 2 p).isNone then some .keyLost else c

/-- LOOP_PATTERN_CTL READ: in-packet, or by bulk over a network pair (R356, R368, Table 09-1). -/
def checkPatternRead (x : Lane) (h : Hdr) (a : PatternArgs) : Option Status :=
  match checkPattern x h a (if a.transfer = 0 then 512 else 65536) with
  | some st => some st
  | none =>
    if a.transfer = 0 then none
    else if a.count = 0 || h.via = .service then some .badParam
    else if (x.keyOf 2 (h.sender.getD 0)).isNone then some .keyLost
    else none

/-- A READ by bulk: the segments, then the final reply as their closing frame, on the pair's bulk ring (R368, R373). -/
def State.bulkRead (s : State) (l : LaneId) (h : Hdr) (e : Word) (a : PatternArgs) : State × Answer :=
  match bulkRingOf h.via, (s.lane l).keyOf 2 (h.sender.getD 0) with
  | some ring, some k =>
    let data := s.patternSamples l a
    let key := (s.lane l).replyKey h
    let p := h.sender.getD 0
    let credit := 16 - (s.lane l).outstandingOf p
    let packet := s.replyPacket l key h 0x0205 .ok (beBytes 4 data.length ++ beBytes 4 (crc32 data).toNat) e credit
    (s.onLane l (fun x =>
      ((x.bulkSend s.pkg.beat ring h k.2.1 0x0205 a.transfer data packet).onSender p
        (fun q => q.keep h.seq packet)).notice h 0x0205 e [] (opBytes (.patternRead a))), .sent)
  | _, _ => (s, .done .badParam [])

/-! ### Execution (steps 11 and 12 of Table 09-5) -/

/-- An operation after its checks. -/
def State.guarded (s : State) (h : Hdr) (c : Option Status) (f : State → State × Answer) : State × Answer :=
  match withReserved h c with
  | some st => (s, .done st [])
  | none => f s

/-- A meaning that acts on lane `l` alone. -/
def State.alone (s : State) (l : LaneId) (q : Lane × Answer) : State × Answer := (s.setLane l q.1, q.2)

/-- What an opcode does in lane `l` at the release of epoch `e`, from step 11 of Table 09-5 on. -/
def State.runOp (s : State) (l : LaneId) (h : Hdr) (e : Word) (op : Op) : State × Answer :=
  let x := s.lane l
  let now := s.pkg.beat
  match op with
  | .nop => s.guarded h none (fun t => (t, .done .ok []))
  | .echo bs => s.guarded h none (fun t => (t, .done .ok bs))
  | .identify => s.guarded h none (fun t => t.jointReply l h e op)
  | .getMeasurement n => s.guarded h (checkMeasurement x now) (fun t => t.runMeasurement l n)
  | .pick => s.guarded h none (fun t => t.runPick l h)
  | .subStart k _ => s.guarded h none (fun t => t.runSubscribe l h (subStarted h k))
  | .subStop _ _ => s.guarded h none (fun t => t.runSubscribe l h (fun _ => none))
  | .subAck _ a => s.guarded h none (fun t => t.runSubscribe l h (subAcked a))
  | .readPoints f c => s.guarded h (checkReadPoints x h f c) (fun t => (t, runReadPoints x f c))
  | .writePoints is => s.guarded h (checkWritePoints x h is) (fun t => t.alone l (runWritePoints x e is))
  | .forceSet f => s.guarded h (checkForceSet x h f) (fun t => t.alone l (runForceSet x h e f))
  | .forceClear m f =>
    s.guarded h (if m = 1 || m = 2 then checkForceClear x h m f else some .badParam) (fun t => t.alone l (runForceClear x h m f))
  | .forceList st m => s.guarded h (checkForceList m) (fun t => (t, t.runForceList l h st m))
  | .configUnits is => s.guarded h (checkConfigUnits x h is) (fun t => t.alone l (runConfigUnits x now is))
  | .heddleLoad r o d =>
    s.guarded h (checkHeddleLoad x h r o d) (fun t => t.alone l (runHeddleLoad x r o d))
  | .heddleCommit r c =>
    s.guarded h (checkHeddleCommit x h r c) (fun t =>
      let q := t.alone l (runHeddleCommit x h e now r c)
      (q.1.heddleCompare l r, q.2))
  | .loopConfigLoop i o ws => s.guarded h (checkLoopConfigLoop x h i o ws) (fun t => t.alone l (runLoopConfigLoop x e now i o ws))
  | .loopConfigGroup i p ph en =>
    s.guarded h (checkLoopConfigGroup x h i p ph en) (fun t => t.alone l (runLoopConfigGroup x e now i p ph en))
  | .loopBankWrite n ws => s.guarded h (checkLoopBankWrite x h n ws) (fun t => t.alone l (runLoopBankWrite x now n ws))
  | .loopBankSwap n b g => s.guarded h (checkLoopBankSwap x h n g) (fun t => t.alone l (runLoopBankSwap x e now n b))
  | .loopStatus f c => s.guarded h (checkLoopStatus x h f c) (fun t => (t, t.runLoopStatus l f c))
  | .patternClear p => s.guarded h (checkPatternAlone x h p) (fun t => t.alone l (runPatternClear x e p))
  | .patternRead p =>
    s.guarded h (checkPatternRead x h p) (fun t =>
      if p.transfer = 0 then (t, .done .ok (t.patternSamples l p)) else t.bulkRead l h e p)
  | .patternWrite p =>
    s.guarded h (checkPatternWrite x h p) (fun t =>
      if p.transfer = 0 then (t.setLane l (runPatternWrite x e p.loop p.offset p.samples), .done .ok [])
      else t.alone l (x.openTransfer h op e now p.transfer (2 * p.count)))
  | .patternSave p => s.guarded h (checkPatternSave x h now p) (fun t => t.alone l (runPatternSave x l now p))
  | .meterConfig is => s.guarded h (s.checkMeterConfig l h is) (fun t => t.alone l (runMeterConfig x e now is))
  | .meterRead st f c =>
    s.guarded h (match s.checkMeterList l h f c with | some q => some q | none => if 2 < st then some .badParam else none)
      (fun t => t.jointReply l h e op)
  | .meterReset c => s.guarded h (s.checkMeterReset h c) (fun t => t.alone l (runMeterReset x h e c))
  | .meterLoss f c => s.guarded h (s.checkMeterList l h f c) (fun t => (t, t.runMeterLoss l f c))
  | .programLoad p n id =>
    s.guarded h (s.checkProgramLoad l h p n id) (fun t => t.alone l (x.openTransfer h op e now id n))
  | .programExchange p r g => s.guarded h (s.checkExchange l h p r g) (fun t => t.alone l (runExchange x h e now p))
  | .restart p m k =>
    s.guarded h (match s.checkRestart l h p k with | some .notPermitted => some .notPermitted | c => if 2 < m then some .badParam else c)
      (fun t => t.alone l (runRestart x h p m k))
  | .cycleStatus p => s.guarded h (checkPart h p) (fun t => (t, .done .ok (x.cycleStatus p)))
  | .retainSave p => s.guarded h (checkPart h p) (fun t => t.alone l (runRetainSave x e))
  | .recFreeze => s.guarded h (ownerOnly h) (fun t => t.runRecFreeze l)
  | .recRead st m => s.guarded h (checkRecRead x st m) (fun t => (t, runRecRead x h st m))
  | .recThaw => s.guarded h (ownerOnly h) (fun t => t.alone l (runRecThaw x e))
  | .timeGet => s.guarded h none (fun t => t.jointReply l h e op)
  | .timeSet d => s.guarded h (s.checkTimeSet h d) (fun t => t.runTimeSet l h e d)
  | .timeTrim v => s.guarded h (s.checkTimeTrim h v) (fun t => t.runTimeTrim l h e v)
  | .keyLoad n b =>
    (match s.checkKeyLoad l h n b with
     | .inl st =>
       (if st = .authFail then s.onLane l (fun y => y.onKey (fun k => { k with authFails := k.authFails + 1 })) else s, .done st [])
     | .inr i => s.runKeyLoad l n b i)
  | .escrowRestore b => s.runEscrow l h e b
  | .keyUnload n er => s.guarded h (checkKeyUnload x h n) (fun t => t.alone l (runKeyUnload x now n er))
  | .kekGenerate =>
    (match (if (s.decidedKey l h e).isSome then none else s.checkGenerate h) with
     | some st => (s, .done st [])
     | none => s.runGenerate l h e)
  | .kekWrap k a => (match s.checkWrap h k a with | some st => (s, .done st []) | none => (s, s.runWrap k a))
  | .lifecycleGet => s.guarded h none (fun t => (t, t.lifecycleReply))
  | .lifecycleAdvance c k =>
    s.guarded h (s.advanceStatus l h e c k) (fun t =>
      match lifeOf c with | some v => t.runAdvance l h e v | none => (t, .done .badParam []))
  | .netConfig n => s.guarded h (checkNetConfig h n) (fun t => t.alone l (runNetConfig x now n))
  | .filterSet f => s.guarded h (checkFilterSet h f) (fun t => t.alone l (runFilterSet x now f))
  | .canConfig c => s.guarded h (checkCanConfig x h c) (fun t => t.alone l (runCanConfig x now c))
  | .mailboxSet m => s.guarded h (checkMailboxSet h m) (fun t => t.alone l (runMailboxSet x now m))
  | .faultStatus f c => s.guarded h (checkFaultStatus h f c) (fun t => t.jointReply l h e op)
  | .faultAck sc i => s.guarded h (checkFaultAck x h sc i) (fun t => t.runFaultAck l h e sc i)
  | .laneStatus => s.guarded h none (fun t => t.jointReply l h e op)
  | .lanePrefer p o => s.guarded h (checkLanePrefer h p o) (fun t => t.alone l (runLanePrefer x now p o))
  | .policyGet i f c => s.guarded h (checkPolicyGet h i f c) (fun t => t.jointReply l h e op)
  | .policyPin i n v => s.guarded h (checkPolicyPin x h i n (some v)) (fun t => t.alone l (runPolicyPin x l e now i n (some v)))
  | .policyUnpin i n _ => s.guarded h (checkPolicyPin x h i n none) (fun t => t.alone l (runPolicyPin x l e now i n none))
  | .moduleSet is => s.guarded h (s.checkModuleSet h is) (fun t => t.runModuleSet l now is)
  | .moduleGet i n => s.guarded h (checkModuleGet h i n) (fun t => t.jointReply l h e op)
  | .badSelector c b => (s, .done (s.selectorRefusal l h c b) [])
  | .unknown _ => (s, .done .badOpcode [])

/-- WRES of what a METER_CONFIG item writes (Table 08-10). -/
def Lane.meterItemWres (x old : Lane) (i : MeterItem) : Lane :=
  let fs := fun (ty base : Nat) => if (old.minput ty i.index).fs = w32 i.value then x else x.setWres 5 (base + 4 * i.index) 0
  let tr := fun (ty base : Nat) => if (old.minput ty i.index).trim = w32 i.value then x else x.setWres 5 (base + 4 * i.index) 0
  match i.item with
  | 1 => fs 1 0x100
  | 2 => tr 1 0x140
  | 3 => fs 2 0x200
  | 4 => tr 2 0x400
  | 5 => x.setWres 5 (0x1000 + 4 * i.index) 4
  | 6 => x.setWres 5 (0x1200 + 4 * i.index) 4
  | 7 => x.setWres 5 (0x1400 + 4 * i.index) 4
  | 8 => x.setWres 5 (0x1800 + 4 * i.index) 4
  | _ => x.setWres 5 (0x1C00 + 4 * i.index) 4

/-- WRES after the lane manager has written the registers of an accepted command, in ascending order within an item and in list
order over items; `old` is the lane before (R440, R448). A posted write leaves its own result. -/
def Lane.commandWres (x old : Lane) (l : LaneId) (op : Op) : Lane :=
  match op with
  | .configUnits is => is.foldl (fun (y : Lane) u => y.setWres 2 (0x3000 + 4 * u.point) 4) x
  | .loopConfigGroup g p _ _ =>
    if (old.group g).period = p then x.setWres 4 (0x20 + 4 * g) 4 else x.setWres 4 (0x40 + 4 * g) 0
  | .loopConfigLoop n _ _ => x.setWres 4 (0x4000 + 64 * n + 52) 4
  | .meterConfig is => is.foldl (fun (y : Lane) i => y.meterItemWres (old.nrgWritten l) i) x
  | .canConfig c =>
    let o := 0x100 + 0x100 * c.bus
    let b := old.bus c.bus
    let x1 := x.setWres 7 o 4
    let x2 := if nbtWord c = b.nbt then x1 else x1.setWres 7 (o + 4) 0
    let x3 := if dbtWord c = b.dbt then x2 else x2.setWres 7 (o + 8) 0
    if w32 c.tdco = b.tdc then x3 else x3.setWres 7 (o + 0xC) 0
  | .mailboxSet m =>
    x.setWres 7 (if m.dir = 0 then 0x1800 + 4 * (64 * m.bus + m.mailbox) else 0x2200 + 4 * (16 * m.bus + m.mailbox)) 4
  | .moduleSet is => is.foldl (fun (y : Lane) i =>
      if i.item = 1 then y.setWres 12 0x34 4 else if i.item = 2 then y.setWres 12 0x8 4
      else if i.item = 4 then y.setWres 11 0xC 0 else y) x
  | .policyPin 1 n _ => if n = l.num then x.setWres 12 0x14 4 else x
  | .policyUnpin 1 n _ => if n = l.num then x.setWres 12 0x14 4 else x
  | .policyPin 3 g _ => x.setWres 4 (0x20 + 4 * g) 4
  | .policyUnpin 3 g _ => x.setWres 4 (0x20 + 4 * g) 4
  | .recFreeze => x.setWres 10 4 4
  | .recThaw => x.setWres 10 4 4
  | _ => x

/-- A command executes in lane `l` at the release of epoch `e` (steps 7 to 12 of Table 09-5) and is answered (R342, R343, R348,
R455); `entry` is the beat at which it entered its stream. The reply is sealed with the key that the sender held before. -/
def State.execute (s : State) (l : LaneId) (h : Hdr) (op : Op) (e : Word) (entry : Nat) : State :=
  let key := (s.lane l).replyKey h
  match s.earlyRefusal h op with
  | some st => s.replyWith l key h (opCode op) st [] e
  | none =>
    let q := s.runOp l h e op
    match q.2 with
    | .done st ps =>
      let owners := (s.lane l).changedOwners op ++ (q.1.lane l).changedOwners op
      let t := if st = .ok then q.1.onLane l (fun x =>
        (x.commandWres (s.lane l) l op).notice h (opCode op) e owners (opBytes op)) else q.1
      t.replyWith l key h (opCode op) st ps e
    | .later why =>
      let open_ := match why with | .transfer _ _ => true | _ => false
      let t := q.1.onLane l (fun x => x.onMan (fun m => { m with
        outstanding := m.outstanding ++ [⟨h, op, e, entry, why, open_, s.pkg.beat⟩] }))
      if open_ then t.replyWith l key h (opCode op) .pending [] e else t
    | .sent => q.1

/-- Step 6 of Table 09-5 and the wait of R345. -/
def State.admitCommand (s : State) (l : LaneId) (h : Hdr) (op : Op) (e : Word) (entry : Nat) : State :=
  let d := (h.pick - e).toNat
  if !h.flagsOk || !h.statusZero || (1000 < d && d < 2 ^ 31) then s.reply l h (opCode op) .badParam [] e
  else if 1 ≤ d && d ≤ 1000 then
    s.onLane l (fun x => x.onMan (fun m => { m with outstanding := m.outstanding ++ [⟨h, op, e, entry, .epoch, false, s.pkg.beat⟩] }))
  else s.execute l h op e entry

/-- A kept entry is of the command that arrives again: its header and parameters are the same (R339). -/
def Kept.sameAs (k : Kept) (h : Hdr) (op : Op) : Bool :=
  k.seq = h.seq && k.op = op && k.hdr.enc = h.enc && k.hdr.fast = h.fast && k.hdr.flagsOk = h.flagsOk && k.hdr.pick = h.pick &&
  k.hdr.credit = h.credit && k.hdr.statusZero = h.statusZero && k.hdr.lenOk = h.lenOk && k.hdr.reservedOk = h.reservedOk &&
  k.hdr.rest = h.rest

/-- A fresh command enters the window and the reply cache of its partition, and its credit is taken (R338, R339, R343). -/
def Sender.takeFresh (q : Sender) (h : Hdr) (op : Op) : Sender :=
  let w := markSeq q.high.toNat q.marked h.seq.toNat
  let kept := q.kept ++ [⟨h.seq, h, op, none⟩]
  { q with high := w32 w.1, marked := w.2, kept := kept.drop (kept.length - 16), credit := min 64 h.credit.toNat }

/-- A command is accepted, refused or discarded in lane `l` (steps 3 to 6 of Table 09-5, R334, R335). -/
def State.takeCommand (s : State) (l : LaneId) (h : Hdr) (op : Op) (e : Word) (entry : Nat) : State :=
  match h.sender with
  | none => s.admitCommand l h op e entry
  | some p =>
    match (s.lane l).keyOf 1 p with
    | none => s.replyUnprotected l h (opCode op) .keyLost [] e
    | some k =>
      if h.keyGen ≠ some k.2.2 then s
      else
        let q := (s.lane l).sender p
        if !freshSeq q.high.toNat q.marked h.seq.toNat then
          (match q.kept.find? (fun k => k.sameAs h op) with
           | some k => (match k.reply with | some b => s.sendReply l h b | none => s)
           | none => s.replyUnprotected l h (opCode op) .replay (beBytes 4 q.high.toNat) e)
        else
          let s1 := s.onLane l (fun x => x.onSender p (fun q => q.takeFresh h op))
          if 16 ≤ (s.lane l).outstandingOf p then s1.reply l h (opCode op) .noCredit [] e else s1.admitCommand l h op e entry

/-- The transfer that a command has opened was accepted with the command: its 60 s run from the release of the epoch that carried it
(R344, R367). -/
def Lane.acceptedAt (x : Lane) (p : Nat) (o : Outstanding) : Lane :=
  x.onSender p (fun q => { q with transfers := q.transfers.map (fun t =>
    if t.hdr = o.hdr && t.op = o.op then { t with opened := o.accepted } else t) })

/-- A waiting command executes at the release of epoch `e`, unless its key has changed since (R334, R335, R345). -/
def State.resumeCommand (s : State) (l : LaneId) (o : Outstanding) (e : Word) : State :=
  let s1 := s.onLane l (fun x => x.onMan (fun m => { m with outstanding := m.outstanding.erase o }))
  match o.hdr.sender with
  | none => s1.execute l o.hdr o.op e o.beat
  | some p =>
    match (s.lane l).keyOf 1 p with
    | none => s1.replyUnprotected l o.hdr (opCode o.op) .keyLost [] e
    | some k =>
      if o.hdr.keyGen = some k.2.2 then (s1.execute l o.hdr o.op e o.beat).onLane l (fun x => x.acceptedAt p o) else s1

/-- The epoch at which a command that is a row of the table executes: the one that the active lane released last. -/
def State.releasedEpoch (s : State) : Word := (s.lane s.activeLane).blk.pick.released

/-- A command executes in every lane that takes part in agreement (R344). -/
def State.command (s : State) (h : Hdr) (op : Op) : State :=
  let e := s.releasedEpoch
  s.eachLane Lane.releases (fun l t => (t.takeCommand l h op e s.pkg.beat).onLane l Lane.reserve)

/-- PENDING_REPLY: 45 ms after entry without a final reply (R348). -/
def State.pendingReply (s : State) (l : LaneId) (sender : Option Nat) (seq : Word) : State :=
  match (s.lane l).man.outstanding.find? (fun o => o.hdr.sender = sender && o.hdr.seq = seq && !o.pendingSent &&
      decide (o.beat + 4500000 ≤ s.pkg.beat)) with
  | none => s
  | some o =>
    (s.onLane l (fun x => x.onMan (fun m => { m with
      outstanding := oset1 m.outstanding o { o with pendingSent := true } }))).reply l o.hdr (opCode o.op) .pending [] o.epoch
where
  /-- The first entry equal to `o` becomes `v`. -/
  oset1 (l : List Outstanding) (o v : Outstanding) : List Outstanding :=
    match l with
    | [] => []
    | a :: r => if a = o then v :: r else a :: oset1 r o v

/-! ### Rows -/

def execNop (h : Hdr) (s : State) : Host.Outcome State Fault Refusal := .next (s.command h .nop)

def execEcho (h : Hdr) (bytes : List Byte) (s : State) : Host.Outcome State Fault Refusal := .next (s.command h (.echo bytes))

def execIdentify (h : Hdr) (s : State) : Host.Outcome State Fault Refusal := .next (s.command h .identify)

def execGetMeasurement (h : Hdr) (nonce : List Byte) (s : State) : Host.Outcome State Fault Refusal :=
  .next (s.command h (.getMeasurement nonce))

def execPick (h : Hdr) (s : State) : Host.Outcome State Fault Refusal := .next (s.command h .pick)

def execEventSubscribeStart (h : Hdr) (kinds : Nat) (ackSeq : Word) (s : State) : Host.Outcome State Fault Refusal :=
  .next (s.command h (.subStart kinds ackSeq))

def execEventSubscribeStop (h : Hdr) (kinds : Nat) (ackSeq : Word) (s : State) : Host.Outcome State Fault Refusal :=
  .next (s.command h (.subStop kinds ackSeq))

def execEventSubscribeAck (h : Hdr) (kinds : Nat) (ackSeq : Word) (s : State) : Host.Outcome State Fault Refusal :=
  .next (s.command h (.subAck kinds ackSeq))

def execReadPoints (h : Hdr) (first count : Nat) (s : State) : Host.Outcome State Fault Refusal :=
  .next (s.command h (.readPoints first count))

def execWritePoints (h : Hdr) (items : List (Nat × Word)) (s : State) : Host.Outcome State Fault Refusal :=
  .next (s.command h (.writePoints items))

def execForceSet (h : Hdr) (f : ForceArgs) (s : State) : Host.Outcome State Fault Refusal := .next (s.command h (.forceSet f))

def execForceClear (h : Hdr) (mode : Nat) (f : ForceArgs) (s : State) : Host.Outcome State Fault Refusal :=
  .next (s.command h (.forceClear mode f))

def execForceList (h : Hdr) (start max : Nat) (s : State) : Host.Outcome State Fault Refusal :=
  .next (s.command h (.forceList start max))

def execConfigUnits (h : Hdr) (items : List UnitItem) (s : State) : Host.Outcome State Fault Refusal :=
  .next (s.command h (.configUnits items))

def execHeddleLoad (h : Hdr) (region offset : Nat) (data : List Byte) (s : State) : Host.Outcome State Fault Refusal :=
  .next (s.command h (.heddleLoad region offset data))

def execHeddleCommit (h : Hdr) (region : Nat) (crc : Word) (s : State) : Host.Outcome State Fault Refusal :=
  .next (s.command h (.heddleCommit region crc))

def execLoopConfigLoop (h : Hdr) (index owner : Nat) (words : List Word) (s : State) : Host.Outcome State Fault Refusal :=
  .next (s.command h (.loopConfigLoop index owner words))

def execLoopConfigGroup (h : Hdr) (index period phase en : Nat) (s : State) : Host.Outcome State Fault Refusal :=
  .next (s.command h (.loopConfigGroup index period phase en))

def execLoopBankWrite (h : Hdr) (loop : Nat) (words : List Word) (s : State) : Host.Outcome State Fault Refusal :=
  .next (s.command h (.loopBankWrite loop words))

def execLoopBankSwap (h : Hdr) (loop : Nat) (bumpless : Bool) (gen : BitVec 16) (s : State) : Host.Outcome State Fault Refusal :=
  .next (s.command h (.loopBankSwap loop bumpless gen))

def execLoopStatus (h : Hdr) (first count : Nat) (s : State) : Host.Outcome State Fault Refusal :=
  .next (s.command h (.loopStatus first count))

def execPatternClear (h : Hdr) (p : PatternArgs) (s : State) : Host.Outcome State Fault Refusal :=
  .next (s.command h (.patternClear p))

def execPatternRead (h : Hdr) (p : PatternArgs) (s : State) : Host.Outcome State Fault Refusal :=
  .next (s.command h (.patternRead p))

def execPatternWrite (h : Hdr) (p : PatternArgs) (s : State) : Host.Outcome State Fault Refusal :=
  .next (s.command h (.patternWrite p))

def execPatternSave (h : Hdr) (p : PatternArgs) (s : State) : Host.Outcome State Fault Refusal :=
  .next (s.command h (.patternSave p))

def execMeterConfig (h : Hdr) (items : List MeterItem) (s : State) : Host.Outcome State Fault Refusal :=
  .next (s.command h (.meterConfig items))

def execMeterRead (h : Hdr) (set first count : Nat) (s : State) : Host.Outcome State Fault Refusal :=
  .next (s.command h (.meterRead set first count))

def execMeterResetAccum (h : Hdr) (circuit : Nat) (s : State) : Host.Outcome State Fault Refusal :=
  .next (s.command h (.meterReset circuit))

def execMeterLossReport (h : Hdr) (first count : Nat) (s : State) : Host.Outcome State Fault Refusal :=
  .next (s.command h (.meterLoss first count))

def execProgramLoad (h : Hdr) (part length transfer : Nat) (s : State) : Host.Outcome State Fault Refusal :=
  .next (s.command h (.programLoad part length transfer))

def execProgramExchange (h : Hdr) (part : Nat) (retainMatch : Bool) (gen : BitVec 16) (s : State) : Host.Outcome State Fault Refusal :=
  .next (s.command h (.programExchange part retainMatch gen))

def execRestart (h : Hdr) (part mode : Nat) (mask : BitVec 16) (s : State) : Host.Outcome State Fault Refusal :=
  .next (s.command h (.restart part mode mask))

def execCycleStatus (h : Hdr) (part : Nat) (s : State) : Host.Outcome State Fault Refusal :=
  .next (s.command h (.cycleStatus part))

def execRetainSave (h : Hdr) (part : Nat) (s : State) : Host.Outcome State Fault Refusal := .next (s.command h (.retainSave part))

def execRecFreeze (h : Hdr) (s : State) : Host.Outcome State Fault Refusal := .next (s.command h .recFreeze)

def execRecRead (h : Hdr) (start max : Nat) (s : State) : Host.Outcome State Fault Refusal :=
  .next (s.command h (.recRead start max))

def execRecThaw (h : Hdr) (s : State) : Host.Outcome State Fault Refusal := .next (s.command h .recThaw)

def execTimeGet (h : Hdr) (s : State) : Host.Outcome State Fault Refusal := .next (s.command h .timeGet)

def execTimeSet (h : Hdr) (d : DateTime) (s : State) : Host.Outcome State Fault Refusal := .next (s.command h (.timeSet d))

def execTimeTrim (h : Hdr) (trim : Int) (s : State) : Host.Outcome State Fault Refusal := .next (s.command h (.timeTrim trim))

def execKeyLoadBlob (h : Hdr) (slot : Nat) (blob : List Byte) (s : State) : Host.Outcome State Fault Refusal :=
  .next (s.command h (.keyLoad slot blob))

def execKekEscrowRestore (h : Hdr) (blob : List Byte) (s : State) : Host.Outcome State Fault Refusal :=
  .next (s.command h (.escrowRestore blob))

def execKeyUnload (h : Hdr) (slot : Nat) (erase : Bool) (s : State) : Host.Outcome State Fault Refusal :=
  .next (s.command h (.keyUnload slot erase))

def execProvisionKekGenerate (h : Hdr) (s : State) : Host.Outcome State Fault Refusal := .next (s.command h .kekGenerate)

def execProvisionKekWrap (h : Hdr) (key attrs : List Byte) (s : State) : Host.Outcome State Fault Refusal :=
  .next (s.command h (.kekWrap key attrs))

def execLifecycleGet (h : Hdr) (s : State) : Host.Outcome State Fault Refusal := .next (s.command h .lifecycleGet)

def execLifecycleAdvance (h : Hdr) (target : Nat) (confirm : Word) (s : State) : Host.Outcome State Fault Refusal :=
  .next (s.command h (.lifecycleAdvance target confirm))

def execNetConfig (h : Hdr) (n : NetArgs) (s : State) : Host.Outcome State Fault Refusal := .next (s.command h (.netConfig n))

def execFilterSet (h : Hdr) (f : FilterArgs) (s : State) : Host.Outcome State Fault Refusal := .next (s.command h (.filterSet f))

def execCanConfig (h : Hdr) (c : CanArgs) (s : State) : Host.Outcome State Fault Refusal := .next (s.command h (.canConfig c))

def execCanMailboxSet (h : Hdr) (m : MailboxArgs) (s : State) : Host.Outcome State Fault Refusal :=
  .next (s.command h (.mailboxSet m))

def execFaultStatus (h : Hdr) (first count : Nat) (s : State) : Host.Outcome State Fault Refusal :=
  .next (s.command h (.faultStatus first count))

def execFaultAck (h : Hdr) (scope index : Nat) (s : State) : Host.Outcome State Fault Refusal :=
  .next (s.command h (.faultAck scope index))

def execLaneStatus (h : Hdr) (s : State) : Host.Outcome State Fault Refusal := .next (s.command h .laneStatus)

def execLanePrefer (h : Hdr) (prefer holdoff : Nat) (s : State) : Host.Outcome State Fault Refusal :=
  .next (s.command h (.lanePrefer prefer holdoff))

def execPolicyGet (h : Hdr) (item first count : Nat) (s : State) : Host.Outcome State Fault Refusal :=
  .next (s.command h (.policyGet item first count))

def execPolicyPin (h : Hdr) (item index : Nat) (value : Word) (s : State) : Host.Outcome State Fault Refusal :=
  .next (s.command h (.policyPin item index value))

def execPolicyUnpin (h : Hdr) (item index : Nat) (value : Word) (s : State) : Host.Outcome State Fault Refusal :=
  .next (s.command h (.policyUnpin item index value))

def execModuleSet (h : Hdr) (items : List SettingItem) (s : State) : Host.Outcome State Fault Refusal :=
  .next (s.command h (.moduleSet items))

def execModuleGet (h : Hdr) (item index : Nat) (s : State) : Host.Outcome State Fault Refusal :=
  .next (s.command h (.moduleGet item index))

def execPendingReply (l : LaneId) (sender : Option Nat) (seq : Word) (beat : Nat) (s : State) : Host.Outcome State Fault Refusal :=
  .next ((s.at_ beat).pendingReply l sender seq)

end Sys2Proof.Machine
end

