-- ==== Sys2Proof/Machine/Picks.lean ====
section
/-! DEFINITION. Picks (chapter 02): requests and tickets, closing, agreement, and what the release of an epoch does in a lane. -/

namespace Sys2Proof.Machine

/-! ### Requests and tickets (R50 to R57) -/

/-- A requester's ticket reaches it in the lane whose request it was (R57). -/
def Lane.takeTicket (x : Lane) (who : Requester) (n : Word) : Lane :=
  match who with
  | .core c => x.onCore c (fun k => { k with ticket := n, run := if k.run = .asking then .running else k.run })
  | .executive p => x.onPart p (fun q => if q.phase = .asked then { q with phase := .pick, ticket := n } else q)
  | .command p seq =>
    x.onMan (fun m => { m with outstanding := m.outstanding.map (fun o =>
      if o.hdr.sender.getD 16 = p && o.hdr.seq = seq && o.why = .pickTicket then { o with why := .ticket n } else o) })

/-- PICK_REQUEST_ACCEPT: the active lane takes the oldest request that has arrived. The replica of an accepted request is
discarded, with the same ticket (R53, R54). -/
def State.pickRequestAccept (s : State) : State :=
  match s.active, s.pkg.pickReqs with
  | some l, r :: rest =>
    let s0 := s.onPkg (fun p => { p with pickReqs := rest })
    (match s.pkg.accepted.find? (fun a => a.1.who = r.who && a.1.count = r.count) with
     | some a =>
       (s0.onPkg (fun p => { p with accepted := p.accepted.erase a })).onLane r.lane (fun x => x.takeTicket r.who a.2)
     | none =>
       let n := (s.lane l).blk.pick.opened
       (s0.onPkg (fun p => { p with
         waitingReqs := p.waitingReqs + 1
         accepted := if (s.lane r.lane.other).releases then p.accepted ++ [(r, n)] else p.accepted })).onLane r.lane
           (fun x => x.takeTicket r.who n))
  | _, _ => s

/-- Partition 0's cycle executive runs no program: it has none that runs, or the module is halted (R51). -/
def State.idleExecutive (s : State) (l : LaneId) : Bool :=
  let q := (s.lane l).part 0
  s.pkg.halted || (q.state ≠ .running && q.state ≠ .starting)

/-- CYCLE_EXECUTIVE_PICK: partition 0's cycle executive performs only the pick of its cycle, at a period of 1 ms (R51, R493). -/
def State.executivePick (s : State) (l : LaneId) : State :=
  let q := (s.lane l).part 0
  if (s.lane l).releases && s.idleExecutive l && q.startBeat + 100000 ≤ s.pkg.beat then
    let s1 := s.onLane l (fun x => x.onPart 0 (fun k => { k with execCount := k.execCount + 1, startBeat := s.pkg.beat }))
    (s1.requestPick l (.executive 0) (q.execCount + 1)).p0Start l (q.execCount + 1)
  else s

/-! ### Closing (Table 02-3, steps 2 and 3) -/

/-- A lane closes the open epoch as `i.n`, and the next opens: held events move on (R67). -/
def Lane.closeEpoch (x : Lane) (l : LaneId) (i : CloseInfo) (now : Nat) : Lane :=
  let y : Lane := { x with
    closed := x.closed ++ [⟨i, x.open_, true, none⟩], open_ := [], openBytes := 0, arrivals := 0, joining := false,
    blk := { x.blk with pick := { x.blk.pick with holding := false, soloHold := false } } }
  ((y.onPick (fun p => { p with opened := i.n + 1, coalesced := p.coalesced + w32 i.coalesced })).admitHeld).drainIntake l now

/-- The lane that has closed sends what it holds to its partner, and packets of the service port that waited enter the new epoch. -/
def State.afterClose (s : State) (l : LaneId) (n : Word) : State :=
  let s1 := match (s.lane l).closed.getLast? with
    | some c => if (s.lane l.other).releases then s.send l (.epoch n c.events) else s
    | none => s
  if s1.active = some l then s1.drainSp else s1

/-- Epochs run: every lane that takes part in agreement has reached step 8 of its start-up, at which epoch 1 opens (R61). -/
def State.epochsRun (s : State) : Bool := (!s.a.releases || s.a.started) && (!s.b.releases || s.b.started)

/-- The number that a CLOSE message carries. -/
def closeOf (m : Msg) : Option CloseInfo := match m with | .close i => some i | _ => none

/-- PICK_CLOSE: at the earliest closure that R55 permits, the active lane closes the open epoch and sends CLOSE. A lane that has just
taken the active role first closes the epochs that the lane before it has closed, whose CLOSE messages still wait (R117, R71). -/
def State.pickClose (s : State) : State :=
  let now := s.pkg.beat
  let free := match s.pkg.lastClose with | some t => decide (t + 1000 ≤ now) | none => true
  match s.active with
  | none => s
  | some l =>
    if s.pkg.waitingReqs = 0 || !free || !s.epochsRun || ((s.lane l).inbox.findSome? closeOf).isSome then s
    else
      let x := s.lane l
      let i : CloseInfo :=
        { n := x.blk.pick.opened, beat := now, frames := (List.range 8).map (fun r => (x.newestFrame r).number),
          cycles := (List.range 16).map (fun p => (x.part p).cycle), details := x.blk.recd.detailsMade,
          coalesced := s.pkg.waitingReqs - 1 }
      let s1 := (s.onPkg (fun p => { p with lastClose := some now, waitingReqs := 0 })).onLane l (fun y => y.closeEpoch l i now)
      let s2 := if (s.lane l.other).releases then s1.send l (.close i) else s1
      s2.afterClose l i.n

/-- CLOSE_RECEIVED: the standby lane closes the epoch that CLOSE names; a CLOSE of an epoch that is closed already has no
effect. -/
def State.closeReceived (s : State) (l : LaneId) : State :=
  let x := s.lane l
  match x.inbox.findSome? closeOf with
  | none => s
  | some i =>
    let s1 := s.onLane l (fun y => { y with inbox := y.inbox.erase (.close i) })
    if x.releases && i.n = x.blk.pick.opened then
      (s1.onLane l (fun y => y.closeEpoch l i s.pkg.beat)).afterClose l i.n
    else s1

/-! ### Agreement (Table 02-3, steps 4 and 5) -/

/-- What an EPOCH message carries. -/
def epochOf (m : Msg) : Option (Word × List Event) := match m with | .epoch n es => some (n, es) | _ => none

/-- EPOCH_EXCHANGE: the partner's events of an epoch that the lane has closed. Contents of an epoch that is released already
have no effect; those of one that is still open wait. -/
def State.epochExchange (s : State) (l : LaneId) : State :=
  let x := s.lane l
  match x.inbox.findSome? epochOf with
  | none => s
  | some (n, es) =>
    let drop := fun (y : Lane) => { y with inbox := y.inbox.erase (.epoch n es) }
    if x.closed.any (fun c => c.info.n = n) then
      s.onLane l (fun y => { drop y with closed := y.closed.map (fun c => if c.info.n = n then { c with theirs := some es } else c) })
    else if serialBefore n x.blk.pick.opened then s.onLane l drop
    else s

/-- AGREEMENT_TIMEOUT: the partner is in service and has not completed step 4 within 1,200 µs of the close: a shuttle-link fault,
which the standby lane leaves service for (R71, R88). -/
def State.agreementTimeout (s : State) (l : LaneId) : State :=
  match (s.lane l).closed with
  | c :: _ =>
    if c.theirs.isNone && s.a.inService && s.b.inService && !s.a.faultLine && !s.b.faultLine && c.info.beat + 120000 ≤ s.pkg.beat then
      s.raise s.activeLane.other 162 true
    else s
  | [] => s

/-! ### Release (Table 02-3 step 6, R73 to R77, R84, R504) -/

/-- The events of an epoch enter the recorder, then the notes and the module detail records that CLOSE names (R504). -/
def RecBlk.release (r : RecBlk) (i : CloseInfo) (cycleOf : Nat → Nat) (es : List Event) : RecBlk :=
  let r1 := r.autoThaw i.n i.beat
  let r2 := es.foldl (fun (q : RecBlk) e => q.write i.n e.stream e.part false e.kind (recordPayload e.body)) r1
  let due := fun (p : Nat) (e : PendingRec) => e.part = p && (decide (e.cycle ≤ i.cycles.getD p 0) || decide (cycleOf p < e.cycle))
  let notes := (List.range 16).flatMap (fun p => r2.notes.filter (due p))
  let r3 := notes.foldl (fun (q : RecBlk) e => q.write i.n e.source e.part false 0x10 e.payload) r2
  let k := i.details - r3.detailsWritten
  let ds := r3.details.take k
  let r4 := ds.foldl (fun (q : RecBlk) e => q.write i.n e.source e.part false 0x11 e.payload) r3
  { r4 with notes := r2.notes.filter (fun e => !notes.contains e), details := r3.details.drop k,
            detailsWritten := r3.detailsWritten + ds.length }

/-- REC_CTL.FREEZE as the lane manager last wrote it takes effect directly after the records of a release (R507, R508). -/
def RecBlk.takeFreeze (r : RecBlk) (i : CloseInfo) : RecBlk :=
  match r.pendingFreeze with
  | some true => { r.freeze i.beat with pendingFreeze := none }
  | some false => { r.thaw i.n with pendingFreeze := none }
  | none => r

/-- KL_eff after a pattern period (R558). -/
def LoopSt.adaptKl (o : LoopSt) : Word :=
  match o.periodDone with
  | some (s, before) =>
    let step := fun (m : Int) => coefClamp (w32 (coefE (o.bw 15) * 65536 + twos 16 m)) (o.bw 14) (o.bw 15) (o.bw 15)
    if o.pinKl.isSome then o.klEff
    else if 11 * before < 10 * s then step ((coefM o.klEff).tdiv 2)
    else if 10 * s < 9 * before then step (valueSat ((coefM o.klEff * 5).tdiv 4))
    else o.klEff
  | none => o.klEff

/-- BM_eff and CM_eff after a block of 64 samples (R559): the means of the residual and of its product with the change of the
driven output decide by their signs and by RTH / 4. -/
def LoopSt.adaptModel (o : LoopSt) : Word × BitVec 16 :=
  match o.blkDone with
  | some (res, prd) =>
    if o.pinModel.isSome then (o.bmEff, o.cmEff)
    else
      let rth : Int := field (o.bw 23) 31 16
      let cm := if 16 * rth < res then o.cmEff.toInt + 16 else if 16 * rth < -res then o.cmEff.toInt - 16 else o.cmEff.toInt
      let bm := if 0 < prd then coefM o.bmEff + 1 else if prd < 0 then coefM o.bmEff - 1 else coefM o.bmEff
      (coefClamp (coefWith o.bmEff (valueSat bm)) (o.bw 19) (o.bw 20) (o.bw 18),
       BitVec.ofInt 16 (clampInt (valueLo (o.bw 22)) (valueHi (o.bw 22)) cm))
  | none => (o.bmEff, o.cmEff)

/-- The adaptation decisions of the lane manager at the release of epoch `n` (R275, R558, R559). -/
def Lane.adapt (x : Lane) (n : Word) : Lane :=
  (x.blk.loop.loops.filter (fun e => e.2.periodDone.isSome || e.2.blkDone.isSome)).foldl (fun (y : Lane) e =>
    let m := e.2.adaptModel
    let k := e.2.adaptKl
    let z := y.onLoop e.1 (fun o => { o with periodDone := none, blkDone := none })
    if k = e.2.klEff && m = (e.2.bmEff, e.2.cmEff) then z else z.queueLoop e.1 (.pick n) (.adapt k m.1 m.2)) x

/-- The forces that a cycle whose pick is `n` takes: those in the table before the commands of epoch `n`, which also apply to the loop
output writes made after its release (R191). -/
def Lane.captureForces (x : Lane) (n : Word) : Lane :=
  (List.range 16).foldl (fun (y : Lane) p =>
    let q := y.part p
    if (q.phase = .pick || q.phase = .asked) && (q.phase = .asked || q.ticket = n) then
      y.onPart p (fun k => { k with forces := y.man.forces.map (·.2) })
    else y) (x.onMan (fun m => { m with
      loopForces := (m.forces.filter (fun e => e.2.kind = 2)).foldl (fun t e =>
        oset t e.2.target (BitVec.ofNat 32 e.2.value.toNat)) [] }))

/-- A core inside a PICK call whose pick is released returns from it: status OK and the ticket, which raises the partition's
visible epoch (R80, R135, R137). -/
def Lane.resumeCore (x : Lane) (reqs : List PickReq) (l : LaneId) (now c : Nat) : Lane :=
  let k := x.core c
  match k.run with
  | .waiting cnt =>
    if reqs.any (fun r => r.lane = l && r.who = .core c && r.count = cnt) || !x.isReleased k.ticket then x
    else
      let y := x.onCore c (fun k => { k with
        run := .running, regs := tput 0 (tput 0 k.regs 10 0) 11 k.ticket, waited := k.waited + (now - k.waitStart) })
      (match x.corePart c with
       | some p => y.onPart p (fun q => { q with visible := if serialBefore q.visible k.ticket then k.ticket else q.visible })
       | none => y)
  | _ => x

/-- PICK commands whose ticket is released are answered (R57, Table 09-8), and cores in a PICK call go on. -/
def State.serveTickets (s : State) (l : LaneId) : State :=
  let ready := (s.lane l).man.outstanding.filter (fun o => match o.why with
    | .ticket n => (s.lane l).isReleased n
    | _ => false)
  let s1 := ready.foldl (fun (t : State) o => match o.why with
    | .ticket n => t.finish l o .ok (beBytes 4 n.toNat)
    | _ => t) s
  s1.onLane l (fun x => (List.range 16).foldl (fun (y : Lane) c => y.resumeCore s.pkg.pickReqs l s.pkg.beat c) x)

/-- A Skelkan packet that an event carries: transport, packet, stamp, source and entry beat; `bulk` tells its port. -/
structure CarriedPacket where
  via : Via
  bytes : List Byte
  keyGen : Option Word
  src : Source
  entry : Nat
  bulk : Bool
deriving DecidableEq, Repr

/-- The packet that an event carries, if any (Table 09-1, R329). -/
def carriedPacket (e : Event) : Option CarriedPacket :=
  match e.body with
  | .net _ none _ bs g src beat => some ⟨.service, bs, g, src, beat, false⟩
  | .net _ (some f) _ bs g src beat =>
    let via : Via := if e.stream = 0 then .estate else .floor
    if udpPort f = 48620 then some ⟨via, bs, g, src, beat, false⟩
    else if udpPort f = 48621 then some ⟨via, bs, g, src, beat, true⟩
    else none
  | _ => none

/-- Bulk segments of an epoch reach ring 62, or are dropped and counted there (R365, R451). -/
def Lane.deliverBulk (x : Lane) (n : Word) (es : List Event) : Lane :=
  es.foldl (fun (y : Lane) e =>
    match carriedPacket e with
    | some k =>
      if !k.bulk then y
      else if (y.bulkRing.map (fun b => slotsOf b.2.1.length)).sum + slotsOf k.bytes.length ≤ ringSlots 62 then
        ({ y with bulkRing := y.bulkRing ++ [(e.stream, k.bytes, k.keyGen, n)] }).onRing 62
          (fun g => { g with posted := g.posted + 1, dropping := false })
      else y.onRing 62 Ring.dropOne
    | none => y) x

/-- Frames that the lane manager answers (R388). -/
def Lane.deliverFrames (x : Lane) (es : List Event) : Lane :=
  { x with netQueue := x.netQueue ++ es.filterMap (fun e => match e.body with
      | .net _ (some f) _ _ _ _ _ => if isArp f || isSolicit f || isEcho f then some (e.stream, f) else none
      | _ => none) }

/-- A command that executes at a release: one that has waited, or one that the epoch carries. -/
inductive DueCommand where
  | waited (o : Outstanding)
  | carried (k : CarriedPacket)
deriving DecidableEq, Repr

/-- Whether the fast path takes a command: FAST is set in its header (R346). -/
def DueCommand.fast : DueCommand → Bool
  | .waited o => o.hdr.fast
  | .carried k => decide (beAt k.bytes 3 1 / 4 % 2 = 1)

/-- The command of a packet is accepted and executes, its parameters decrypted under the key in force. -/
def State.runCarried (s : State) (l : LaneId) (n : Word) (k : CarriedPacket) : State :=
  let key := match readHeader k.bytes with
    | some h => ((s.lane l).keyOf 1 h.part).map (fun q => q.2.1)
    | none => none
  match readCommand k.bytes k.via k.src k.keyGen key with
  | some (h, op) => s.takeCommand l h op n k.entry
  | none => s

/-- The commands of a release: the fast path's first; within each, those that waited for epoch `n`, then those it carries (R345,
R346). -/
def State.runCommands (s : State) (l : LaneId) (n : Word) (es : List Event) : State :=
  let waited := ((s.lane l).man.outstanding.filter (fun o => o.why = .epoch && o.hdr.pick = n)).map DueCommand.waited
  let carried := (es.filterMap carriedPacket).filter (fun k => !k.bulk) |>.map DueCommand.carried
  let all := waited ++ carried
  (all.filter DueCommand.fast ++ all.filter (fun c => !c.fast)).foldl (fun (t : State) c =>
    match c with
    | .waited o => t.resumeCommand l o n
    | .carried k => t.runCarried l n k) s

/-- The release of the oldest closed epoch in a lane, with what its partner brought. -/
def State.release (s : State) (l : LaneId) (c : ClosedEpoch) (theirs : Option (List Event)) : State :=
  let x := s.lane l
  let i := c.info
  let now := s.pkg.beat
  let other := theirs.getD []
  let d := match l with
    | .a => x.agree theirs.isSome i.beat c.events other
    | .b => x.agree theirs.isSome i.beat other c.events
  let es := d.out
  let x1 := (({ x with man := d.man, closed := x.closed.drop 1, lastInfo := some i } : Lane).onPick (fun p => { p with
    released := i.n, latMax := w32 (max p.latMax.toNat (now - i.beat)), dup := p.dup + w32 d.dup,
    solo := if theirs.isSome then p.solo else p.solo + 1 }))
  let x2 := (x1.onPort 0 (fun p => { p with prpEvict := p.prpEvict + w32 d.evict0 })).onPort 1
    (fun p => { p with prpEvict := p.prpEvict + w32 d.evict1 })
  let x3 := x2.onRec (fun r => (r.release i (fun p => (x2.part p).cycle) es).takeFreeze i)
  let x4 := es.foldl Lane.pulseReleased (((x3.deliverRings i.n es).deliverBulk i.n es).deliverFrames es)
  let x5 := if x4.saveDueAt i.n then x4.startSave s.pkg.order s.pkg.dom now i.beat else x4
  let s1 := (s.setLane l (x5.releaseWrites)).applyOwners l
  let s2 := s1.onLane l (fun y => ((y.applyCircuitOwners.releaseSettings).adapt i.n).captureForces i.n)
  let s3 := ((s2.exportEvents l i.n es).serveTickets l).runCommands l i.n es
  s3.onLane l (fun y => ((y.supervise now i.beat).reserve).load (decide (i.beat + msBeats < now)) false now)

/-- A lane has done what CLOSE names: it has committed the cycles, computed the samples before the closing beat (R288) and, when its
partner leads, made the detail records (R504). -/
def Lane.meetsClose (x : Lane) (i : CloseInfo) : Bool :=
  (List.range 8).all (fun g => !((x.group g).awaiting && decide ((x.group g).instant < i.beat))) &&
  (List.range 16).all (fun p =>
    let q := x.part p
    !(decide (i.cycles.getD p 0 = q.cycle + 1) && q.state = .running && q.phase ≠ .idle && q.phase ≠ .ready)) &&
  (x.leads || decide (i.details ≤ x.blk.recd.detailsMade))

/-- EPOCH_RELEASE: the oldest closed epoch whose contents are agreed is released (R63, R73). -/
def State.epochRelease (s : State) (l : LaneId) : State :=
  let x := s.lane l
  match x.closed with
  | c :: _ =>
    (match c.theirs with
     | some es => if x.releases && x.meetsClose c.info then s.release l c (some es) else s
     | none => s)
  | [] => s

/-- SOLO_RELEASE: a lane alone releases its own contents (R70, R71). -/
def State.soloRelease (s : State) (l : LaneId) : State :=
  let x := s.lane l
  match x.closed with
  | c :: _ => if x.releases && s.solo l && c.theirs.isNone && x.meetsClose c.info then s.release l c none else s
  | [] => s

/-! ### Rows -/

def execPickRequestAccept (s : State) : Host.Outcome State Fault Refusal := .next s.pickRequestAccept

def execPickClose (beat : Nat) (s : State) : Host.Outcome State Fault Refusal := .next (s.at_ beat).pickClose

def execCloseReceived (l : LaneId) (s : State) : Host.Outcome State Fault Refusal := .next (s.closeReceived l)

def execEpochExchange (l : LaneId) (s : State) : Host.Outcome State Fault Refusal := .next (s.epochExchange l)

def execEpochRelease (l : LaneId) (beat : Nat) (s : State) : Host.Outcome State Fault Refusal := .next ((s.at_ beat).epochRelease l)

def execSoloRelease (l : LaneId) (beat : Nat) (s : State) : Host.Outcome State Fault Refusal := .next ((s.at_ beat).soloRelease l)

def execAgreementTimeout (l : LaneId) (beat : Nat) (s : State) : Host.Outcome State Fault Refusal :=
  .next ((s.at_ beat).agreementTimeout l)

def execCycleExecutivePick (l : LaneId) (beat : Nat) (s : State) : Host.Outcome State Fault Refusal :=
  .next ((s.at_ beat).executivePick l)

end Sys2Proof.Machine
end

