-- ==== Sys2Proof/Machine/Start.lean ====
section
/-! DEFINITION. Power (chapter 17): the supply warning and the final save, reset, the nine steps of start-up (Table 17-4), what
the lane manager's flash holds and restores, and the core supply. -/

namespace Sys2Proof.Machine

/-! ### The supply warning (Table 17-2, Table 17-3) -/

/-- RETAIN_SAVE commands that wait are served by the next periodic save, whose number a final save moves on (R158). -/
def Lane.retargetSaves (x : Lane) : Lane :=
  let waits := fun (o : Outstanding) => match o.why with | .saveDone _ => true | _ => false
  let n := x.man.saveNumber + 1
  x.onMan (fun m => { m with
    outstanding := m.outstanding.map (fun o => if waits o then { o with why := .saveDone n } else o)
    saveAt := if m.outstanding.any waits then some (m.saveAt.getD x.blk.pick.opened) else m.saveAt })

/-- The warning in one lane: a periodic save in progress is abandoned and the final save starts (R544, R545); at class G the
final save has been made (Table 17-3). -/
def Lane.warned (x : Lane) (o : Order) (dom : Domain) (now : Nat) : Lane :=
  let y := x.abandonSave.onPwr (fun p => { p with warn := true, finalDone := false, warns := p.warns + 1 })
  (if x.blk.lane.role = .halted then y else y.startFinal o dom now now).retargetSaves

/-- SUPPLY_WARNING: both lanes raise the warning and set bit 180 (R544). -/
def State.supplyWarning (s : State) : State :=
  if s.pkg.inReset || s.a.blk.pwr.warn || s.b.blk.pwr.warn then s
  else
    ({ s with a := s.a.warned s.pkg.order s.pkg.dom s.pkg.beat, b := s.b.warned s.pkg.order s.pkg.dom s.pkg.beat }).flagBoth 180 true

/-- FINAL_SAVE_DONE: a lane has written its final area and read its closing record back (step 5 of Table 17-2). -/
def State.finalSaveDone (s : State) (l : LaneId) : State :=
  s.onLane l (fun x => x.completeFinal (w32 ((s.pkg.beat - x.finalBeat) / 100)))

/-- WARNING_CLEARED: WARN and FINAL_DONE return to 0, and the cause of bit 180 ends (R547). -/
def State.warningCleared (s : State) : State :=
  let clear := fun (x : Lane) => x.onPwr (fun p => { p with warn := false, finalDone := false })
  ({ s with a := clear s.a, b := clear s.b }).endCauseBoth 180

/-! ### Reset (R549, R317, R538) -/

/-- A lane after a module reset: flash and MRAM stay, everything else is at its reset value. -/
def Lane.afterReset (x : Lane) (cause : Nat) : Lane :=
  { flash := x.flash, mram := x.mram, blk := { pwr := { resetCause := cause } } }

/-- A module reset: every stage goes off, and the always-on domain latches the power-fail stamp, void when TIME_LOST is set. -/
def State.moduleReset (s : State) (cause : Nat) : State :=
  let p := s.pkg
  let d := p.dom
  { s with
    pkg := { beat := p.beat, order := p.order, life := p.life, lcGen := p.lcGen, serial := p.serial
             dom := { d with stamp := if d.timeLost then none else some d.cal.ms, busy := [] } }
    a := s.a.afterReset cause
    b := s.b.afterReset cause }

/-- Beats from the release of a life-cycle command to the end of step 3 of Table 16-8, at most. -/
def fuseBeats : Nat := 1100500

/-- VRST_RESET: a supervisor has crossed VRST (R549). A life-cycle transition whose fuses are blown, or whose first fuse is
blown, is completed; one whose fuses are not leaves the earlier state (R538): before the bound of step 3 which of the two holds
is a free value. -/
def State.vrstReset (s : State) : State :=
  if s.pkg.inReset then s
  else
    let cause := if s.a.blk.pwr.warn || s.b.blk.pwr.warn then 1 else 2
    match s.pkg.transition with
    | none => s.moduleReset cause
    | some (c, t) =>
      if t + fuseBeats ≤ s.pkg.beat then (s.onPkg (fun p => { p with life := c })).moduleReset cause
      else
        let q := s.draw
        if Config.freeBool q.1 then (q.2.onPkg (fun p => { p with life := c })).moduleReset cause else q.2.moduleReset cause

/-- RESET_RELEASE: the module beat count starts at 0 (R245), and the fuses are read (R536). A module that is not in
reset and has a life-cycle transition in progress first blows its fuses and resets (steps 3 and 4 of Table 16-8). -/
def State.resetRelease (s : State) : State :=
  let go := fun (t : State) => t.onPkg (fun p => { p with
    inReset := false, released := true, beat := 0, resetBeat := 0, timeLostAtStart := p.dom.timeLost })
  if s.pkg.inReset then go s
  else match s.pkg.transition with
    | some (c, _) => go ((s.onPkg (fun p => { p with life := c })).moduleReset 3)
    | none => s

/-! ### Boot and self-test (steps 2 and 3 of Table 17-4) -/

/-- The boot ROM's erase of owner data in RETURNED and VOID (step 5 of Table 16-8): blobs, program slots, heddle records, unit,
loop, metering, network and CAN configuration, patterns and the whole MRAM. -/
def Lane.eraseOwner (x : Lane) : Lane :=
  let f := x.flash
  { x with
    mram := {}
    flash := { vwarn := f.vwarn, savePeriod := f.savePeriod, chg := f.chg, enclEn := f.enclEn, portCtl0 := f.portCtl0
               portCtl1 := f.portCtl1, nevEn := f.nevEn, trim := f.trim, alarms := f.alarms, prefer := f.prefer
               kekGenMax := f.kekGenMax } }

/-- The stages of a slot extend MEAS[0] to MEAS[3]: loader, lane manager, the eight front-end images, engine tables (R532). -/
def Lane.measureBoot (x : Lane) (stages : List (List Byte)) : Lane :=
  (List.range 11).foldl (fun (y : Lane) i =>
    y.extend (if i = 0 then 0 else if i = 1 then 1 else if i < 10 then 2 else 3)
      (beBytes 48 (sha384 (stages.getD i [])).toNat)) x

/-- BOOT_COMPLETE: a lane in which no slot verifies stays OFF (R531). -/
def State.bootComplete (s : State) (l : LaneId) (verified : Bool) (version : Nat) (stages : List (List Byte)) : State :=
  let x := s.lane l
  if s.pkg.inReset || x.booted then s
  else
    let erased := if s.pkg.life = .returned || s.pkg.life = .void then x.eraseOwner else x
    if verified then
      s.setLane l (({ erased.measureBoot stages with booted := true, version := version }).onLaneBlk
        (fun b => { b with role := .selftest }))
    else s.setLane l erased

/-- A lane whose partner is in service joins it by Table 03-6 (R552). -/
def Lane.beginJoin (x : Lane) : Lane := x.onLaneBlk (fun b => { b with role := .selftest, rejoinStep := 1 })

/-- The preference record of a lane's flash (R553): PREFER, LANE_HOLDOFF and write count. -/
def Lane.preferRecord (x : Lane) : Nat × Nat × Nat := x.flash.prefer.getD (0, 60, 0)

/-- STARTUP_SELF_TEST: a lane that passes sets its core supply for the first time (Table 17-7) and announces itself (R552); a
lane that fails is OFF. -/
def State.startupSelfTest (s : State) (l : LaneId) (passed : Bool) : State :=
  let x := s.lane l
  if !x.booted || x.tested || x.blk.lane.role ≠ .selftest || x.blk.lane.rejoinStep ≠ 0 then s
  else if !passed then s.onLane l (fun y => ({ y with tested := true }).onLaneBlk (fun b => { b with role := .off }))
  else
    let y := ({ x with tested := true, announced := true, announceBeat := s.pkg.beat }).onPwr (fun p => { p with floor := 600 })
    if (s.lane l.other).inService then s.setLane l y.beginJoin
    else
      let r := x.preferRecord
      (s.setLane l y).send l (.announce x.bootMeas x.version r.1 r.2.1 r.2.2)

/-! ### Pairing (step 4 of Table 17-4, R552) -/

/-- 300 ms in T5 beats. -/
def pairBeats : Nat := 30000000

/-- A lane reaches its role at start-up: its gates open and its heartbeat runs. -/
def Lane.takeRole (x : Lane) (r : Role) (paired : Bool) (now : Nat) : Lane :=
  x.onLaneBlk (fun b => { b with role := r, gatesClosed := false, heartbeat := true, hbBeat := now, paired := paired })

/-- The preference, hold-off and write count in force in a lane. -/
def Lane.setPrefer (x : Lane) (r : Nat × Nat × Nat) : Lane :=
  x.onLaneBlk (fun b => { b with prefer := r.1, holdoff := r.2.1, preferCount := r.2.2 })

/-- A lane waits to be paired. -/
def Lane.waitsPartner (x : Lane) : Bool := x.announced && decide (x.blk.lane.role = .selftest) && decide (x.blk.lane.rejoinStep = 0)

/-- Both lanes have announced within 300 ms of each other and wait. -/
def State.canPair (s : State) : Bool :=
  s.a.waitsPartner && s.b.waitsPartner && s.a.announceBeat ≤ s.b.announceBeat + pairBeats &&
  s.b.announceBeat ≤ s.a.announceBeat + pairBeats

/-- The lanes pair: the preference with the higher write count applies, lane A's with equal counts. Equal entries give the roles;
with different ones the lane of the lower security version, or the non-preferred lane, stays OFF (R552). -/
def State.pair (s : State) : State :=
  let ra := s.a.preferRecord
  let rb := s.b.preferRecord
  let r := if ra.2.2 < rb.2.2 then rb else ra
  let named := (preferred r.1).getD .a
  let s1 : State := { s with a := s.a.setPrefer r, b := s.b.setPrefer r }
  let drop := fun (x : Lane) => { x with inbox := x.inbox.filter (fun m => match m with | .announce .. => false | _ => true) }
  let s2 : State := { s1 with a := drop s1.a, b := drop s1.b }
  if s.a.bootMeas = s.b.bootMeas && s.a.version = s.b.version then
    (s2.onLane named (fun x => x.takeRole .active true s.pkg.beat)).onLane named.other
      (fun x => x.takeRole .standby true s.pkg.beat)
  else
    let winner := if s.a.version < s.b.version then .b else if s.b.version < s.a.version then .a else named
    ((s2.onLane winner (fun x => x.takeRole .active false s.pkg.beat)).onLane winner.other
      (fun x => x.onLaneBlk (fun b => { b with role := .off }))).flag winner 2097 false

/-- LANE_ANNOUNCEMENT: a lane receives its partner's announcement. -/
def State.laneAnnouncement (s : State) (l : LaneId) : State :=
  if (s.lane l).inbox.any (fun m => match m with | .announce .. => true | _ => false) && s.canPair then s.pair else s

/-- PAIRING_TIMEOUT: a lane whose partner has not announced within 300 ms starts alone as active; a partner that completes later
joins by Table 03-6. -/
def State.pairingTimeout (s : State) (l : LaneId) : State :=
  let x := s.lane l
  let y := s.lane l.other
  if x.waitsPartner && x.announceBeat + pairBeats ≤ s.pkg.beat && !s.canPair && !y.inService then
    let s1 := s.onLane l (fun x => (x.setPrefer x.preferRecord).takeRole .active false s.pkg.beat)
    if y.waitsPartner then s1.onLane l.other Lane.beginJoin else s1
  else s

/-! ### What the lane manager stores (R240, R286, R325, R404, R405, R431, R553, R560, R563) -/

/-- A loop as the flash keeps it. -/
def LoopSt.stored (o : LoopSt) : LoopCfg := ⟨o.recWords, o.owner, o.bank0, o.bank1, o.active, o.gen⟩

/-- A bus as the flash keeps it. -/
def BusSt.stored (b : BusSt) : CanStore :=
  { ctl := b.ctl, nbt := b.nbt, dbt := b.dbt, tdc := b.tdc
    rx := b.rx.map (fun m => (m.1, (m.2.id, m.2.mask))), tx := b.tx.map (fun m => (m.1, (m.2.id, m.2.mask))) }

/-- The metering configuration as last written. -/
def Lane.storedMeter (x : Lane) (l : LaneId) : MeterStore :=
  let b := (x.nrgWritten l).blk.nrg
  { vin := b.vin.map (fun e => (e.1, (e.2.fs, e.2.trim)))
    iin := b.iin.map (fun e => (e.1, (e.2.fs, e.2.trim)))
    circuits := (List.range 96).map (fun c =>
      let k := tget {} b.circuits c
      (c, (k.cfg, k.noload, k.weight, (x.blk.nrg.pendingOwner.lookup c).getD k.owner)))
    pulses := b.pulses.map (fun e => (e.1, e.2.cfg)) }

/-- The configuration of a lane as it then stands, LIVE values that wait for their boundary included. -/
def Lane.configFlash (x : Lane) (l : LaneId) : Flash :=
  let b := x.blk
  let units := fun (t : Tab Word) (f : Word × Word × Word → Word) =>
    b.pnt.pendingUnits.foldl (fun (u : Tab Word) q => tput 0 u q.1 (f q.2)) t
  let pref := b.lane.pendingPrefer.getD (b.lane.prefer, b.lane.holdoff)
  { x.flash with
    moduleId := x.man.pendingId.getD x.man.moduleId
    vwarn := some (b.pwr.pendingVwarn.getD b.pwr.vwarn)
    savePeriod := some b.pwr.savePeriod
    enclEn := some (b.key.pendingEncl.getD b.key.enclEn)
    portCtl0 := some (b.net.port0.pendingCtl.getD b.net.port0.ctl)
    portCtl1 := some (b.net.port1.pendingCtl.getD b.net.port1.ctl)
    nevEn := some (b.flt.pendingNev.getD b.flt.nevEn)
    prefer := some (pref.1, pref.2, b.lane.preferCount)
    owner := b.pnt.pendingOwner.foldl (fun (u : Tab Nat) q => tput 0 u q.1 q.2) b.pnt.owner
    cfg := units b.pnt.cfg (fun q => q.1)
    param := units b.pnt.param (fun q => q.2.1)
    safe := units b.pnt.safe (fun q => q.2.2)
    loops := b.loop.loops.map (fun e => (e.1, e.2.stored))
    groups := (List.range 8).map (fun g => (g, ((x.group g).period, (x.group g).phase, (x.group g).en)))
    meter := x.storedMeter l
    estate := b.net.estate, floor := b.net.floor, filters := some (b.net.filtVlan, b.net.filtAct)
    can := b.can.bus.map (fun e => (e.1, e.2.stored))
    pins := x.man.pins }

/-- A loop's pattern as the flash keeps it (R268). -/
def Lane.storedPattern (x : Lane) (n : Nat) : SavedPattern :=
  let o := x.loop n
  { len := o.patLen, period := (x.group o.group).period, anchor := o.anchor
    samples := (List.range o.patLen).map (fun i => tget 0 x.blk.loop.pattern (o.patBase + i)) }

/-- The write at the head of a lane's flash queue is complete (R534, R286, R358). -/
def State.completeJob (s : State) (l : LaneId) (j : FlashJob) : State :=
  match j with
  | .config => s.onLane l (fun x => { x with flash := x.configFlash l })
  | .pattern n => s.onLane l (fun x => x.onFlash (fun f => { f with patterns := oset f.patterns n (x.storedPattern n) }))
  | .blob n b => s.onLane l (fun x => x.onFlash (fun f => { f with
      blobs := match b with | some v => oset f.blobs n v | none => odel f.blobs n }))
  | .image w => (s.onLane l (fun x => { x with imgWait := x.imgWait ++ [w] })).settleImages

/-- FLASH_WRITE_COMPLETE: the oldest flash write of a lane completes its read-back. -/
def State.flashWriteComplete (s : State) (l : LaneId) : State :=
  match (s.lane l).job with
  | [] => s
  | j :: r => (s.onLane l (fun x => { x with job := r })).completeJob l j.1

/-! ### Configuration (step 5 of Table 17-4) -/

/-- What a lane sees of both lanes' flash and MRAM at start: a partner that is not in service is not seen (Table 17-3, R120). -/
def State.startView (s : State) (l : LaneId) : State :=
  if (s.lane l.other).inService then s
  else s.onLane l.other (fun y => { y with flash := (s.lane l).flash, mram := (s.lane l).mram })

/-- NET_FILT_ACT of the filters installed on both ports at a start that finds no stored filter settings (Table 10-4): EN, steer, ring,
PCP_MASK 0xFF, EtherType. VID_MASK is 0, and filters 3 to 31 are disabled (R393). -/
def firstFilters : Tab Word :=
  [(0, 0xF0FF0800#32), (1, 0xF0FF86DD#32), (2, 0xF2FF0806#32), (32, 0xF4FF0800#32), (33, 0xF4FF86DD#32), (34, 0xF6FF0806#32)]

/-- Module settings, units, owners, network and CAN configuration from flash; the first filters where none are stored. -/
def Lane.restoreSettings (x : Lane) : Lane :=
  let f := x.flash
  let b := x.blk
  { x with
    man := { x.man with moduleId := f.moduleId, pins := f.pins }
    blk := { b with
      pwr := { b.pwr with vwarn := f.vwarn.getD 180, savePeriod := f.savePeriod.getD 1000 }
      key := { b.key with enclEn := f.enclEn.getD false }
      flt := { b.flt with nevEn := f.nevEn.getD true }
      pnt := { b.pnt with owner := f.owner, cfg := f.cfg, param := f.param, safe := f.safe }
      net := { b.net with
        port0 := { b.net.port0 with ctl := f.portCtl0.getD b.net.port0.ctl }
        port1 := { b.net.port1 with ctl := f.portCtl1.getD b.net.port1.ctl }
        estate := f.estate, floor := f.floor
        filtVlan := (f.filters.getD ([], firstFilters)).1, filtAct := (f.filters.getD ([], firstFilters)).2 }
      can := { b.can with bus := f.can.foldl (fun (t : Tab BusSt) e =>
        let c := e.2
        tput {} t e.1 { (tget {} t e.1) with
          ctl := c.ctl, nbt := c.nbt, dbt := c.dbt, tdc := c.tdc
          rx := c.rx.foldl (fun (u : Tab RxMailbox) m => tput {} u m.1 { id := m.2.1, mask := m.2.2 }) []
          tx := c.tx.foldl (fun (u : Tab TxMailbox) m => tput {} u m.1 { id := m.2.1, mask := m.2.2 }) [] }) b.can.bus } } }

/-- A loop from flash takes LOOP_REC.START_MODE, 0b11 as OFF (R286). -/
def LoopCfg.start (c : LoopCfg) : LoopSt :=
  let w := fun (i : Nat) => c.recWords.getD i 0
  let m := if field (w 10) 17 16 = 3 then 0 else field (w 10) 17 16
  let out := valueLo (w 13)
  let base : LoopSt :=
    { owner := c.owner, recWords := c.recWords, recNow := c.recWords, bank0 := c.bank0, bank1 := c.bank1, active := c.active
      gen := c.gen, mode := m, cmd := w32 m, start := if m = 2 then some out else none
      man := if m = 1 then w32 (field (w 13) 15 0) else 0, manNow := if m = 1 then out else 0 }
  base.restartAdapted

/-- Loops and groups of a lane from flash. -/
def Lane.restoreLoops (x : Lane) (l : LaneId) : Lane :=
  let y := x.onLoopBlk (fun b => { b with
    groups := x.flash.groups.foldl (fun (t : Tab GroupSt) g =>
      tput {} t g.1 { period := g.2.1, phase := g.2.2.1, phaseNow := g.2.2.1, en := g.2.2.2, enNow := g.2.2.2 }) b.groups
    loops := x.flash.loops.foldl (fun (t : Tab LoopSt) c => tput {} t c.1 c.2.start) b.loops })
  if x.flash.loops.any (fun c => field (c.2.recWords.getD 10 0) 17 16 = 3) then y.setBit l 2094 false else y

/-- The lane whose pattern copies both lanes restore: the one that R120 chooses for an MRAM save; without a save the preferred
lane, else lane A (R268). -/
def State.patternLane (s : State) : LaneId :=
  s.saveLane.getD (if s.a.blk.lane.prefer = 1 then .b else .a)

/-- The saved copy of a loop's pattern matches its present record. -/
def Lane.patternMatches (x : Lane) (n : Nat) (p : SavedPattern) : Bool :=
  let o := x.loop n
  p.len = o.patLen && p.period = (x.group o.group).period && p.anchor = o.anchor

/-- The pattern of loop `n` (R268): restored for PERSIST = 1 when a copy matches, else 0. -/
def State.restorePattern (v : State) (l : LaneId) (x : Lane) (n : Nat) : Lane :=
  let o := x.loop n
  if o.patLen = 0 || !o.persist then x
  else
    let copy := (v.lane v.patternLane).flash.patterns.lookup n
    let differ := decide (v.a.flash.patterns.lookup n ≠ v.b.flash.patterns.lookup n)
    let y := if differ then x.setBit l 2078 false else x
    match copy with
    | some p => if x.patternMatches n p then y.patternWrite o.patBase p.samples else y.setBit l 2078 false
    | none => y.setBit l 2078 false

/-- Policy pins from flash (R560): a supply pin acts at once, never below the floor. -/
def Lane.restorePins (x : Lane) (l : LaneId) : Lane :=
  x.man.pins.foldl (fun (y : Lane) p =>
    if p.1 = 1 then
      (if p.2.1 = l.num then y.onPwr (fun q =>
        let v := max q.floor p.2.2.toNat
        { q with pinEn := true, pinMv := p.2.2.toNat, core := v,
                 coreSteps := if v = q.core then q.coreSteps else q.coreSteps + 1 }) else y)
    else y.actPin l 0 p.1 p.2.1 (some p.2.2)) x

/-- Metering configuration from flash (step 1 of Table 08-7). -/
def Lane.restoreMeterConfig (x : Lane) : Lane :=
  let m := x.flash.meter
  x.onNrg (fun b => { b with
    vin := m.vin.foldl (fun (t : Tab MInput) e => tput {} t e.1 { fs := e.2.1, trim := e.2.2 }) []
    iin := m.iin.foldl (fun (t : Tab MInput) e => tput {} t e.1 { fs := e.2.1, trim := e.2.2 }) []
    circuits := m.circuits.foldl (fun (t : Tab Circuit) e =>
      tput {} t e.1 { cfg := e.2.1, noload := e.2.2.1, weight := e.2.2.2.1, owner := e.2.2.2.2 }) []
    pulses := m.pulses.foldl (fun (t : Tab PulseOut) e => tput {} t e.1 { cfg := e.2 }) [] })

/-- The newest heddle record of a region that both lanes hold marked valid, and whether a newer one was valid in one lane only
(R551). -/
def heddleRecord (mine theirs : List HedRecord) : Option HedRecord × Bool :=
  let both := mine.filter (fun q => q.valid && theirs.any (fun r => r.valid && r.version = q.version && r.image.raw = q.image.raw))
  let best := match both with
    | [] => none
    | q :: t => some (t.foldl (fun a w => if a.version < w.version then w else a) q)
  let v := match best with | some q => q.version + 1 | none => 0
  (best, (mine ++ theirs).any (fun q => q.valid && v ≤ q.version && !both.contains q))

/-- A region's committed configuration at start (R551). -/
def State.restoreHeddle (v : State) (l : LaneId) (x : Lane) (r : Nat) : Lane :=
  let q := heddleRecord (tget [] (v.lane l).flash.heddle r) (tget [] (v.lane l.other).flash.heddle r)
  let y := if q.2 then x.setBit l 2096 false else x
  let z := y.onFlash (fun f => { f with heddle := tput [] f.heddle r q.1.toList })
  match q.1 with
  | some c => z.onHed (fun h => { h with image := oset h.image r c.image, crc := tput 0 h.crc r c.image.crc })
  | none => z

/-- RTC trim and alarms when TIME_LOST was set, and the charger at every start (R472, R475, R477). -/
def State.restoreClock (s : State) (l : LaneId) : State :=
  let f := (s.lane l).flash
  let lost := s.pkg.timeLostAtStart
  let post := fun (t : State) (r : PwReg) (w : Word) => t.postRtc { lane := l, reg := r, words := [w] } true
  let s1 := match f.trim with | some v => if lost then post s .trim (w32 (twos 10 v)) else s | none => s
  let s2 := match f.chg with | some v => post s1 .chg v | none => s1
  if lost then
    f.alarms.foldl (fun (t : State) a =>
      post (post t (.alm a.1) (w32 a.2.minute)) (.almCtl a.1) (w32 (2 ^ 31 * b2n a.2.en + a.2.rep))) s2
  else s2

/-- STARTUP_CONFIGURATION: a lane has restored its configuration from flash, and every stored blob is unwrapped (R524). -/
def State.startupConfiguration (s : State) (l : LaneId) : State :=
  let x := s.lane l
  if !x.inService || x.configured || x.started then s
  else
    let v := s.startView l
    let x1 := (x.restoreSettings.restoreLoops l).restoreMeterConfig
    let x2 := (x1.blk.loop.loops.map (·.1)).foldl (fun (y : Lane) n => v.restorePattern l y n) x1
    let x3 := (List.range 8).foldl (fun (y : Lane) r => v.restoreHeddle l y r) (x2.restorePins l)
    let x4 := if loadsKeys s.pkg.life then x3.unwrapAll s.pkg.dom.kekValue s.pkg.dom.kekGen else x3
    (s.setLane l { x4 with configured := true }).restoreClock l

/-! ### Restore (step 7 of Table 17-4) -/

/-- The later of two numbers in serial-number arithmetic. -/
def laterWord (a b : Word) : Word := if serialBefore a b then b else a

/-- The metering section that start-up takes, its CRC-32 checked, and whether it is the final area's (step 2 of Table 08-7). -/
def State.startSection (s : State) : Option MeterSection × Bool :=
  match (s.finalSave.bind (·.section_)).filter MeterSection.checks with
  | some m => (some m, true)
  | none => ((s.newestSave.bind (·.section_)).filter MeterSection.checks, false)

/-- A ledger entry as a lane's MRAM holds it, and BACKLOG: none when neither copy checks. -/
def Mram.pulsesOf (m : Mram) (c : Nat) : Option PulseNos := (twinAt pulseBytes {} m.ledger c).read pulseBytes
def Mram.backlogOf (m : Mram) (n : Nat) : Option Nat := (twinAt backlogBytes 0 m.backlog n).read backlogBytes

/-- The ledger entry of a circuit: the later of the two lanes' numbers, from each lane's valid copy; the section's numbers when neither
lane has one (step 3 of Table 08-7). -/
def State.ledgerEntry (s : State) (c : Nat) (sec : Circuit) : PulseNos :=
  match s.a.mram.pulsesOf c, s.b.mram.pulsesOf c with
  | some p, some q => ⟨laterWord p.impIssued q.impIssued, laterWord p.impReleased q.impReleased,
                       laterWord p.expIssued q.expIssued, laterWord p.expReleased q.expReleased⟩
  | some p, none => p
  | none, some q => q
  | none, none => ⟨sec.impIssued, sec.impIssued, sec.expIssued, sec.expIssued⟩

/-- BACKLOG of an output as the ledger keeps it; with no valid copy in either lane the spec states no value. -/
def State.backlogEntry (s : State) (n : Nat) : Nat :=
  match s.a.mram.backlogOf n, s.b.mram.backlogOf n with
  | some p, some q => (laterWord (w32 p) (w32 q)).toNat
  | some p, none => p
  | none, some q => q
  | none, none => (Config.lostBacklog n).toNat

/-- An entry has no valid copy in either lane: class N is recorded (step 3 of Table 08-7, Table 14-1). -/
def State.ledgerLost (s : State) : Bool :=
  (List.range s.pkg.order.circuits).any (fun c => (s.a.mram.pulsesOf c).isNone && (s.b.mram.pulsesOf c).isNone) ||
  (List.range s.pkg.order.pulses).any (fun n => (s.a.mram.backlogOf n).isNone && (s.b.mram.backlogOf n).isNone)

/-- One circuit's numbers and accumulators (steps 3 and 4 of Table 08-7). -/
def Circuit.restored (k : Circuit) (o : Order) (sec : Circuit) (e : PulseNos) : Circuit :=
  let imp0 := o = .m96 && serialBefore sec.impIssued e.impIssued
  let exp0 := o = .m96 && serialBefore sec.expIssued e.expIssued
  { k with
    acc := if imp0 then 0 else sec.acc, frac := if imp0 then 0 else sec.frac
    exp := if exp0 then 0 else sec.exp, expFrac := if exp0 then 0 else sec.expFrac
    wrap := sec.wrap, unmeasured := sec.unmeasured
    impIssued := e.impIssued, impReleased := e.impReleased, expIssued := e.expIssued, expReleased := e.expReleased }

/-- The loss of a circuit (R319): |P| in 10 mW, bound in µWh or unknown, import set to 0, export set to 0, P negative. -/
def lossOf (o : Order) (known : Option Nat) (k sec : Circuit) (c : Nat) (e : PulseNos) :
    Nat × Option Nat × Bool × Bool × Bool :=
  let p := sec.quant.p.natAbs
  let bound := if circEn k.cfg then known.map (fun dt => (dt * p + 359) / 360) else some (Config.lossOpen (2 + c))
  (p, bound, o = .m96 && serialBefore sec.impIssued e.impIssued, o = .m96 && serialBefore sec.expIssued e.expIssued,
   decide (sec.quant.p < 0))

/-- Pulses numbered after RELEASED, up to and including ISSUED, are entered again (step 5 of Table 08-7). -/
def Lane.reenterPulses (x : Lane) (l : LaneId) (c code : Nat) (released issued : Word) : Lane :=
  (List.range (issued - released).toNat).foldl (fun (y : Lane) i => y.meterEvent l 0 c code (released + w32 (i + 1))) x

/-- Metering is restored in a lane (steps 2 to 6 of Table 08-7). -/
def State.restoreMeter (v : State) (l : LaneId) (x : Lane) (now : Nat) : Lane :=
  let o := v.pkg.order
  let d := v.pkg.dom
  let q := v.startSection
  let secOf := fun (c : Nat) => match q.1 with | some m => tget {} m.circuits c | none => {}
  let gap : Option Nat := match d.stamp, q.1 with | some t, some m => some (t - m.timeMs) | _, _ => none
  let known : Option Nat := match q.1 with | some m => if m.valid then gap else none | none => none
  let first := (now + 9999999) / 10000000 * 10000000
  let unmetered := match d.stamp with
    | some t => d.cal.ms + (first - now) / 100000 - t
    | none => Config.lossOpen 1
  let x1 := x.onNrg (fun b => { b with
    lossFinal := q.2, lossDt := gap.getD (Config.lossOpen 0), unmeteredMs := unmetered, stampMs := d.stamp
    loss := (List.range o.circuits).map (fun c =>
      (c, lossOf o known (tget {} b.circuits c) (secOf c) c (v.ledgerEntry c (secOf c)))) })
  let x2 := (List.range o.circuits).foldl (fun (y : Lane) c =>
    (y.onCircuit c (fun k => k.restored o (secOf c) (v.ledgerEntry c (secOf c)))).writeLedger c)
    (if v.ledgerLost then x1.setBit l 2088 false else x1)
  let x3 := (List.range o.pulses).foldl (fun (y : Lane) n =>
    let b := v.backlogEntry n
    (y.onPulse n (fun k => { k with backlog := b, saturated := decide (b = backlogMax) })).writeBacklog n) x2
  let x4 := (List.range o.circuits).foldl (fun (y : Lane) c =>
    let k := y.circuit c
    (y.reenterPulses l c 0x01 k.impReleased k.impIssued).reenterPulses l c 0x02 k.expReleased k.expIssued) x3
  x4.onNrg (fun b => { b with history := [(now / 10000000, b.circuits)] })

/-- Sequence reservations of a lane, the later of the two lanes' values (R340, R506). -/
def State.reservedSeqs (s : State) (p : Nat) : SeqRes :=
  let a := (s.a.mram.seqsOf p).getD {}
  let b := (s.b.mram.seqsOf p).getD {}
  ⟨max a.high b.high, max a.event b.event, max a.bulk b.bulk⟩

/-- H takes the reserved value and its whole window counts as used; event and bulk-out counters take theirs (R340). -/
def Lane.restoreSeqs (x : Lane) (p : Nat) (r : SeqRes) : Lane :=
  if r = {} then x
  else x.onSender p (fun q => { q with
    high := w32 r.high, marked := (List.range 64).map (fun i => r.high - 63 + i),
    eventSeq := w32 (max 1 r.event), bulkSeq := w32 (max 1 r.bulk) })

/-- The recorder at start: the final area's tail as its oldest records, the next sequence number, and one start record (R506,
R513). -/
def State.restoreRecorder (v : State) (x : Lane) : Lane :=
  let f := v.finalSave
  let tail := match f with | some q => q.tail | none => []
  let frozen := match f with | some q => q.frozen | none => false
  let lost := match f with | some q => if q.frozen then q.frozenLost else 0 | none => 0
  let newest := match tail.getLast? with | some r => r.seq | none => 0
  let payload := beBytes 8 newest ++ beBytes 1 (b2n f.isSome + 2 * b2n frozen + 4 * b2n v.pkg.timeLostAtStart) ++ zeros 3 ++
    beBytes 4 lost
  x.onRec (fun _ => RecBlk.write { records := tail, next := max (v.a.mram.recordNext.getD 1) (v.b.mram.recordNext.getD 1) } Config.startPick 0 0 true 0x12
    payload)

/-- Save numbers go on from the highest that either MRAM holds (R120). -/
def State.restoreSaves (v : State) (l : LaneId) (x : Lane) : Lane :=
  let no := fun (o : Option Save) => match o with | some q => q.number | none => 0
  let top := fun (m : Mram) => max (no m.area0) (max (no m.area1) (no m.final))
  let y := x.onMan (fun m => { m with
    saveNumber := max (top v.a.mram) (top v.b.mram), newestPeriodic := no v.newestSave
    newestFinal := max (no v.a.mram.completeFinal) (no v.b.mram.completeFinal) })
  let differ := match v.a.mram.newest, v.b.mram.newest with
    | some p, some q => p.number = q.number && p ≠ q
    | _, _ => false
  if differ then y.setBit l 2076 false else y

/-! ### Partitions (steps 7 and 9 of Table 17-4) -/

/-- Images that pass their check fill a partition's slots (R167), its held region and grant come from the save (R160, Table
04-9). -/
def State.restorePart (v : State) (l : LaneId) (x : Lane) (p : Nat) : Lane :=
  let good := fun (i : Option StoredImage) => match i with | some q => if q.checks then some q.image else none | none => none
  let bad := fun (i : Option StoredImage) => match i with | some q => !q.checks | none => false
  let run := x.flash.running.lookup p
  let ld := x.flash.loaded.lookup p
  let r := v.restoredPart p
  let y := if bad run || bad ld then x.setBit l 2077 false else x
  y.onPart p (fun q => { q with
    current := good run, loaded := good ld, boot := r
    grant := match r with | some c => c.desc.grant | none => 0
    shared := match r with | some c => c.held.map (fun e => (e.1 + heldBase, e.2)) | none => [] })

/-- The images of a partition extend its measurement entry, the running one first (Table 16-5). -/
def Lane.measurePart (x : Lane) (p : Nat) : Lane :=
  let q := x.part p
  (q.current.toList ++ q.loaded.toList).foldl (fun (y : Lane) i => y.extend (4 + p / 4) (imageInput p i)) x

/-- A partition at start (R163, R165, R167): in its configured mode; with TIME_LOST only warm, with a save and without
REQUIRES_TIME, else it waits for the time; without cores it is stopped (R129). One that holds only a loaded image, never started,
stays in NO_PROGRAM, with TIME_LOST too: the spec does not name its state (DESIGN CHOICE, log entry 123). -/
def Lane.startupPart (x : Lane) (l : LaneId) (timeLost : Bool) (p : Nat) : Lane :=
  let q := x.part p
  match q.current with
  | none => x
  | some i =>
    if timeLost && !(i.warm && !i.requiresTime && q.boot.isSome) then x.onPart p (fun k => { k with state := .waitTime })
    else if q.grant = 0 then x.onPart p (fun k => { k with state := .stopped })
    else x.startPart l p ⟨0, 0, 1⟩ q.boot

/-- The life-cycle states in which control functions run (Table 16-6). -/
def controlRuns (c : LifeCycle) : Bool := c = .maker || c = .issued || c = .sealed

/-- Ports, buses and engines are enabled (step 8): the loop engine, and the metering engine where circuits are fitted. -/
def Lane.enableEngines (x : Lane) (o : Order) (runs : Bool) (now : Nat) : Lane :=
  let y := x.onNet (fun b => { b with
    ctl := 3
    port0 := { b.port0 with en := true, pair := b.estate }
    port1 := { b.port1 with en := true, pair := b.floor }
    supNext := (now / (2 * secBeats) + 1) * (2 * secBeats) })
  let z := y.onCan (fun b => { b with bus := b.bus.map (fun e => (e.1, if busEn e.2.ctl then { e.2 with state := 0 } else e.2)) })
  (((z.onLoopBlk (fun b => { b with en := runs })).onNrg (fun b => { b with en := runs && o ≠ .m00 })).onMan
    (fun m => { m with saveAt := some x.blk.pick.opened, lastSave := now }))

/-- Step 6: each front-end die takes its region's committed configuration into both planes; its converters start, and enabled
outputs drive their safe values. In VOID and WAFER every terminal stays off. -/
def State.startFrontEnds (s : State) (l : LaneId) : State :=
  if s.pkg.life = .void || s.pkg.life = .wafer then s
  else (List.range 8).foldl (fun (t : State) r =>
    (t.onFe r (fun f => if f.running then f
      else { f with running := true, image := (s.lane l).blk.hed.image.lookup r }.startComparators)).literalsMoved r) s

/-- STARTUP_FRONT_ENDS: steps 6 to 9 of Table 17-4 in a lane. -/
def State.startupFrontEnds (s : State) (l : LaneId) : State :=
  let x := s.lane l
  if !x.inService || !x.configured || x.started then s
  else
    let now := s.pkg.beat
    let v := s.startView l
    let runs := controlRuns s.pkg.life
    let x1 := (List.range 16).foldl (fun (y : Lane) p => v.restorePart l y p) (v.restoreSaves l x)
    let x2 := (List.range 16).foldl Lane.measurePart (v.restoreMeter l x1 now)
    let x3 := (List.range 16).foldl (fun (y : Lane) p => y.restoreSeqs p (v.reservedSeqs p)) (v.restoreRecorder x2)
    let x4 := x3.enableEngines s.pkg.order runs now
    let x5 := if runs then (List.range 16).foldl (fun (y : Lane) p => y.startupPart l s.pkg.timeLostAtStart p) x4 else x4
    (s.setLane l (({ x5 with started := true }).onPwr (fun p =>
      { p with startMs := w32 ((now - s.pkg.resetBeat) / 100000) }))).startFrontEnds l

/-! ### Core supply (R555, R556) -/

/-- The lane manager's step of its core supply: up when an occurrence of the last second asks for it, down after 10 s with none
that forbids it and 60 s without a margin alarm; never below the floor. A pin holds the supply (Table 17-5). -/
def PwrBlk.step (p : PwrBlk) (start now : Nat) : PwrBlk :=
  let within := fun (b : Option Nat) (n : Nat) => match b with | some t => decide (now < t + n) | none => false
  let up := within p.hotBeat 100000000
  let down := !within p.warmBeat 1000000000 && decide (start + 1000000000 ≤ now) && !within p.marginBeat 6000000000
  let v := if up then min 900 (p.core + 10) else if down then max (max 600 p.floor) (p.core - 10) else p.core
  if p.pinEn || v = p.core then { p with stepBeat := now }
  else { p with core := v, coreSteps := p.coreSteps + 1, stepBeat := now }

/-- CORE_SUPPLY_STEP: at most one step per second. -/
def State.coreSupplyStep (s : State) (l : LaneId) : State :=
  let x := s.lane l
  if x.started && x.releases && x.blk.pwr.stepBeat + 100000000 ≤ s.pkg.beat then
    s.onLane l (fun y => y.onPwr (fun p => p.step s.pkg.resetBeat s.pkg.beat))
  else s

/-- LANE_SUPPLY_FAULT: a lane's core or I/O supply is out of its range (R482, bit 179). -/
def State.laneSupplyFault (s : State) (l : LaneId) : State :=
  (s.onLane l (fun x => { x with supplyFault := true })).raise l 179 true

/-! ### Rows -/

def execCoreSupplyStep (l : LaneId) (beat : Nat) (s : State) : Host.Outcome State Fault Refusal :=
  .next ((s.at_ beat).coreSupplyStep l)

def execSupplyWarning (beat : Nat) (s : State) : Host.Outcome State Fault Refusal := .next (s.at_ beat).supplyWarning

def execFinalSaveDone (l : LaneId) (beat : Nat) (s : State) : Host.Outcome State Fault Refusal :=
  .next ((s.at_ beat).finalSaveDone l)

def execWarningCleared (beat : Nat) (s : State) : Host.Outcome State Fault Refusal := .next (s.at_ beat).warningCleared

def execVrstReset (s : State) : Host.Outcome State Fault Refusal := .next s.vrstReset

/-- RESET_RELEASE: the count begins at 0, whatever the operand (R245); a well-formed row carries 0. -/
def execResetRelease (_beat : Nat) (s : State) : Host.Outcome State Fault Refusal := .next s.resetRelease

def execBootComplete (l : LaneId) (slotVerified : Bool) (version : Nat) (stages : List (List Byte)) (s : State) :
    Host.Outcome State Fault Refusal := .next (s.bootComplete l slotVerified version stages)

def execStartupSelfTest (l : LaneId) (passed : Bool) (beat : Nat) (s : State) : Host.Outcome State Fault Refusal :=
  .next ((s.at_ beat).startupSelfTest l passed)

def execLaneAnnouncement (l : LaneId) (beat : Nat) (s : State) : Host.Outcome State Fault Refusal :=
  .next ((s.at_ beat).laneAnnouncement l)

def execPairingTimeout (l : LaneId) (beat : Nat) (s : State) : Host.Outcome State Fault Refusal :=
  .next ((s.at_ beat).pairingTimeout l)

def execStartupConfiguration (l : LaneId) (s : State) : Host.Outcome State Fault Refusal := .next (s.startupConfiguration l)

def execStartupFrontEnds (l : LaneId) (beat : Nat) (s : State) : Host.Outcome State Fault Refusal :=
  .next ((s.at_ beat).startupFrontEnds l)

def execLaneSupplyFault (l : LaneId) (beat : Nat) (s : State) : Host.Outcome State Fault Refusal :=
  .next ((s.at_ beat).laneSupplyFault l)

def execFlashWriteComplete (l : LaneId) (beat : Nat) (s : State) : Host.Outcome State Fault Refusal :=
  .next ((s.at_ beat).flashWriteComplete l)

end Sys2Proof.Machine
end

