-- ==== Sys2Proof/Machine/Views.lean ====
section
/-! DEFINITION. What the registers of the sixteen blocks read (R9, R79, R82, R446 and the block and field tables), and the
words that a mailbox captures. One function per block gives its arrays of registers; a reserved offset is in none of them. -/

namespace Sys2Proof.Machine

/-- An array of registers: byte offset of the first, number of words, and value by index. -/
abbrev RegArray := Nat × Nat × (Nat → Word)

/-- The index of a word offset in an array of `n` registers from `base`. -/
def regIndex (off base n : Nat) : Option Nat := if base ≤ off && off < base + 4 * n then some ((off - base) / 4) else none

/-- The value of the register at an offset; none at a reserved one. -/
def readArrays (off : Nat) : List RegArray → Option Word
  | [] => none
  | a :: r => match regIndex off a.1 a.2.1 with | some i => some (a.2.2 i) | none => readArrays off r

/-- One register. -/
def oneReg (off : Nat) (w : Word) : RegArray := (off, 1, fun _ => w)

/-- A lane that holds a snapshot's blocks. -/
def Snap.lane (v : Snap) : Lane := { blk := v.blk }

/-- A bit for each of `n` indices. -/
def indexMask (n : Nat) (p : Nat → Bool) : Nat := ((List.range n).map (fun i => if p i then 2 ^ i else 0)).sum

/-- SYS (Table 12-8), but for SYS_CORE and the mailbox. -/
def Snap.sysRegs (v : Snap) : List RegArray := [(0, 4, fun i => v.sys.getD i 0), oneReg 0x14 (v.sys.getD 4 0)]

/-- PICK (Table 02-4), but for PICK_TICKET. -/
def Snap.pickRegs (v : Snap) : List RegArray :=
  let b := v.blk.pick
  [oneReg 0 0, oneReg 8 b.opened, oneReg 0xC b.released, oneReg 0x10 (v.shown.getD 0 0), oneReg 0x14 b.latMax,
   oneReg 0x18 b.coalesced, oneReg 0x1C b.dup, oneReg 0x20 b.held, oneReg 0x24 b.solo]

/-- PNT_REGION_STAT (Table 06-14): from the causes present; SAFE while a class S bit of the region is set or the module is
halted. -/
def Snap.regionStat (v : Snap) (r : Nat) : Word :=
  let has := fun (k : Nat) => v.lane.hasCause (bitRegion r k)
  let safe := v.halted || (List.range 7).any (fun k => v.lane.hasBit (bitRegion r k))
  w32 (b2n safe + 4 * b2n (has 1) + 8 * b2n (has 2) + 16 * b2n (has 7 || has 3) + 32 * b2n (has 4) + 64 * b2n (has 5))

/-- PNT (Table 06-13). -/
def Snap.pntRegs (v : Snap) : List RegArray :=
  let x := v.lane
  let b := v.blk.pnt
  [(0, 64, fun c => w32 ((b.pendingOwner.lookup c).getD (tget 0 b.owner c))),
   (0x100, 8, fun r => w32 ((b.pendingScan.lookup r).getD (x.scanDiv r))),
   (0x120, 8, v.regionStat),
   (0x140, 8, fun r => w32 (x.newestFrame r).number),
   oneReg 0x160 b.testRuns, oneReg 0x164 b.testFails, oneReg 0x168 b.wres,
   (0x1000, 512, fun p => (x.unitWritten p).1),
   (0x2000, 512, fun p => (x.unitWritten p).2.1),
   (0x3000, 512, fun p => (x.unitWritten p).2.2),
   (0x4000, 512, fun p => (tget {} (x.newestFrame (p / 64)).units (p % 64)).stat)]

/-- HED (Table 06-15), but for the mailbox and its words. -/
def Snap.hedRegs (v : Snap) : List RegArray :=
  let b := v.blk.hed
  [oneReg 0 (w32 (indexMask 8 (fun r => (b.image.lookup r).isSome) + 256 * indexMask 8 (fun r => b.staged.contains r) +
     65536 * indexMask 8 (fun r => v.lane.committing r))),
   oneReg 4 b.commits, oneReg 8 b.checks, oneReg 0xC b.xmsg,
   (0x40, 8, fun r => tget 0 b.crc r),
   (0x60, 8, fun r => if b.staged.contains r then stagingCrc (v.lane.staging r) else 0)]

/-- Pattern samples that no loop's record holds (Table 07-7). -/
def LoopBlk.patFree (b : LoopBlk) : Nat := 1048576 - (b.loops.map (fun e => e.2.patLen)).sum

/-- LOOP (Table 07-6), but for the mailbox and its words. -/
def Snap.loopRegs (v : Snap) : List RegArray :=
  let x := v.lane
  let b := v.blk.loop
  [oneReg 0 (w32 (b2n b.en)), oneReg 4 (w32 (b2n (b.en && !v.halted) + 2 * b2n v.saving)), oneReg 8 b.wres,
   oneReg 0xC (w32 b.patFree),
   (0x20, 8, fun g => w32 (b2n (x.group g).en + 2 * b2n (x.group g).pinDelay + 65536 * (x.group g).phase)),
   (0x40, 8, fun g => w32 (x.group g).period),
   (0x60, 8, fun g => w32 (b2n (x.group g).delayed + 256 * (x.group g).onTime)),
   (0x80, 8, fun g => (x.group g).fallbacks),
   (0xA0, 8, fun g => w32 (twos 32 ((x.group g).slack v.beat))),
   (0x1000, 256, fun n => (x.loop n).cmd), (0x1400, 256, fun n => (x.loop n).sp), (0x1800, 256, fun n => (x.loop n).man),
   (0x1C00, 256, fun n => w32 (twos 16 (x.loop n).out)),
   (0x2000, 256, fun n => w32 (twos 16 (x.loop n).fbv)),
   (0x2400, 256, fun n => w32 (twos 16 (x.loop n).res)),
   (0x2800, 256, fun n => (x.loop n).lstat),
   (0x2C00, 256, fun n => w32 ((x.loop n).active % 2 + 2 * b2n (x.loop n).pending + 65536 * (x.loop n).gen.toNat)),
   (0x3000, 256, fun n => w32 (x.loop n).owner),
   (0x4000, 4096, fun i => (x.loop (i / 16)).recWords.getD (i % 16) 0)]

/-- NRG (Table 08-10), but for the mailbox and its words: what was last written, in force or not (R446). An M00 has no
metering (Table 00-1). -/
def Snap.nrgRegs (v : Snap) : List RegArray :=
  let x := v.lane
  let y := x.nrgWritten .a
  let b := v.blk.nrg
  let fitted := fun (w : Word) => if v.order = .m00 then 0 else w
  let regs : List RegArray :=
    [oneReg 0 (w32 (b2n y.blk.nrg.en)), oneReg 4 (w32 (b2n (b.en && !v.halted))), oneReg 8 b.wres, oneReg 0xC (w32 b.window),
     oneReg 0x10 b.mismatch,
     (0x100, 12, fun n => (y.minput 1 n).fs), (0x140, 12, fun n => (y.minput 1 n).trim),
     (0x180, 12, fun n => let m := x.minput 1 n; w32 (b2n m.stuck + 2 * b2n m.clip + 4 * b2n m.freqRange)),
     (0x200, 96, fun n => (y.minput 2 n).fs), (0x400, 96, fun n => (y.minput 2 n).trim),
     (0x600, 96, fun n => let m := x.minput 2 n; w32 (b2n m.stuck + 2 * b2n m.clip)),
     (0x1000, 96, fun c => (y.circuit c).cfg), (0x1200, 96, fun c => (y.circuit c).noload),
     (0x1400, 96, fun c => w32 ((b.pendingOwner.lookup c).getD (x.circuit c).owner)),
     (0x1600, 96, fun c => w32 (y.circuit c).weight), (0x1800, 96, fun c => w32 ((y.circuit c).weight / 2 ^ 32)),
     (0x1A00, 96, fun c =>
       let k := x.circuit c
       w32 (b2n k.computing + 2 * b2n k.isNoload + 4 * b2n k.inputFault + 8 * b2n (x.minput 1 (circVin k.cfg)).freqRange +
         16 * b2n k.wrap)),
     (0x1C00, 24, fun n => (y.pulse n).cfg), (0x1C80, 24, fun n => w32 (x.pulse n).backlog),
     (0x1D00, 24, fun n => w32 (b2n (x.pulse n).on + 2 * b2n (x.pulse n).saturated))]
  regs.map (fun a => (a.1, a.2.1, fun i => fitted (a.2.2 i)))

/-- The sixteen counters of a port (Table 10-5). -/
def PortSt.counters (p : PortSt) : List Word :=
  [p.rxFrames, p.rxFcsErr, p.rxSizeErr, p.rxFilterDrop, p.rxHdrDrop, p.rxRingDrop, p.rxSkelkanDrop, p.rxPause,
   p.rxSupervision, p.txFrames, p.txUnderrun, p.txAgedDrop, p.txLinkDrop, p.txPause, p.prpEvict, p.speedChanges]

/-- The configuration of a pair, as last written. -/
def NetBlk.pair (b : NetBlk) (n : Nat) : PairCfg := if n = 0 then b.estate else b.floor

/-- NET (Table 10-5). -/
def Snap.netRegs (v : Snap) : List RegArray :=
  let x := v.lane
  let b := v.blk.net
  let seq := fun (n : Nat) => if n = 0 then b.prpSeq0 else b.prpSeq1
  let ipid := fun (n : Nat) => if n = 0 then b.ipId0 else b.ipId1
  [oneReg 0 b.ctl, (8, 2, fun n => w32 (seq n).toNat), (0x10, 2, fun n => w32 (ipid n).toNat),
   (0x20, 2, fun n => w32 (b.pair n).mac.toNat), (0x28, 2, fun n => w32 ((b.pair n).mac.toNat / 2 ^ 32)),
   (0x30, 2, fun n => (b.pair n).vlan), (0x38, 2, fun n => (b.pair n).ipv4),
   (0x40, 8, fun i => w32 ((b.pair (i / 4)).ipv6.toNat / 2 ^ (32 * (3 - i % 4)))),
   (0x60, 2, fun n => w32 ((b.pair n).prefixLen + 256 * (b.pair n).speed)),
   (0x70, 2, fun n => (x.port n).pendingCtl.getD (x.port n).ctl),
   (0x78, 2, fun n => v.ports.getD n 0), (0x80, 2, fun n => v.ports.getD (2 + n) 0), (0x90, 2, fun n => v.ports.getD (4 + n) 0),
   (0x400, 32, fun i => tget 0 b.filtVlan i), (0x480, 32, fun i => tget 0 b.filtAct i),
   (0x500, 32, fun i => tget 0 b.filtVlan (32 + i)), (0x580, 32, fun i => tget 0 b.filtAct (32 + i)),
   (0x800, 16, fun i => (x.port 0).counters.getD i 0), (0x840, 16, fun i => (x.port 1).counters.getD i 0)]

/-- The registers of one bus (Table 11-7), from its offset. -/
def BusSt.regs (b : BusSt) (base : Nat) : List RegArray :=
  [oneReg base b.ctl, oneReg (base + 4) b.nbt, oneReg (base + 8) b.dbt, oneReg (base + 0xC) b.tdc,
   oneReg (base + 0x10) (w32 (b.state + 8 * b2n b.recovering + 16 * b2n b.stuck)),
   oneReg (base + 0x14) (w32 (b.tec + 65536 * b.recCnt)), oneReg (base + 0x18) (w32 b.seq.toNat),
   (base + 0x20, 10, fun i => [b.rxFrames, b.rxNoMatch, b.rxFifoDrop, b.rxOverwrite, b.txFrames, b.txBad, b.txQfullDrop,
     b.txAgedDrop, b.txOffDrop, b.busoff].getD i 0)]


/-- CAN (Table 11-7). -/
def Snap.canRegs (v : Snap) : List RegArray :=
  let rx := fun (i : Nat) => tget {} (v.lane.bus (i / 64)).rx (i % 64)
  let tx := fun (i : Nat) => tget {} (v.lane.bus (i / 16)).tx (i % 16)
  [oneReg 0 (canTime v.beat), oneReg 4 v.blk.can.wres] ++
  (List.range 8).flatMap (fun n => (v.lane.bus n).regs (0x100 + 0x100 * n)) ++
  [(0x1000, 512, fun i => (rx i).id), (0x1800, 512, fun i => (rx i).mask),
   (0x2000, 128, fun i => (tx i).id), (0x2200, 128, fun i => (tx i).mask),
   (0x2400, 512, fun i => w32 (b2n (rx i).content.isSome + 2 * b2n (rx i).locked + 4 * b2n (rx i).shadow.isSome)),
   (0x2C00, 128, fun i => w32 (b2n (tx i).content.isSome))]

/-- RTC (Table 13-3), but for the mailbox and its words. -/
def Snap.rtcRegs (v : Snap) : List RegArray :=
  let d := v.dom
  let alm := fun (n : Nat) => tget {} d.alarms n
  [oneReg 0 d.statWord, oneReg 4 (v.rtc.getD 0 0), oneReg 8 (v.rtc.getD 1 0), oneReg 0x30 (v.rtc.getD 2 0),
   oneReg 0x34 (v.rtc.getD 3 0), oneReg 0x40 0, oneReg 0x44 (w32 (twos 10 d.trim)), oneReg 0x48 d.chg,
   (0x50, 4, fun n => w32 (alm n).minute), (0x60, 4, fun n => w32 ((alm n).rep + 2 ^ 31 * b2n (alm n).en))]

/-- FLT (Table 14-12). -/
def Snap.fltRegs (v : Snap) : List RegArray :=
  let f := v.blk.flt
  [oneReg 0 (w32 (v.lane.highest + 16 * b2n f.halted + 32 * b2n f.dupOk)), oneReg 4 (w32 (b2n (f.pendingNev.getD f.nevEn))),
   oneReg 8 0, oneReg 0xC f.nCount, oneReg 0x10 f.lCount, oneReg 0x14 f.sCount, oneReg 0x18 f.corrCount,
   oneReg 0x1C f.scrubMax, oneReg 0x20 f.tokenMax, (0x100, 128, bitsWord f.sticky), (0x400, 128, bitsWord f.cause)]

/-- REC (Table 15-6), but for the mailbox, its cursor and its words. -/
def Snap.recRegs (v : Snap) : List RegArray :=
  let r := v.blk.recd
  [oneReg 0 (w32 (b2n r.frozen + 2 * b2n r.autoThawed)), oneReg 4 (w32 (b2n (r.pendingFreeze.getD r.frozen))), oneReg 8 r.wres,
   oneReg 0xC (w32 r.frozenLost), oneReg 0x10 r.gaps]

/-- KEY (Table 16-10), but for the mailboxes and their words. -/
def Snap.keyRegs (v : Snap) : List RegArray :=
  let k := v.blk.key
  let occupied := fun (n : Nat) => (tget {} k.slots n).key.isSome
  [oneReg 0 (v.shown.getD 5 0), oneReg 4 k.wres, oneReg 8 v.dom.kekGen, oneReg 0xC (w32 (b2n (k.pendingEncl.getD k.enclEn))),
   oneReg 0x10 v.dom.tamperSrc, oneReg 0x14 (w32 (indexMask 32 occupied)),
   oneReg 0x18 (w32 (indexMask 32 (fun n => occupied (32 + n)))), oneReg 0x1C k.loads, oneReg 0x20 k.authFails,
   oneReg 0x24 k.remasks]

/-- PWR (Table 17-6). PWR_VBUS is the sample of the millisecond that the values belong to, a free value (assumption 122). -/
def Snap.pwrRegs (v : Snap) : List RegArray :=
  let p := v.blk.pwr
  let pin := p.pendingPin.getD (p.pinEn, p.pinMv)
  [oneReg 0 (w32 (b2n p.sup0Ok + 2 * b2n p.sup1Ok + 4 * b2n p.warn + 8 * b2n p.saving + 16 * b2n p.finalDone +
     32 * b2n p.firstSaveDone)),
   oneReg 4 p.wres, oneReg 8 (w32 (p.pendingVwarn.getD p.vwarn)), oneReg 0xC (w32 (Config.vbusMv (v.beat / 100000)).toNat),
   oneReg 0x10 (w32 (p.core + 65536 * p.floor)), oneReg 0x14 (w32 (pin.2 + 2 ^ 31 * b2n pin.1)),
   oneReg 0x18 (w32 p.resetCause), oneReg 0x1C p.lastSaveUs, oneReg 0x20 p.startMs, oneReg 0x24 p.warns,
   oneReg 0x28 p.finalSaves, oneReg 0x2C p.finalSkipped, oneReg 0x30 p.coreSteps, oneReg 0x34 (w32 p.savePeriod)]

/-- LANE (Table 03-9), but for the mailbox and its words. -/
def Snap.laneRegs (v : Snap) : List RegArray :=
  let b := v.blk.lane
  let pref := b.pendingPrefer.getD (b.prefer, b.holdoff)
  [oneReg 0 (v.sys.getD 4 0 &&& 1#32), oneReg 4 (v.shown.getD 1 0), oneReg 8 (w32 pref.1), oneReg 0xC (w32 pref.2),
   oneReg 0x10 (w32 b.holdElapsed), oneReg 0x14 (v.shown.getD 2 0), oneReg 0x18 (v.shown.getD 3 0),
   (0x1C, 7, fun i => [b.imgMismatch, b.imgUnresolved, b.outDisagree, b.digestMismatch, b.switchovers, b.takebacks,
     b.rejoinFails].getD i 0),
   oneReg 0x38 b.lastCause, oneReg 0x48 (v.shown.getD 4 0)]

/-- The rings whose entries the lane manager and the cores handle; the others are hardware queues (Table 12-5). -/
def softRing (r : Nat) : Bool := r < 48 || r = 61 || r = 63

/-- RING (Table 12-10). -/
def Snap.ringRegs (v : Snap) : List RegArray :=
  (List.range 64).flatMap (fun r =>
    let g := v.lane.ring r
    let free := v.free.getD r 0
    let largest := min 255 (slotsOf (ringLargest r))
    let empty := if softRing r then g.visible = 0 else g.posted = g.taken
    let word := fun (i : Nat) => [w32 (ringSlots r % 65536 + 65536 * largest), w32 free, g.posted - g.taken,
      w32 (b2n (decide empty) + 2 * b2n (decide (free < largest)) + 4 * b2n g.dropping), g.posted, g.taken, g.drop, 0].getD i 0
    [(0x40 * r, 8, word)])

/-- The registers of block `b` of Table 01-7. -/
def Snap.regs (v : Snap) (b : Nat) : List RegArray :=
  match b with
  | 0 => v.sysRegs
  | 1 => v.pickRegs
  | 2 => v.pntRegs
  | 3 => v.hedRegs
  | 4 => v.loopRegs
  | 5 => v.nrgRegs
  | 6 => v.netRegs
  | 7 => v.canRegs
  | 8 => v.rtcRegs
  | 9 => v.fltRegs
  | 10 => v.recRegs
  | 11 => v.keyRegs
  | 12 => v.pwrRegs
  | 13 => v.laneRegs
  | 14 => v.ringRegs
  | _ => []

/-- The register at an offset of a block, where it is the same for every reader. -/
def Snap.word (v : Snap) (b off : Nat) : Option Word := readArrays off (v.regs b)

/-! ### Mailboxes (R441 to R444) -/

/-- A mailbox: block and offset of its request register, its selector bits, its data registers (offset and words). -/
structure MbxMap where
  blk : Nat
  req : Nat
  mask : Word
  data : List (Nat × Nat)
deriving DecidableEq, Repr

/-- Where the nine mailboxes lie (Tables 12-8, 03-9, 06-15, 07-6, 08-10, 13-3, 16-10, 15-6). -/
def mbxMap : MbxId → MbxMap
  | .sysWide => ⟨0, 0x18, 0x30#32, [(0x1C, 2)]⟩
  | .laneDigest => ⟨13, 0x3C, 0, [(0x40, 2)]⟩
  | .hedSnap => ⟨3, 0x10, 0x70#32, [(0x14, 6)]⟩
  | .loopBank => ⟨4, 0xC0, 0x1FF00#32, [(0x100, 32)]⟩
  | .nrgAcc => ⟨5, 0x14, 0x7F0300#32, [(0x20, 8)]⟩
  | .rtcTime => ⟨8, 0xC, 0, [(0x10, 5)]⟩
  | .keySlot => ⟨11, 0x30, 0x3F00#32, [(0x34, 4)]⟩
  | .keyMeas => ⟨11, 0x50, 0x1F00#32, [(0x60, 12)]⟩
  | .recWin => ⟨10, 0x28, 0, [(0x2C, 7), (0x400, 128)]⟩

/-- The mailboxes. -/
def allMbx : List MbxId := [.sysWide, .laneDigest, .hedSnap, .loopBank, .nrgAcc, .rtcTime, .keySlot, .keyMeas, .recWin]

/-- The mailbox whose request register lies at an offset of a block. -/
def mbxReqAt (b off : Nat) : Option MbxId := allMbx.find? (fun m => (mbxMap m).blk = b && (mbxMap m).req = off)

/-- The address of a mailbox's request register. -/
def mbxAddr (m : MbxId) : Nat := 0x40000000 + 65536 * (mbxMap m).blk + (mbxMap m).req

/-- Index of a data register among a mailbox's words: `base` words lie before it. -/
def dataIndex (off : Nat) : Nat → List (Nat × Nat) → Option Nat
  | _, [] => none
  | base, a :: r => match regIndex off a.1 a.2 with | some i => some (base + i) | none => dataIndex off (base + a.2) r

/-- The mailbox that has a data register at an offset of a block, and the index of the word. -/
def mbxDataAt (b off : Nat) : Option (MbxId × Nat) :=
  allMbx.findSome? (fun m => if (mbxMap m).blk = b then (dataIndex off 0 (mbxMap m).data).map (fun i => (m, i)) else none)

/-- A 64-bit value as two words, low word first. -/
def loHi (n : Nat) : List Word := [w32 n, w32 (n / 2 ^ 32)]

/-- The sizes of the fields that a record's payload consists of (Tables 09-17, 11-5, 15-2, 15-3, 15-5). -/
def payloadSizes (source kind : Nat) : List Nat :=
  match kind with
  | 0 => [4, 4, 8]
  | 1 => [2, 2, 4, 4, 4]
  | 2 => [4, 4, 2, 6]
  | 3 => [1, 1, 2, 6, 2, 2, 2]
  | 4 => [8, 4, 4]
  | 5 => [1, 1, 2, 4, 4, 4]
  | 6 => [1, 1, 1, 1, 4, 4, 4]
  | 7 => [1, 3, 8, 4]
  | 8 => [1, 1, 2, 1, 1, 2, 8]
  | 0x10 => [4, 4, 4, 4]
  | 0x11 =>
    (match source with
     | 1 => [1, 1, 2, 4, 4, 4]
     | 2 => [8, 4, 4]
     | 3 => [8, 8]
     | 4 => [2, 1, 5, 8]
     | 5 => [2, 1, 1, 12]
     | 6 => [1, 1, 2, 4, 8]
     | 7 => [1, 1, 2, 12]
     | _ => [1, 3, 4, 8])
  | 0x12 => [8, 1, 3, 4]
  | 0x13 => [4, 4, 4, 4]
  | _ => [8, 8]

/-- The bytes of byte-arrays, such as a MAC address, keep their order in either form. -/
def keepsOrder (kind size : Nat) : Bool := (kind = 2 || kind = 3) && size = 6

/-- Each field of a payload with its bytes reversed: from most to least significant byte first. -/
def payloadReversed (kind : Nat) : List Nat → List Byte → List Byte
  | [], bs => bs
  | n :: r, bs =>
    (if keepsOrder kind n then bs.take n else (bs.take n).reverse) ++ payloadReversed kind r (bs.drop n)

/-- A record as REC_WIN shows it (Table 15-1, little-endian). -/
def recordWords (q : RecRecord) : List Word :=
  let bs := leBytes 8 q.seq ++ leBytes 4 q.pick.toNat ++ leBytes 2 q.source ++
    leBytes 2 (q.part * 4096 + b2n q.all * 2048 + q.kind) ++
    payloadReversed q.kind (payloadSizes q.source q.kind) ((q.payload ++ zeros 16).take 16)
  (List.range 8).map (fun i => w32 (leAt bs (4 * i) 4))

/-- The words of REC_WIN_COUNT to REC_NEWEST_HI and REC_WIN for a reader and a start value (R512). -/
def RecBlk.capture (r : RecBlk) (reader : Option Nat) (start : Nat) : List Word :=
  let w := r.window reader start 16 r.newest
  let words := w.1.flatMap recordWords
  [w32 w.1.length] ++ loHi w.2 ++ loHi r.oldest ++ loHi r.newest ++ words ++ List.replicate (128 - words.length) 0

/-- The words that a mailbox captures for a partition's reader (none: lane manager and service port), selectors given (R442,
R444, Tables 08-12, 12-9, 16-11). -/
def Snap.capture (v : Snap) (m : MbxId) (reader : Option Nat) (sel selHi : Word) : List Word :=
  let x := v.lane
  match m with
  | .sysWide => loHi (match field sel 5 4 with | 0 => v.beat | 1 => v.serial.toNat | _ => 0)
  | .laneDigest => loHi v.blk.lane.digest.toNat
  | .hedSnap =>
    let h := v.hed.getD (field sel 6 4) (0, 0, 0)
    loHi h.1.toNat ++ loHi h.2.1.toNat ++ loHi h.2.2.toNat
  | .loopBank =>
    let o := x.loop (field sel 15 8)
    let b := if bitOf sel 16 then o.bank1 else o.bank0
    (List.range 32).map (fun i => b.getD i 0)
  | .nrgAcc =>
    let c := field sel 22 16
    if v.order.circuits ≤ c then List.replicate 8 0 else accWords v.order (field sel 9 8) (x.circuit c) v.blk.nrg.window
  | .rtcTime => v.dom.timeWords
  | .keySlot =>
    let s := tget {} v.blk.key.slots (field sel 13 8)
    (match s.key with
     | some (_, use, part, id, gen) => [w32 (2 ^ 31 + part % 16 * 256 + use % 256), id, s.loadGen, gen]
     | none => [0, 0, s.loadGen, 0])
  | .keyMeas =>
    let n := field sel 12 8
    let d := if n < 8 then x.measEntry n else if n < 24 then v.digests.getD (n - 8) (zeros 48) else zeros 48
    (List.range 12).map (fun i => w32 (beAt d (4 * i) 4))
  | .recWin => v.blk.recd.capture reader (sel.toNat + 2 ^ 32 * selHi.toNat)

/-- A request register as it reads: REQ 0, VALID, FROZEN for the calendar, and the selectors (Table 12-1). -/
def Mbx.word (b : Mbx) (m : MbxId) (core : Bool) : Word :=
  let valid := b.valid || (m = .rtcTime && core)
  (b.sel &&& (mbxMap m).mask) ||| w32 (2 * b2n valid + 4 * b2n b.frozen.isSome)

end Sys2Proof.Machine
end

