-- ==== Sys2Proof/Machine/Registers.lean ====
section
/-! DEFINITION. Reads and writes of the lanes' registers by the lane manager, the service port and the application cores:
access types (R433, R434), WRES (R440), mailboxes (R441 to R444), LIVE and HALT fields (R445 to R448), doorbells (R453), and
what each partition sees (R44, Table 01-7). -/

namespace Sys2Proof.Machine

/-- Base of block space, and the block and offset of an address. -/
def blockBase : Nat := 0x40000000
def blockOf_ (addr : Nat) : Nat := (addr - blockBase) / 65536
def offsetOf (addr : Nat) : Nat := (addr - blockBase) % 65536

/-- An address in block space (Table 01-6). -/
def inBlocks (addr : Nat) : Bool := blockBase ≤ addr && addr < blockBase + 15 * 65536

/-! ### The selvedge guard (R42, R151) -/

/-- A selvedge violation of a core: class N for its partition, with a recorder entry. `access` is 0 read, 1 write, 2 fetch. -/
def State.selvedge (s : State) (l : LaneId) (p c access addr : Nat) : State :=
  (s.flag l (bitSelvedge p) false).onLane l (fun x => x.detail 0x0006 p
    (beBytes 1 c ++ beBytes 1 access ++ zeros 2 ++ beBytes 4 addr ++ zeros 8))

/-- The partition of a core that is executing step 5 of its cycle in a lane. -/
def Lane.running (x : Lane) (c : Nat) : Option Nat :=
  if c < 16 && x.inService && decide ((x.core c).run = .running) then
    match x.corePart c with
    | some p => if (x.part p).phase = .run then some p else none
    | none => none
  else none

/-- The register values that a partition's cores see in their cycle (R82); the lane's own before its first joint start. -/
def State.coreSnap (s : State) (l : LaneId) (p : Nat) : Snap := ((s.lane l).part p).snap.getD (s.snapOf l)

/-- Loops of partition `p` in loop group `g`. -/
def Snap.groupSeen (v : Snap) (p g : Nat) : Bool := v.blk.loop.loops.any (fun e => e.2.owner = p && e.2.group = g)

/-- What a tenant sees of a register. -/
inductive Sight where
  | seen
  | zero
  | refused
deriving DecidableEq, Repr

/-- A tenant's view of the LOOP block: its loops, groups that hold one of its loops, the mailbox and its words; every other
register reads 0. -/
def Snap.loopSight (v : Snap) (p off : Nat) : Sight :=
  let own := fun (n : Nat) => if (v.lane.loop n).owner = p then Sight.seen else .zero
  if 0x20 ≤ off && off < 0xC0 then (if v.groupSeen p (off / 4 % 8) then .seen else .zero)
  else if 0x100 ≤ off && off < 0x180 then .zero
  else if 0x1000 ≤ off && off < 0x3400 then own ((off - 0x1000) / 4 % 256)
  else if 0x4000 ≤ off && off < 0x8000 then own ((off - 0x4000) / 64)
  else .zero

/-- A tenant's view of the PNT block (R241): the unit registers and owner entries of its clusters. -/
def Snap.pntSight (v : Snap) (p off : Nat) : Sight :=
  if off < 0x100 then (if tget 0 v.blk.pnt.owner (off / 4) = p then .seen else .refused)
  else if 0x1000 ≤ off && off < 0x5000 && off % 4096 < 0x800 then
    (if v.lane.pointOwner (off % 4096 / 4) = p then .seen else .refused)
  else if off < 0x16C then .refused
  else .zero

/-- A tenant's view of the NRG block (R321): registers of its circuits; input, pulse and engine registers read 0. -/
def Snap.nrgSight (v : Snap) (p off : Nat) : Sight :=
  if 0x1000 ≤ off && off < 0x1C00 && off % 0x200 < 0x180 then
    (if (v.lane.circuit (off % 0x200 / 4)).owner = p then .seen else .refused)
  else if off = 0x14 || (0x20 ≤ off && off < 0x40) then .seen
  else .zero

/-- What partition `p` sees of the register at an offset of block `b` (Table 01-7). -/
def Snap.sight (v : Snap) (p b off : Nat) : Sight :=
  if p = 0 then .seen
  else match b with
    | 0 => .seen
    | 1 => .seen
    | 2 => v.pntSight p off
    | 4 => v.loopSight p off
    | 5 => v.nrgSight p off
    | 10 => .seen
    | 14 => if off < 0x1000 && (off / 0x40 = p || off / 0x40 = 16 + p || off / 0x40 = 32 + p) then .seen else .refused
    | _ => .refused

/-! ### Reading -/

/-- SYS_CORE (Table 12-9). -/
def Lane.sysCore (x : Lane) (r : Reader) : Word :=
  match r with
  | .core c =>
    let p := (x.corePart c).getD 0
    w32 (c % 16 + 256 * p + 4096 * x.coreRank p c + 65536 * (((x.part p).coreList.length) - 1))
  | .manager => 0x80000000#32
  | .service => 0

/-- A register whose value depends on the reader: its identity, its ticket, or its instance of a mailbox. -/
def Lane.instanceWord (x : Lane) (r : Reader) (b off : Nat) : Option Word :=
  let core := match r with | .core _ => true | _ => false
  if b = 0 && off = 0x10 then some (x.sysCore r)
  else if b = 1 && off = 4 then some (match r with | .core c => (x.core c).ticket | _ => 0)
  else if b = 10 && off = 0x20 then some (x.mailbox .recWin r).sel
  else if b = 10 && off = 0x24 then some (x.mailbox .recWin r).selHi
  else match mbxReqAt b off with
    | some .recWin => some (w32 (2 * b2n (x.mailbox .recWin r).valid))
    | some m => some ((x.mailbox m r).word m core)
    | none => match mbxDataAt b off with
      | some (m, i) => some ((x.mailbox m r).data.getD i 0)
      | none => none

/-- The register at an offset of a block as a reader sees it; none at a reserved offset. -/
def Lane.register (x : Lane) (v : Snap) (r : Reader) (b off : Nat) : Option Word :=
  match x.instanceWord r b off with
  | some w => some w
  | none => v.word b off

/-- Block `b` is the NRG block of a TK512-M00, which reads as 0 and ignores writes without raising a fault (R4). -/
def Package.noMeter (p : Package) (b : Nat) : Bool := decide (p.order = .m00) && b = 5

/-- A read by the lane manager or the service port: live values of its own lane (R79, R82). -/
def State.readRegister (s : State) (l : LaneId) (r : Reader) (addr : Nat) : Word :=
  if s.pkg.noMeter (blockOf_ addr) then 0 else ((s.lane l).register (s.snapOf l) r (blockOf_ addr) (offsetOf addr)).getD 0

/-- PNT_UNIT_STAT of every point comes from the frame of the cycle's snapshot (R205); the calendar from READY (R465). -/
def State.coreOwnWord (s : State) (l : LaneId) (p b off : Nat) : Option Word :=
  let x := s.lane l
  if b = 2 && 0x4000 ≤ off && off < 0x4800 then some (tget 0 (x.part p).inStat ((off - 0x4000) / 4))
  else if b = 8 && 0x10 ≤ off && off < 0x24 then some ((s.coreSnap l p).dom.timeWords.getD ((off - 0x10) / 4) 0)
  else none

/-- A core's read of block space: the value, or none for a selvedge violation. Its own buffered writes come first (R147). -/
def State.coreBlockRead (s : State) (l : LaneId) (p c addr : Nat) : Option Word :=
  let x := s.lane l
  let b := blockOf_ addr
  let off := offsetOf addr
  let v := s.coreSnap l p
  if s.pkg.noMeter b then some 0
  else match v.sight p b off with
  | .refused => none
  | .zero => some 0
  | .seen =>
    match (x.core c).wbuf.lookup (addr / 4) with
    | some w => some w
    | none => match s.coreOwnWord l p b off with
      | some w => some w
      | none => some ((x.register v (.core c) b off).getD 0)

/-! ### Mailbox requests (R442 to R444) -/

/-- A write of a request register: the selectors are stored, and REQ = 1 starts a capture of `words` unless one is in progress.
A capture that is `ready` is complete at once. -/
def Mbx.request (q : Mbx) (m : MbxId) (v : Word) (words : Mbx → List Word) (ready : Bool) : Mbx :=
  let a : Mbx := if m = .recWin then q else { q with sel := v &&& (mbxMap m).mask }
  if !bitOf v 0 || q.capture.isSome then a
  else
    let f : Mbx := { a with valid := false, frozen := none }
    if ready then { f with valid := true, data := words f } else { f with capture := some (words f) }

/-- A request by the lane manager or the service port: the capture completes later (R32). A request to an island whose clock is
lost leaves VALID at 0 (R33). -/
def State.managerRequest (s : State) (l : LaneId) (r : Reader) (m : MbxId) (v : Word) : State :=
  let snap := s.snapOf l
  let words := fun (q : Mbx) => snap.capture m none q.sel q.selHi
  let lost := (m = .rtcTime && s.pkg.dom.t3Lost) || (m = .sysWide && field v 5 4 = 0 && (s.lane l).clockLost 5)
  let s1 := s.onLane l (fun x => x.onMbx m r (fun q =>
    let k := q.request m v words false
    if lost then { k with capture := none } else k))
  if r = .manager && (mbxMap m).mask ≠ 0 then s1.onLane l (fun x => x.setWres (mbxMap m).blk (mbxMap m).req 4) else s1

/-- A request by core `c` of partition `p`: the capture is complete at once (R444). A tenant that names a circuit it does not own
has its write dropped, with VALID 0 (R326). -/
def State.coreRequest (s : State) (l : LaneId) (p c : Nat) (m : MbxId) (v : Word) : State :=
  let snap := s.coreSnap l p
  let words := fun (q : Mbx) => snap.capture m (readerOf p) q.sel q.selHi
  let foreign := m = .nrgAcc && p ≠ 0 && bitOf v 0 && (snap.lane.circuit (field v 22 16)).owner ≠ p
  if foreign then
    (s.onLane l (fun x => x.onMbx m (.core c) (fun q => { q with valid := false }))).selvedge l p c 1 (mbxAddr m)
  else s.onLane l (fun x => x.onMbx m (.core c) (fun q => q.request m v words true))

/-- MAILBOX_CAPTURE_DONE: every data word holds the capture, and VALID becomes 1 (R442). -/
def Mbx.done (q : Mbx) : Mbx :=
  match q.capture with
  | some ws => { q with valid := true, data := ws, capture := none }
  | none => q

/-! ### Writes by the lane manager -/

/-- A LIVE field of a register is written, or was outside its range; a HALT field was rejected (Table 12-3). -/
def wresCode (rejected range live : Bool) : Nat := if rejected then 2 else if range then 3 else if live then 4 else 0

/-- Bits of `old` under a mask, the others of `new`. -/
def keepBits (mask old new : Word) : Word := (old &&& mask) ||| (new &&& ~~~mask)

/-- The defined bits of a parameter word of a type (Table 06-14): none for the types that have no parameter. -/
def paramBits (t : Nat) (v : Word) : Word :=
  if t = 6 then v &&& 0xFFFF0003#32 else if (1 ≤ t && t ≤ 5) || t = 8 || t = 12 then v else 0

/-- PNT_UNIT_CFG: TYPE and SAFE_MODE are HALT fields of an enabled unit; FILTER and EN are LIVE (Table 06-14). -/
def Lane.writeUnitCfg (x : Lane) (off p : Nat) (v : Word) : Lane :=
  let w := x.unitWritten p
  let new := v &&& 0x830FFF00#32
  let badType := decide (12 < cfgType new)
  let badMode := decide (cfgSafeMode new = 3)
  let badFilter := decide (200 < cfgFilter new)
  let a := if badType then keepBits 0x000F0000#32 w.1 new else new
  let b := if badMode then keepBits 0x03000000#32 w.1 a else a
  let c := if badFilter then keepBits 0x0000FF00#32 w.1 b else b
  let rejected := cfgEn w.1 && decide ((c &&& 0x030F0000#32) ≠ (w.1 &&& 0x030F0000#32))
  let d := if rejected then keepBits 0x030F0000#32 w.1 c else c
  (x.onPnt (fun k => { k with
    pendingUnits := k.pendingUnits.filter (fun u => u.1 ≠ p) ++ [(p, d, paramBits (cfgType d) w.2.1, w.2.2)] })).setWres 2 off
    (wresCode rejected (badType || badMode || badFilter) true)

/-- A parameter of a unit, its defined bits taken, that its type admits (Table 06-14). -/
def paramOk (cfg v : Word) : Bool := typeParamOk (cfgType cfg) (paramBits (cfgType cfg) v)

/-- PNT (Table 06-13). -/
def Lane.writePnt (x : Lane) (off : Nat) (v : Word) : Lane :=
  let unit := fun (p : Nat) (cfg param safe : Word) =>
    x.onPnt (fun k => { k with pendingUnits := k.pendingUnits.filter (fun u => u.1 ≠ p) ++ [(p, cfg, param, safe)] })
  if off < 0x100 then
    (x.onPnt (fun k => { k with pendingOwner := oset k.pendingOwner (off / 4) (field v 3 0) })).setWres 2 off 4
  else if off < 0x120 then
    let n := field v 7 0
    if 1 ≤ n && n ≤ 250 then
      (x.onPnt (fun k => { k with pendingScan := oset k.pendingScan ((off - 0x100) / 4) n })).setWres 2 off 4
    else x.setWres 2 off 3
  else if off = 0x160 then x.onPnt (fun k => { k with testRuns := v })
  else if off = 0x164 then x.onPnt (fun k => { k with testFails := v })
  else if 0x1000 ≤ off && off < 0x1800 then x.writeUnitCfg off ((off - 0x1000) / 4) v
  else if 0x2000 ≤ off && off < 0x2800 then
    let p := (off - 0x2000) / 4
    let w := x.unitWritten p
    if paramOk w.1 v then (unit p w.1 (paramBits (cfgType w.1) v) w.2.2).setWres 2 off 4 else x.setWres 2 off 3
  else if 0x3000 ≤ off && off < 0x3800 then
    let p := (off - 0x3000) / 4
    let w := x.unitWritten p
    (unit p w.1 w.2.1 v).setWres 2 off 4
  else x

/-- LOOP_GRP_CTL (Table 07-7). -/
def Lane.writeGroupCtl (x : Lane) (off g : Nat) (v : Word) : Lane :=
  let o := x.group g
  let ph := field v 31 16
  let bad := ph < 1 || 100 * o.period ≤ ph
  let phase := if bad then o.phase else ph
  let pin := bitOf v 1
  let y := x.onGroup g (fun k => { k with phase := phase, en := bitOf v 0, pinDelay := pin })
  let name := ChangeName.pick x.blk.pick.released
  ((y.queueGroup g name (.group o.period phase (b2n (bitOf v 0)))).queueGroup g name (.pinDelay pin)).setWres 4 off
    (wresCode false bad true)

/-- LOOP_GRP_PERIOD: a HALT field of an enabled group. -/
def Lane.writeGroupPeriod (x : Lane) (off g : Nat) (v : Word) : Lane :=
  let o := x.group g
  let n := field v 25 0
  if n < 100 || 60000000 < n || 100 * n ≤ o.phase then x.setWres 4 off 3
  else if o.en && n ≠ o.period then x.setWres 4 off 2
  else ((x.onGroup g (fun k => { k with period := n })).queueGroup g (.pick x.blk.pick.released)
    (.group n o.phase (b2n o.en))).setWres 4 off 0

/-- A record's fields lie in their ranges (Table 07-8): codes of word 10, and a pattern inside the memory that meets no other. -/
def Lane.recordFieldsOk (x : Lane) (n : Nat) (w : Nat → Word) : Bool :=
  let base := field (w 11) 19 0
  let len := field (w 12) 16 0
  field (w 10) 5 4 ≠ 3 && field (w 10) 9 8 ≠ 3 && field (w 10) 17 16 ≠ 3 && len ≤ 65536 && base + len ≤ 1048576 &&
  (x.blk.loop.loops.filter (fun e => e.1 ≠ n)).all (fun e =>
    !spansMeet base len (field (e.2.recWords.getD 11 0) 19 0) (field (e.2.recWords.getD 12 0) 16 0))

/-- LOOP_REC: a word of a loop's record; its HALT bits stay while the loop is not OFF. -/
def Lane.writeRecord (x : Lane) (off n i : Nat) (v : Word) : Lane :=
  let o := x.loop n
  let c := o.recWords.getD i 0
  let new := v &&& recMask i
  let rejected := decide (o.mode ≠ 0) && decide (((new ^^^ c) &&& recHalt i) ≠ 0)
  let d := if rejected then keepBits (recHalt i) c new else new
  let words := (List.range 16).map (fun k => if k = i then d else o.recWords.getD k 0)
  if !x.recordFieldsOk n (fun k => words.getD k 0) then x.setWres 4 off 3
  else ((x.onLoop n (fun k => { k with recWords := words })).queueLoop n (.pick x.blk.pick.released)
    (.record words o.owner)).setWres 4 off (wresCode rejected false (decide ((recMask i &&& ~~~(recHalt i)) ≠ 0)))

/-- LOOP (Table 07-6). LOOP_OWNER is a HALT field of a loop that is not OFF. -/
def Lane.writeLoopBlk (x : Lane) (off : Nat) (v : Word) : Lane :=
  let i := off / 4
  if off = 0 then (x.onLoopBlk (fun k => { k with en := bitOf v 0 })).setWres 4 off 4
  else if 0x20 ≤ off && off < 0x40 then x.writeGroupCtl off (i % 8) v
  else if 0x40 ≤ off && off < 0x60 then x.writeGroupPeriod off (i % 8) v
  else if 0x80 ≤ off && off < 0xA0 then x.onGroup (i % 8) (fun k => { k with fallbacks := v })
  else if 0x1000 ≤ off && off < 0x1C00 then
    let r := x.writeLoopReg (i % 256) ((off - 0x1000) / 0x400) v (.pick x.blk.pick.released)
    r.1.setWres 4 off (if r.2 then 3 else 4)
  else if 0x3000 ≤ off && off < 0x3400 then
    let o := x.loop (i % 256)
    if o.mode ≠ 0 && o.owner ≠ field v 3 0 then x.setWres 4 off 2
    else (x.onLoop (i % 256) (fun k => { k with owner := field v 3 0 })).setWres 4 off 0
  else if 0x4000 ≤ off && off < 0x8000 then x.writeRecord off ((off - 0x4000) / 64) (i % 16) v
  else x

/-- One NRG register as METER_CONFIG names it: item, index and value, reserved bits dropped (Table 08-11). -/
def nrgItem (y : Lane) (off : Nat) (v : Word) : Option MeterItem :=
  let at_ := fun (item base n val : Nat) => (regIndex off base n).map (fun i => MeterItem.mk item i val)
  let wt := fun (c : Nat) => (y.circuit c).weight
  (at_ 1 0x100 12 v.toNat).orElse fun _ =>
  (at_ 2 0x140 12 (field v 15 0)).orElse fun _ =>
  (at_ 3 0x200 96 v.toNat).orElse fun _ =>
  (at_ 4 0x400 96 v.toNat).orElse fun _ =>
  (at_ 5 0x1000 96 (v &&& ~~~0x1FFF80F0#32).toNat).orElse fun _ =>
  (at_ 6 0x1200 96 v.toNat).orElse fun _ =>
  (at_ 7 0x1400 96 (field v 3 0)).orElse fun _ =>
  ((regIndex off 0x1600 96).map (fun c => MeterItem.mk 8 c (wt c / 2 ^ 32 * 2 ^ 32 + v.toNat))).orElse fun _ =>
  ((regIndex off 0x1800 96).map (fun c => MeterItem.mk 8 c (field v 7 0 * 2 ^ 32 + wt c % 2 ^ 32))).orElse fun _ =>
  (at_ 9 0x1C00 24 (v &&& ~~~0x7FFEFF80#32).toNat)

/-- The item with the HALT fields that the register holds: what a rejected write leaves to do (R448). -/
def Lane.nrgLiveOnly (y : Lane) (i : MeterItem) : Option MeterItem :=
  match i.item with
  | 5 => some { i with value := (keepBits 0x60007F0F#32 (y.circuit i.index).cfg (w32 i.value)).toNat }
  | 9 => some { i with value := (keepBits 0x0001007F#32 (y.pulse i.index).cfg (w32 i.value)).toNat }
  | _ => none

/-- A change of an NRG register waits for step 4 of R301, an owner for the next pick release. -/
def Lane.queueMeter (x : Lane) (i : MeterItem) : Lane :=
  x.onNrg (fun b =>
    if i.item = 7 then { b with pendingOwner := oset b.pendingOwner i.index i.value }
    else { b with changes := b.changes ++ [(x.blk.pick.released, .item i)] })

/-- NRG (Table 08-10). -/
def Lane.writeNrg (x : Lane) (o : Order) (off : Nat) (v : Word) : Lane :=
  let y := x.nrgWritten .a
  if o = .m00 then x
  else if off = 0 then
    (x.onNrg (fun b => { b with changes := b.changes ++ [(x.blk.pick.released, .enable (bitOf v 0))] })).setWres 5 off 4
  else if off = 0x10 then x.onNrg (fun b => { b with mismatch := v })
  else match nrgItem y off v with
    | none => x
    | some i =>
      if !meterIndexFitted o i then x
      else if i.item = 8 then (x.queueMeter i).setWres 5 off 4
      else match y.checkMeterItem o i with
        | none => (x.queueMeter i).setWres 5 off (if i.item ≤ 4 then 0 else 4)
        | some .rejectedRunning =>
          (match y.nrgLiveOnly i with
           | some j => (x.queueMeter j).setWres 5 off 2
           | none => x.setWres 5 off 2)
        | some _ => x.setWres 5 off 3

/-- One of a port's counters is set (Table 12-1). -/
def PortSt.setCounter (p : PortSt) (i : Nat) (v : Word) : PortSt :=
  match i with
  | 0 => { p with rxFrames := v }
  | 1 => { p with rxFcsErr := v }
  | 2 => { p with rxSizeErr := v }
  | 3 => { p with rxFilterDrop := v }
  | 4 => { p with rxHdrDrop := v }
  | 5 => { p with rxRingDrop := v }
  | 6 => { p with rxSkelkanDrop := v }
  | 7 => { p with rxPause := v }
  | 8 => { p with rxSupervision := v }
  | 9 => { p with txFrames := v }
  | 10 => { p with txUnderrun := v }
  | 11 => { p with txAgedDrop := v }
  | 12 => { p with txLinkDrop := v }
  | 13 => { p with txPause := v }
  | 14 => { p with prpEvict := v }
  | _ => { p with speedChanges := v }

/-- Change the configuration of a pair. -/
def NetBlk.onPair (b : NetBlk) (n : Nat) (f : PairCfg → PairCfg) : NetBlk :=
  if n = 0 then { b with estate := f b.estate } else { b with floor := f b.floor }

/-- NET_PORT_CTL: HIGH and LOW outside their ranges leave those fields unchanged (Table 10-6). -/
def portCtlWord (old v : Word) : Word :=
  let new := v &&& 0x00FFFF0E#32
  if 1 ≤ pctLow new && pctLow new ≤ 99 && pctLow new + 1 ≤ pctHigh new && pctHigh new ≤ 100 then new
  else keepBits 0x00FFFF00#32 old new

/-- Replace 32 bits of a number. -/
def putWord (n i : Nat) (v : Word) : Nat := n / 2 ^ (32 * (i + 1)) * 2 ^ (32 * (i + 1)) + v.toNat * 2 ^ (32 * i) + n % 2 ^ (32 * i)

/-- NET (Table 10-5); the block has no WRES. -/
def Lane.writeNet (x : Lane) (off : Nat) (v : Word) : Lane :=
  let pair := fun (base : Nat) (f : PairCfg → PairCfg) => x.onNet (fun b => b.onPair ((off - base) / 4) f)
  if off = 0 then x.onNet (fun b => { b with ctl := v &&& 3#32 })
  else if (regIndex off 0x20 2).isSome then pair 0x20 (fun c => { c with mac := BitVec.ofNat 48 (putWord c.mac.toNat 0 v) })
  else if (regIndex off 0x28 2).isSome then
    pair 0x28 (fun c => { c with mac := BitVec.ofNat 48 (putWord c.mac.toNat 1 (v &&& 0xFFFF#32)) })
  else if (regIndex off 0x30 2).isSome then pair 0x30 (fun c => { c with vlan := v &&& 0xFFFF#32 })
  else if (regIndex off 0x38 2).isSome then pair 0x38 (fun c => { c with ipv4 := v })
  else if (regIndex off 0x40 8).isSome then
    x.onNet (fun b => b.onPair ((off - 0x40) / 16) (fun c =>
      { c with ipv6 := BitVec.ofNat 128 (putWord c.ipv6.toNat (3 - (off - 0x40) / 4 % 4) v) }))
  else if (regIndex off 0x60 2).isSome then
    pair 0x60 (fun c => { c with prefixLen := field v 7 0, speed := if field v 9 8 = 3 then c.speed else field v 9 8 })
  else if (regIndex off 0x70 2).isSome then
    x.onPort ((off - 0x70) / 4) (fun p => { p with pendingCtl := some (portCtlWord (p.pendingCtl.getD p.ctl) v) })
  else if 0x400 ≤ off && off < 0x600 then
    let i := (off - 0x400) / 256 * 32 + off / 4 % 32
    if off % 256 < 0x80 then x.onNet (fun b => { b with filtVlan := tput 0 b.filtVlan i (v &&& 0x0FFF0FFF#32) })
    else x.onNet (fun b => { b with filtAct := tput 0 b.filtAct i v })
  else if 0x800 ≤ off && off < 0x880 then x.onPort ((off - 0x800) / 64) (fun p => p.setCounter (off / 4 % 16) v)
  else x

/-- CAN_BUS_CTL: FD and SINGLE_PAIR are HALT fields of an enabled bus; EN starts or stops the controller, and RECOVER = 1
requests recovery (Table 11-8, R427). -/
def BusSt.writeCtl (b : BusSt) (v : Word) : BusSt × Bool :=
  let new := v &&& 0xF#32
  let rejected := busEn b.ctl && decide ((new &&& 6#32) ≠ (b.ctl &&& 6#32))
  let ctl := if rejected then keepBits 6#32 b.ctl new else new
  let b1 := { b with ctl := ctl }
  let b2 := if !busEn ctl then { b1 with state := 3, recovering := false, waitUntil := none }
    else if b.state = 3 then { b1 with state := 0, tec := 0, recCnt := 0 } else b1
  (if bitOf v 4 then b2.requestRecovery else b2, rejected)

/-- One of a bus's counters is set. -/
def BusSt.setCounter (b : BusSt) (i : Nat) (v : Word) : BusSt :=
  match i with
  | 0 => { b with rxFrames := v }
  | 1 => { b with rxNoMatch := v }
  | 2 => { b with rxFifoDrop := v }
  | 3 => { b with rxOverwrite := v }
  | 4 => { b with txFrames := v }
  | 5 => { b with txBad := v }
  | 6 => { b with txQfullDrop := v }
  | 7 => { b with txAgedDrop := v }
  | 8 => { b with txOffDrop := v }
  | _ => { b with busoff := v }

/-- A timing register of bus `n`: a HALT field of an enabled bus. -/
def Lane.writeTiming (x : Lane) (off n : Nat) (old new : Word) (f : BusSt → BusSt) : Lane :=
  if busEn (x.bus n).ctl && new ≠ old then x.setWres 7 off 2 else (x.onBus n f).setWres 7 off 0

/-- CAN (Table 11-7). -/
def Lane.writeCan (x : Lane) (off : Nat) (v : Word) : Lane :=
  let rx := fun (base : Nat) (f : RxMailbox → RxMailbox) =>
    let i := (off - base) / 4
    (x.onBus (i / 64) (fun b => { b with rx := tmod {} b.rx (i % 64) f })).setWres 7 off 4
  let tx := fun (base : Nat) (f : TxMailbox → TxMailbox) =>
    let i := (off - base) / 4
    (x.onBus (i / 16) (fun b => BusSt.fill 65 { b with tx := tmod {} b.tx (i % 16) f })).setWres 7 off 4
  if 0x100 ≤ off && off < 0x900 then
    let n := (off - 0x100) / 0x100
    let o := off % 0x100
    let b := x.bus n
    if o = 0 then (x.onBus n (fun b => (b.writeCtl v).1)).setWres 7 off (wresCode (b.writeCtl v).2 false true)
    else if o = 4 then let w := v &&& 0xFFFF7F7F#32; x.writeTiming off n b.nbt w (fun k => { k with nbt := w })
    else if o = 8 then let w := v &&& 0x1F1F0F0F#32; x.writeTiming off n b.dbt w (fun k => { k with dbt := w })
    else if o = 0xC then let w := v &&& 0x7F#32; x.writeTiming off n b.tdc w (fun k => { k with tdc := w })
    else if 0x20 ≤ o && o < 0x48 then x.onBus n (fun k => k.setCounter ((o - 0x20) / 4) v)
    else x
  else if 0x1000 ≤ off && off < 0x1800 then rx 0x1000 (fun k => { k with id := v })
  else if 0x1800 ≤ off && off < 0x2000 then rx 0x1800 (fun k => { k with mask := v &&& 0x1FFFFFFF#32 })
  else if 0x2000 ≤ off && off < 0x2200 then tx 0x2000 (fun k => { k with id := v &&& 0xBFFFFFFF#32 })
  else if 0x2200 ≤ off && off < 0x2400 then tx 0x2200 (fun k => { k with mask := v &&& 0x1FFFFFFF#32 })
  else x

/-- The PW register at an offset of the RTC block (Table 13-3). -/
def pwAt (off : Nat) : Option PwReg :=
  if off = 0x40 then some .setGo else if off = 0x44 then some .trim else if off = 0x48 then some .chg
  else if 0x50 ≤ off && off < 0x60 then some (.alm ((off - 0x50) / 4))
  else if 0x60 ≤ off && off < 0x70 then some (.almCtl ((off - 0x60) / 4)) else none

/-- RTC (Table 13-3). -/
def State.writeRtc (s : State) (l : LaneId) (off : Nat) (v : Word) : State :=
  if off = 0x30 then s.onLane l (fun x => ({ x with rtcSet0 := v &&& 0x003F3F3F#32 } : Lane).setWres 8 off 4)
  else if off = 0x34 then s.onLane l (fun x => ({ x with rtcSet1 := v &&& 0x1F0F0FFF#32 } : Lane).setWres 8 off 4)
  else match pwAt off with | some r => s.postedWrite l r v | none => s

/-- FLT_ACK: the bits of a scope are cleared as FAULT_ACK clears them (R501). -/
def State.fltAck (s : State) (v : Word) : State :=
  if scopeInRange (field v 18 16) (field v 15 0) then
    (s.ackFaults (s.lane s.activeLane).blk.pick.released (field v 18 16) (field v 15 0)).1
  else s

/-- FLT (Table 14-12), but for FLT_ACK. -/
def Lane.writeFlt (x : Lane) (off : Nat) (v : Word) : Lane :=
  match off with
  | 0x4 => x.onFlt (fun f => { f with pendingNev := some (bitOf v 0) })
  | 0xC => x.onFlt (fun f => { f with nCount := v })
  | 0x10 => x.onFlt (fun f => { f with lCount := v })
  | 0x14 => x.onFlt (fun f => { f with sCount := v })
  | 0x18 => x.onFlt (fun f => { f with corrCount := v })
  | _ => x

/-- REC_CTL.FREEZE as written, for the next pick release (Table 15-7). -/
def Lane.writeFreeze (x : Lane) (freeze : Bool) : Lane := (x.onRec (fun r => { r with pendingFreeze := some freeze })).setWres 10 4 4

/-- A cursor of the reader's instance (R443, Table 15-7). -/
def Lane.writeCursor (x : Lane) (r : Reader) (off : Nat) (v : Word) : Lane :=
  x.onMbx .recWin r (fun q => if off = 0x20 then { q with sel := v } else { q with selHi := v })

/-- REC (Table 15-6). -/
def Lane.writeRec (x : Lane) (off : Nat) (v : Word) : Lane :=
  match off with
  | 0x4 => x.writeFreeze (bitOf v 0)
  | 0x10 => x.onRec (fun r => { r with gaps := v })
  | 0x20 => (x.writeCursor .manager off v).setWres 10 off 4
  | 0x24 => (x.writeCursor .manager off v).setWres 10 off 4
  | _ => x

/-- KEY (Table 16-10): ENCL_EN is a HALT field whose part is enabled in every state but ISSUED. -/
def Lane.writeKey (x : Lane) (life : LifeCycle) (off : Nat) (v : Word) : Lane :=
  match off with
  | 0xC =>
    let now := x.blk.key.pendingEncl.getD x.blk.key.enclEn
    if life ≠ .issued && bitOf v 0 ≠ now then x.setWres 11 off 2
    else (x.onKey (fun k => { k with pendingEncl := some (bitOf v 0) })).setWres 11 off 0
  | 0x1C => x.onKey (fun k => { k with loads := v })
  | 0x20 => x.onKey (fun k => { k with authFails := v })
  | 0x24 => x.onKey (fun k => { k with remasks := v })
  | _ => x

/-- PWR (Table 17-6). -/
def Lane.writePwr (x : Lane) (off : Nat) (v : Word) : Lane :=
  match off with
  | 0x8 =>
    let n := field v 7 0
    if 160 ≤ n && n ≤ 210 then (x.onPwr (fun p => { p with pendingVwarn := some n })).setWres 12 off 4 else x.setWres 12 off 3
  | 0x14 =>
    let mv := field v 9 0
    let ok := 600 ≤ mv && mv ≤ 900 && mv % 10 = 0
    (x.onPwr (fun p => { p with pendingPin := some (bitOf v 31, if ok then mv else (p.pendingPin.getD (p.pinEn, p.pinMv)).2) })).setWres
      12 off (wresCode false (!ok) true)
  | 0x24 => x.onPwr (fun p => { p with warns := v })
  | 0x28 => x.onPwr (fun p => { p with finalSaves := v })
  | 0x2C => x.onPwr (fun p => { p with finalSkipped := v })
  | 0x30 => x.onPwr (fun p => { p with coreSteps := v })
  | 0x34 =>
    let n := field v 15 0
    if 250 ≤ n && n ≤ 60000 then (x.onPwr (fun p => { p with savePeriod := n })).setWres 12 off 4 else x.setWres 12 off 3
  | _ => x

/-- LANE (Table 03-9); the block has no WRES. -/
def Lane.writeLaneBlk (x : Lane) (off : Nat) (v : Word) : Lane :=
  let b := x.blk.lane
  let pref := b.pendingPrefer.getD (b.prefer, b.holdoff)
  match off with
  | 0x8 => if field v 1 0 = 3 then x else x.onLaneBlk (fun k => { k with pendingPrefer := some (field v 1 0, pref.2) })
  | 0xC =>
    let n := field v 11 0
    if 10 ≤ n && n ≤ 3600 then x.onLaneBlk (fun k => { k with pendingPrefer := some (pref.1, n) }) else x
  | 0x1C => x.onLaneBlk (fun k => { k with imgMismatch := v })
  | 0x20 => x.onLaneBlk (fun k => { k with imgUnresolved := v })
  | 0x24 => x.onLaneBlk (fun k => { k with outDisagree := v })
  | 0x28 => x.onLaneBlk (fun k => { k with digestMismatch := v })
  | 0x2C => x.onLaneBlk (fun k => { k with switchovers := v })
  | 0x30 => x.onLaneBlk (fun k => { k with takebacks := v })
  | 0x34 => x.onLaneBlk (fun k => { k with rejoinFails := v })
  | _ => x

/-- PICK and HED: counters only. -/
def Lane.writePickBlk (x : Lane) (off : Nat) (v : Word) : Lane :=
  match off with
  | 0x18 => x.onPick (fun k => { k with coalesced := v })
  | 0x1C => x.onPick (fun k => { k with dup := v })
  | 0x20 => x.onPick (fun k => { k with held := v })
  | 0x24 => x.onPick (fun k => { k with solo := v })
  | _ => x

def Lane.writeHed (x : Lane) (off : Nat) (v : Word) : Lane :=
  match off with
  | 0x4 => x.onHed (fun k => { k with commits := v })
  | 0x8 => x.onHed (fun k => { k with checks := v })
  | 0xC => x.onHed (fun k => { k with xmsg := v })
  | _ => x

/-- The first `n` invisible entries of a ring become visible. -/
def showEntries : Nat → List RingEntry → List RingEntry
  | 0, es => es
  | _, [] => []
  | n + 1, e :: r => if e.visible then e :: showEntries (n + 1) r else { e with visible := true } :: showEntries n r

/-- DOORBELL POST: the next `n` written entries become visible; a count above those written is ignored, class N (R453). -/
def State.doorbellPost (s : State) (l : LaneId) (r n : Nat) : State :=
  let g := (s.lane l).ring r
  if 64 ≤ r then s
  else if g.entries.length - g.visible < n then s.flag l 2082 false
  else s.onLane l (fun x => x.onRing r (fun g => { g with entries := showEntries n g.entries, posted := g.posted + w32 n }))

/-- DOORBELL TAKE: the slots of the next `n` entries consumed are returned; a count above the entries visible is ignored, class N
(R453). -/
def State.doorbellTake (s : State) (l : LaneId) (r n : Nat) : State :=
  let g := (s.lane l).ring r
  if 64 ≤ r then s
  else if g.consumed.length + g.visible < n then s.flag l 2082 false
  else s.onLane l (fun x => x.onRing r (fun g =>
    { g with consumed := g.consumed.drop n, entries := g.entries.drop (n - g.consumed.length), taken := g.taken + w32 n }))

/-- RING (Table 12-10). -/
def State.writeRing (s : State) (l : LaneId) (off : Nat) (v : Word) : State :=
  let r := off / 0x40
  if 64 ≤ r then s
  else match off % 0x40 with
    | 0x10 => s.onLane l (fun x => x.onRing r (fun g => { g with posted := v }))
    | 0x14 => s.onLane l (fun x => x.onRing r (fun g => { g with taken := v }))
    | 0x18 => s.onLane l (fun x => x.onRing r (fun g => { g with drop := v }))
    | 0x1C => if bitOf v 16 then s.doorbellTake l r (field v 15 0) else s.doorbellPost l r (field v 15 0)
    | _ => s

/-- A lane manager runs in every lane that is not OFF. -/
def Lane.managed (x : Lane) : Bool := x.collects

/-- A write by the lane manager of a lane to a register of block `b`. Writes to RO, RS and SK fields, and to reserved offsets, have
no effect (R434, R9); no lane manager issues a pick (R50). -/
def State.managerWrite (s : State) (l : LaneId) (b off : Nat) (v : Word) : State :=
  let on := fun (f : Lane → Lane) => s.onLane l f
  if s.pkg.noMeter b then s
  else match mbxReqAt b off with
  | some m => s.managerRequest l .manager m v
  | none =>
    match b with
    | 1 => on (fun x => x.writePickBlk off v)
    | 2 => on (fun x => x.writePnt off v)
    | 3 => on (fun x => x.writeHed off v)
    | 4 => on (fun x => x.writeLoopBlk off v)
    | 5 => on (fun x => x.writeNrg s.pkg.order off v)
    | 6 => on (fun x => x.writeNet off v)
    | 7 => on (fun x => x.writeCan off v)
    | 8 => s.writeRtc l off v
    | 9 => if off = 8 then s.fltAck v else on (fun x => x.writeFlt off v)
    | 10 => on (fun x => x.writeRec off v)
    | 11 => on (fun x => x.writeKey s.pkg.life off v)
    | 12 => on (fun x => x.writePwr off v)
    | 13 => on (fun x => x.writeLaneBlk off v)
    | 14 => s.writeRing l off v
    | _ => s

/-- The service port's interpreter writes its instances of the mailboxes, and nothing else (R441). -/
def State.serviceWrite (s : State) (l : LaneId) (b off : Nat) (v : Word) : State :=
  if s.pkg.noMeter b then s
  else match mbxReqAt b off with
  | some m => s.managerRequest l .service m v
  | none => if b = 10 && (off = 0x20 || off = 0x24) then s.onLane l (fun x => x.writeCursor .service off v) else s

/-! ### Writes by an application core -/

/-- A write to a core's buffer; none when it would be the 2,049th entry (R147, R148). -/
def Core.buffer (k : Core) (w : Nat) (v : Word) : Option Core :=
  if (k.wbuf.lookup w).isSome || k.wbuf.length < 2048 then some { k with wbuf := oset k.wbuf w v } else none

/-- A word goes to the buffer of core `c`. -/
def State.bufferWord (s : State) (l : LaneId) (c w : Nat) (v : Word) : Option State :=
  (((s.lane l).core c).buffer w v).map (fun k => s.onLane l (fun x => x.onCore c (fun _ => k)))

/-- PICK_REQ.REQ = 1: the core's request is made, and the core goes on once it has its ticket (R50, R54, R80). -/
def State.askPick (s : State) (l : LaneId) (c : Nat) : State :=
  let n := ((s.lane l).core c).count + 1
  (s.onLane l (fun x => x.onCore c (fun k => { k with count := n, run := .asking }))).requestPick l (.core c) n

/-- The bits of a block register that a core may write, the others being reserved: LOOP_CMD, LOOP_SP, LOOP_MAN and the alarms
(R9, Tables 07-7 and 13-4). -/
def coreMask (b off : Nat) : Word :=
  if b = 4 then (if off < 0x1400 then 0x13#32 else 0xFFFF#32)
  else if 0x60 ≤ off then 0x8000FFFF#32 else 0xFFFFFFFF#32

/-- A core's write of block space (R249, R434, R475); none when its buffer is full. -/
def State.coreBlockWrite (s : State) (l : LaneId) (p c addr : Nat) (v : Word) : Option State :=
  let b := blockOf_ addr
  let off := offsetOf addr
  let snap := s.coreSnap l p
  let bad := some (s.selvedge l p c 1 addr)
  if s.pkg.noMeter b then some s
  else if p ≠ 0 && snap.sight p b off = .refused then bad
  else match mbxReqAt b off with
    | some m =>
      if m = .loopBank || (p ≠ 0 && m ≠ .nrgAcc && m ≠ .recWin) then bad else some (s.coreRequest l p c m v)
    | none =>
      if b = 10 && (off = 0x20 || off = 0x24) then some (s.onLane l (fun x => x.writeCursor (.core c) off v))
      else if b = 1 && off = 0 then some (if bitOf v 0 then s.askPick l c else s)
      else if b = 4 && 0x1000 ≤ off && off < 0x1C00 && (snap.lane.loop (off / 4 % 256)).owner = p then
        s.bufferWord l c (addr / 4) (v &&& coreMask b off)
      else if b = 8 && p = 0 && (alarmWord (addr / 4)).isSome then s.bufferWord l c (addr / 4) (v &&& coreMask b off)
      else if ((s.lane l).register snap (.core c) b off).isSome then bad
      else some s

/-- The instruction at the program counter of a core: 16 bits when the two lowest are not both 1, else 32. -/
def Core.insnWord (k : Core) : Word :=
  let h := leNat (memRead k.mem k.pc.toNat 2)
  w32 (if h % 4 = 3 then leNat (memRead k.mem k.pc.toNat 4) else h)

/-- A register write by a core that executes: a full buffer is a program fault (R148). -/
def State.coreRegisterWrite (s : State) (l : LaneId) (c addr : Nat) (v : Word) : State :=
  match (s.lane l).running c with
  | none => s
  | some p =>
    let k := (s.lane l).core c
    if addr % 4 ≠ 0 || !inBlocks addr then s.selvedge l p c 1 addr
    else match s.coreBlockWrite l p c addr v with
      | some t => t
      | none => s.programFault l p c k.pc k.insnWord

/-- REGISTER_WRITE by any reader. -/
def State.registerWrite (s : State) (l : LaneId) (r : Reader) (addr : Nat) (v : Word) : State :=
  match r with
  | .core c => s.coreRegisterWrite l c addr v
  | .manager =>
    if addr % 4 = 0 && inBlocks addr && (s.lane l).managed then s.managerWrite l (blockOf_ addr) (offsetOf addr) v else s
  | .service =>
    if addr % 4 = 0 && inBlocks addr && (s.lane l).managed then s.serviceWrite l (blockOf_ addr) (offsetOf addr) v else s

/-! ### Rows -/

def execPickReq (l : LaneId) (core : Nat) (s : State) : Host.Outcome State Fault Refusal :=
  .next (s.registerWrite l (.core core) 0x40010000 1#32)

def execSysWideMbx (l : LaneId) (r : Reader) (v : Word) (s : State) : Host.Outcome State Fault Refusal :=
  .next (s.registerWrite l r (mbxAddr .sysWide) v)

def execLaneDigestMbx (l : LaneId) (r : Reader) (v : Word) (s : State) : Host.Outcome State Fault Refusal :=
  .next (s.registerWrite l r (mbxAddr .laneDigest) v)

def execHedSnapMbx (l : LaneId) (r : Reader) (v : Word) (s : State) : Host.Outcome State Fault Refusal :=
  .next (s.registerWrite l r (mbxAddr .hedSnap) v)

def execLoopBankMbx (l : LaneId) (r : Reader) (v : Word) (s : State) : Host.Outcome State Fault Refusal :=
  .next (s.registerWrite l r (mbxAddr .loopBank) v)

def execNrgAccMbx (l : LaneId) (r : Reader) (v : Word) (s : State) : Host.Outcome State Fault Refusal :=
  .next (s.registerWrite l r (mbxAddr .nrgAcc) v)

def execRtcTimeMbx (l : LaneId) (r : Reader) (v : Word) (s : State) : Host.Outcome State Fault Refusal :=
  .next (s.registerWrite l r (mbxAddr .rtcTime) v)

def execKeySlotMbx (l : LaneId) (r : Reader) (v : Word) (s : State) : Host.Outcome State Fault Refusal :=
  .next (s.registerWrite l r (mbxAddr .keySlot) v)

def execKeyMeasMbx (l : LaneId) (r : Reader) (v : Word) (s : State) : Host.Outcome State Fault Refusal :=
  .next (s.registerWrite l r (mbxAddr .keyMeas) v)

def execRecWinMbx (l : LaneId) (r : Reader) (v : Word) (s : State) : Host.Outcome State Fault Refusal :=
  .next (s.registerWrite l r (mbxAddr .recWin) v)

def execMailboxCaptureDone (l : LaneId) (r : Reader) (m : MbxId) (s : State) : Host.Outcome State Fault Refusal :=
  .next (s.onLane l (fun x => x.onMbx m r Mbx.done))

def execRingDoorbellPost (l : LaneId) (ring n : Nat) (s : State) : Host.Outcome State Fault Refusal :=
  .next (if (s.lane l).managed then s.doorbellPost l ring n else s)

def execRingDoorbellTake (l : LaneId) (ring n : Nat) (s : State) : Host.Outcome State Fault Refusal :=
  .next (if (s.lane l).managed then s.doorbellTake l ring n else s)

def execFltAck (l : LaneId) (v : Word) (s : State) : Host.Outcome State Fault Refusal :=
  .next (s.registerWrite l .manager 0x40090008 v)

def execRecCtlFreeze (l : LaneId) (s : State) : Host.Outcome State Fault Refusal :=
  .next (s.registerWrite l .manager 0x400A0004 1#32)

def execRecCtlThaw (l : LaneId) (s : State) : Host.Outcome State Fault Refusal :=
  .next (s.registerWrite l .manager 0x400A0004 0#32)

def execRegisterWrite (l : LaneId) (r : Reader) (addr v : Word) (s : State) : Host.Outcome State Fault Refusal :=
  .next (s.registerWrite l r addr.toNat v)

end Sys2Proof.Machine
end

