-- ==== Sys2Proof/Machine/Rv.lean ====
section
/-! DEFINITION. The instruction set of an application core: RV32I with M and C (R131). The encodings are those of the RISC-V
unprivileged specification, which the spec names and does not print (assumption 90). -/

namespace Sys2Proof.Machine

/-- Register-register and register-immediate operations. -/
inductive Alu where
  | add | sub | sll | slt | sltu | xor | srl | sra | or | and
  | mul | mulh | mulhsu | mulhu | div | divu | rem | remu
deriving DecidableEq, Repr

/-- Branch conditions. -/
inductive Cond where
  | eq | ne | lt | ge | ltu | geu
deriving DecidableEq, Repr

/-- A decoded instruction. Sizes are in bytes. -/
inductive Rv where
  | lui (rd : Nat) (imm : Word)
  | auipc (rd : Nat) (imm : Word)
  | jal (rd : Nat) (imm : Word)
  | jalr (rd rs1 : Nat) (imm : Word)
  | branch (c : Cond) (rs1 rs2 : Nat) (imm : Word)
  | load (size : Nat) (signed : Bool) (rd rs1 : Nat) (imm : Word)
  | store (size : Nat) (rs1 rs2 : Nat) (imm : Word)
  | opImm (f : Alu) (rd rs1 : Nat) (imm : Word)
  | op (f : Alu) (rd rs1 rs2 : Nat)
  | fence
  | ecall
deriving DecidableEq, Repr

/-- Bits `hi` to `lo` of an encoding. -/
def enc (w hi lo : Nat) : Nat := w / 2 ^ lo % 2 ^ (hi + 1 - lo)

/-- A two's-complement field of `bits` bits as a word. -/
def sext (bits n : Nat) : Word := BitVec.ofInt 32 (signed bits n)

/-- Immediates of the 32-bit formats. -/
def immI (w : Nat) : Word := sext 12 (enc w 31 20)
def immS (w : Nat) : Word := sext 12 (enc w 31 25 * 32 + enc w 11 7)
def immB (w : Nat) : Word := sext 13 (enc w 31 31 * 4096 + enc w 7 7 * 2048 + enc w 30 25 * 32 + enc w 11 8 * 2)
def immU (w : Nat) : Word := w32 (enc w 31 12 * 4096)
def immJ (w : Nat) : Word := sext 21 (enc w 31 31 * 1048576 + enc w 19 12 * 4096 + enc w 20 20 * 2048 + enc w 30 21 * 2)

/-- The branch condition of a funct3. -/
def condOf : Nat → Option Cond
  | 0 => some .eq
  | 1 => some .ne
  | 4 => some .lt
  | 5 => some .ge
  | 6 => some .ltu
  | 7 => some .geu
  | _ => none

/-- The operation of a funct3 and funct7 (M extension at funct7 1). -/
def aluOf (f3 f7 : Nat) : Option Alu :=
  match f7, f3 with
  | 0, 0 => some .add
  | 0, 1 => some .sll
  | 0, 2 => some .slt
  | 0, 3 => some .sltu
  | 0, 4 => some .xor
  | 0, 5 => some .srl
  | 0, 6 => some .or
  | 0, 7 => some .and
  | 32, 0 => some .sub
  | 32, 5 => some .sra
  | 1, 0 => some .mul
  | 1, 1 => some .mulh
  | 1, 2 => some .mulhsu
  | 1, 3 => some .mulhu
  | 1, 4 => some .div
  | 1, 5 => some .divu
  | 1, 6 => some .rem
  | 1, 7 => some .remu
  | _, _ => none

/-- The register-immediate operation of an encoding: shifts take five bits and check funct7. -/
def opImmOf (w : Nat) : Option Rv :=
  let rd := enc w 11 7
  let rs1 := enc w 19 15
  let f7 := enc w 31 25
  let shamt := w32 (enc w 24 20)
  match enc w 14 12 with
  | 0 => some (.opImm .add rd rs1 (immI w))
  | 1 => if f7 = 0 then some (.opImm .sll rd rs1 shamt) else none
  | 2 => some (.opImm .slt rd rs1 (immI w))
  | 3 => some (.opImm .sltu rd rs1 (immI w))
  | 4 => some (.opImm .xor rd rs1 (immI w))
  | 5 => if f7 = 0 then some (.opImm .srl rd rs1 shamt) else if f7 = 32 then some (.opImm .sra rd rs1 shamt) else none
  | 6 => some (.opImm .or rd rs1 (immI w))
  | _ => some (.opImm .and rd rs1 (immI w))

/-- A 32-bit encoding; none outside RV32IM, for EBREAK, CSR instructions and FENCE.I (R132). -/
def decode32 (w : Nat) : Option Rv :=
  let rd := enc w 11 7
  let rs1 := enc w 19 15
  let rs2 := enc w 24 20
  let f3 := enc w 14 12
  match enc w 6 0 with
  | 0x37 => some (.lui rd (immU w))
  | 0x17 => some (.auipc rd (immU w))
  | 0x6F => some (.jal rd (immJ w))
  | 0x67 => if f3 = 0 then some (.jalr rd rs1 (immI w)) else none
  | 0x63 => (condOf f3).map (fun c => .branch c rs1 rs2 (immB w))
  | 0x03 =>
    match f3 with
    | 0 => some (.load 1 true rd rs1 (immI w))
    | 1 => some (.load 2 true rd rs1 (immI w))
    | 2 => some (.load 4 true rd rs1 (immI w))
    | 4 => some (.load 1 false rd rs1 (immI w))
    | 5 => some (.load 2 false rd rs1 (immI w))
    | _ => none
  | 0x23 => if f3 ≤ 2 then some (.store (2 ^ f3) rs1 rs2 (immS w)) else none
  | 0x13 => opImmOf w
  | 0x33 => (aluOf f3 (enc w 31 25)).map (fun f => .op f rd rs1 rs2)
  | 0x0F => if f3 = 0 then some .fence else none
  | 0x73 => if w = 0x73 then some .ecall else none
  | _ => none

/-- The immediate of C.J and C.JAL. -/
def immCJ (w : Nat) : Word :=
  sext 12 (enc w 12 12 * 2048 + enc w 8 8 * 1024 + enc w 10 9 * 256 + enc w 6 6 * 128 + enc w 7 7 * 64 + enc w 2 2 * 32 +
    enc w 11 11 * 16 + enc w 5 3 * 2)

/-- The immediate of C.BEQZ and C.BNEZ. -/
def immCB (w : Nat) : Word :=
  sext 9 (enc w 12 12 * 256 + enc w 6 5 * 64 + enc w 2 2 * 32 + enc w 11 10 * 8 + enc w 4 3 * 2)

/-- The six-bit immediate of C.ADDI, C.LI and C.ANDI. -/
def immCI (w : Nat) : Word := sext 6 (enc w 12 12 * 32 + enc w 6 2)

/-- The offset of C.LW and C.SW. -/
def immCL (w : Nat) : Word := w32 (enc w 5 5 * 64 + enc w 12 10 * 8 + enc w 6 6 * 4)

/-- Quadrant 0 of the compressed encodings. -/
def decodeC0 (w : Nat) : Option Rv :=
  let r := 8 + enc w 4 2
  let b := 8 + enc w 9 7
  match enc w 15 13 with
  | 0 =>
    let n := enc w 10 7 * 64 + enc w 12 11 * 16 + enc w 5 5 * 8 + enc w 6 6 * 4
    if n = 0 then none else some (.opImm .add r 2 (w32 n))
  | 2 => some (.load 4 true r b (immCL w))
  | 6 => some (.store 4 b r (immCL w))
  | _ => none

/-- The register operations of quadrant 1. -/
def decodeCAlu (w : Nat) : Option Rv :=
  let r := 8 + enc w 9 7
  let shamt := w32 (enc w 6 2)
  match enc w 11 10 with
  | 0 => if enc w 12 12 = 0 then some (.opImm .srl r r shamt) else none
  | 1 => if enc w 12 12 = 0 then some (.opImm .sra r r shamt) else none
  | 2 => some (.opImm .and r r (immCI w))
  | _ =>
    if enc w 12 12 = 1 then none
    else some (.op (match enc w 6 5 with | 0 => .sub | 1 => .xor | 2 => .or | _ => .and) r r (8 + enc w 4 2))

/-- Quadrant 1 of the compressed encodings. -/
def decodeC1 (w : Nat) : Option Rv :=
  let rd := enc w 11 7
  match enc w 15 13 with
  | 0 => some (.opImm .add rd rd (immCI w))
  | 1 => some (.jal 1 (immCJ w))
  | 2 => some (.opImm .add rd 0 (immCI w))
  | 3 =>
    if rd = 2 then
      let n := enc w 12 12 * 512 + enc w 4 3 * 128 + enc w 5 5 * 64 + enc w 2 2 * 32 + enc w 6 6 * 16
      if n = 0 then none else some (.opImm .add 2 2 (sext 10 n))
    else
      let n := enc w 12 12 * 32 + enc w 6 2
      if n = 0 then none else some (.lui rd (sext 18 (n * 4096)))
  | 4 => decodeCAlu w
  | 5 => some (.jal 0 (immCJ w))
  | 6 => some (.branch .eq (8 + enc w 9 7) 0 (immCB w))
  | _ => some (.branch .ne (8 + enc w 9 7) 0 (immCB w))

/-- Quadrant 2 of the compressed encodings. -/
def decodeC2 (w : Nat) : Option Rv :=
  let rd := enc w 11 7
  let rs2 := enc w 6 2
  match enc w 15 13 with
  | 0 => if enc w 12 12 = 0 then some (.opImm .sll rd rd (w32 rs2)) else none
  | 2 =>
    if rd = 0 then none
    else some (.load 4 true rd 2 (w32 (enc w 3 2 * 64 + enc w 12 12 * 32 + enc w 6 4 * 4)))
  | 4 =>
    if enc w 12 12 = 0 then
      if rs2 = 0 then (if rd = 0 then none else some (.jalr 0 rd 0)) else some (.op .add rd 0 rs2)
    else if rs2 = 0 then (if rd = 0 then none else some (.jalr 1 rd 0)) else some (.op .add rd rd rs2)
  | 6 => some (.store 4 2 rs2 (w32 (enc w 8 7 * 64 + enc w 12 9 * 4)))
  | _ => none

/-- A 16-bit encoding; none outside RV32C. -/
def decode16 (w : Nat) : Option Rv :=
  match enc w 1 0 with
  | 0 => decodeC0 w
  | 1 => decodeC1 w
  | 2 => decodeC2 w
  | _ => none

/-- The integer a register holds. -/
def sint (a : Word) : Int := signed 32 a.toNat

/-- An operation's result; division by zero follows the RISC-V rule (R133). -/
def Alu.eval (f : Alu) (a b : Word) : Word :=
  let sh := b.toNat % 32
  match f with
  | .add => a + b
  | .sub => a - b
  | .sll => a <<< sh
  | .slt => w32 (b2n (decide (sint a < sint b)))
  | .sltu => w32 (b2n (decide (a.toNat < b.toNat)))
  | .xor => a ^^^ b
  | .srl => a >>> sh
  | .sra => a.sshiftRight sh
  | .or => a ||| b
  | .and => a &&& b
  | .mul => a * b
  | .mulh => BitVec.ofInt 32 (sint a * sint b / 4294967296)
  | .mulhsu => BitVec.ofInt 32 (sint a * (b.toNat : Int) / 4294967296)
  | .mulhu => w32 (a.toNat * b.toNat / 4294967296)
  | .div => if b = 0 then 0xFFFFFFFF#32 else BitVec.ofInt 32 (Int.tdiv (sint a) (sint b))
  | .divu => if b = 0 then 0xFFFFFFFF#32 else w32 (a.toNat / b.toNat)
  | .rem => if b = 0 then a else BitVec.ofInt 32 (Int.tmod (sint a) (sint b))
  | .remu => if b = 0 then a else w32 (a.toNat % b.toNat)

/-- Whether a branch is taken. -/
def Cond.holds (c : Cond) (a b : Word) : Bool :=
  match c with
  | .eq => a = b
  | .ne => a ≠ b
  | .lt => decide (sint a < sint b)
  | .ge => decide (sint b ≤ sint a)
  | .ltu => decide (a.toNat < b.toNat)
  | .geu => decide (b.toNat ≤ a.toNat)

/-- Register `r`; x0 reads as 0. -/
def Core.reg (k : Core) (r : Nat) : Word := if r = 0 then 0 else tget 0 k.regs r

/-- Write register `r`; a write to x0 is discarded. -/
def Core.setReg (k : Core) (r : Nat) (v : Word) : Core := if r = 0 then k else { k with regs := tput 0 k.regs r v }

end Sys2Proof.Machine
end

