-- ==== Sys2Proof/Machine/Cores.lean ====
section
/-! DEFINITION. One instruction of an application core (R131 to R133), the memory it sees (R42, R43, R146 to R151) and its
environment calls (R134 to R139). -/

namespace Sys2Proof.Machine

/-! ### Memory seen by a program (Table 04-5, Table 04-6) -/

/-- Length of the code range: the code of the image in force. -/
def Part.codeLen (q : Part) : Nat :=
  match q.runImage with
  | some i => i.code.length
  | none => 0

/-- Core-private memory, the shared window, and the input and output images (Table 01-6). -/
def isPrivate (a : Nat) : Bool := decide (a < 0x80000)
def isShared (a : Nat) : Bool := decide (0x10000000 ≤ a) && decide (a < 0x10040000)
def isInput (a : Nat) : Bool := decide (0x20000000 ≤ a) && decide (a < 0x20000800)
def isOutput (a : Nat) : Bool := decide (0x20000800 ≤ a) && decide (a < 0x20001000)

/-- The point whose image word holds an address of either image. -/
def imagePoint (a : Nat) : Nat := a % 0x800 / 4

/-- Partition `p` owns the cluster of the point at an image address, as the cycle's snapshot has it. -/
def State.ownsImage (s : State) (l : LaneId) (p a : Nat) : Bool := decide ((s.coreSnap l p).lane.pointOwner (imagePoint a) = p)

/-- Byte `a` of memory as core `c` of partition `p` sees it: its own buffered value first, else the value in force (R147). -/
def Lane.coreByte (x : Lane) (p c a : Nat) : Byte :=
  let k := x.core c
  let q := x.part p
  if isPrivate a then tget 0 k.mem a
  else
    let part := fun (w : Word) => BitVec.ofNat 8 (w.toNat / 256 ^ (a % 4))
    match k.wbuf.lookup (a / 4) with
    | some w => part w
    | none =>
      if isShared a then q.sharedByte (a - 0x10000000)
      else if isInput a then part (tget 0 q.inputs (imagePoint a))
      else if isOutput a then part (tget 0 x.man.outImage (imagePoint a))
      else 0

/-- Bytes `a` to `a + n - 1` as a core sees them, little-endian. -/
def Lane.coreNat (x : Lane) (p c a n : Nat) : Nat := leNat ((List.range n).map (fun i => x.coreByte p c (a + i)))

/-- A write to this address takes effect at once (Table 04-5). -/
def Part.atOnce (q : Part) (a : Nat) : Bool :=
  isPrivate a || (isShared a && decide (a < 0x1003C000) && decide (q.coreList.length ≤ 1))

/-- A core writes a byte of memory; none when its buffer is full (R147, R148). -/
def Lane.putByte (x : Lane) (p c a : Nat) (b : Byte) : Option Lane :=
  if isPrivate a then some (x.onCore c (fun k => { k with mem := tput 0 k.mem a b }))
  else if (x.part p).atOnce a then some (x.onPart p (fun q => { q with shared := tput 0 q.shared (a - 0x10000000) b }))
  else
    let w := 4 * (a / 4)
    let bs := (List.range 4).map (fun i => if w + i = a then b else x.coreByte p c (w + i))
    ((x.core c).buffer (a / 4) (w32 (leNat bs))).map (fun k => x.onCore c (fun _ => k))

/-- A core writes bytes from address `a`. -/
def Lane.putBytes (x : Lane) (p c a : Nat) : List Byte → Option Lane
  | [] => some x
  | b :: bs =>
    match x.putByte p c a b with
    | some y => y.putBytes p c (a + 1) bs
    | none => none

/-- An aligned data access of `n` bytes that the selvedge guard lets read (R43, Table 04-6), block space apart. -/
def State.mayRead (s : State) (l : LaneId) (p a n : Nat) : Bool :=
  isPrivate a || isShared a || (decide (n = 4) && (isInput a || isOutput a) && s.ownsImage l p a)

/-- An aligned data access of `n` bytes that the selvedge guard lets write (R42, R43, Table 04-6), block space apart. -/
def State.mayWrite (s : State) (l : LaneId) (p a n : Nat) : Bool :=
  (isPrivate a && decide (((s.lane l).part p).codeLen ≤ a)) || isShared a ||
    (decide (n = 4) && isOutput a && s.ownsImage l p a)

/-- A load: the bytes as a number; a refused access reads 0 and raises class N (R42). -/
def State.coreLoad (s : State) (l : LaneId) (p c a n : Nat) : Nat × State :=
  let bad := (0, s.selvedge l p c 0 a)
  if a % n ≠ 0 then bad
  else if s.mayRead l p a n then ((s.lane l).coreNat p c a n, s)
  else if inBlocks a && n = 4 then
    match s.coreBlockRead l p c a with
    | some w => (w.toNat, s)
    | none => bad
  else bad

/-- A store; none when the core's buffer is full. A refused access is dropped and raises class N (R42, R148). -/
def State.coreStore (s : State) (l : LaneId) (p c a n : Nat) (v : Word) : Option State :=
  let bad := some (s.selvedge l p c 1 a)
  if a % n ≠ 0 then bad
  else if s.mayWrite l p a n then
    ((s.lane l).putBytes p c a (leBytes n v.toNat)).map (fun y => s.onLane l (fun _ => y))
  else if inBlocks a && n = 4 then s.coreBlockWrite l p c a v
  else bad

/-! ### Environment calls (Table 04-1 to Table 04-3) -/

/-- A buffer of `n` bytes lies in `[lo, hi)`. -/
def spanIn (a n lo hi : Nat) : Bool := decide (lo ≤ a) && decide (a + n ≤ hi)

/-- A buffer lies wholly in memory that the partition may read (Table 04-6). -/
def State.bufferReads (s : State) (l : LaneId) (p a n : Nat) : Bool :=
  spanIn a n 0 0x80000 || spanIn a n 0x10000000 0x10040000 ||
    (spanIn a n 0x20000000 0x20001000 && (List.range n).all (fun i => s.ownsImage l p (a + i)))

/-- A buffer lies wholly in memory that the partition may write (Table 04-6). -/
def State.bufferWrites (s : State) (l : LaneId) (p a n : Nat) : Bool :=
  spanIn a n ((s.lane l).part p).codeLen 0x80000 || spanIn a n 0x10000000 0x10040000 ||
    (spanIn a n 0x20000800 0x20001000 && (List.range n).all (fun i => s.ownsImage l p (a + i)))

/-- A call ends with a status in a0, and the core goes on after its ECALL (R135). -/
def State.callEnds (s : State) (l : LaneId) (c : Nat) (st : Word) : State :=
  s.onLane l (fun x => x.onCore c (fun k => { k.setReg 10 st with pc := k.pc + 4 }))

/-- A call with BAD_ARG also records a selvedge violation (R136). -/
def State.badArg (s : State) (l : LaneId) (p c access : Nat) (a : Word) : State :=
  (s.selvedge l p c access a.toNat).callEnds l c 3

/-- A call writes its buffer; a full write buffer is a program fault (R148). -/
def State.callWrites (s : State) (l : LaneId) (p c a : Nat) (bs : List Byte) (go : State → State) : State :=
  match (s.lane l).putBytes p c a bs with
  | some y => go (s.onLane l (fun _ => y))
  | none => s.programFault l p c ((s.lane l).core c).pc ((s.lane l).core c).insnWord

/-- PICK: the request is made, and the call returns once the pick is released in the core's lane; a ninth call in a cycle answers
LIMIT and issues no pick (R80, R135). -/
def State.callPick (s : State) (l : LaneId) (_p c : Nat) : State :=
  let k := (s.lane l).core c
  if 8 ≤ k.pickCalls then s.callEnds l c 6
  else
    let n := k.count + 1
    (s.onLane l (fun x => x.onCore c (fun k => { k with
      count := n, pickCalls := k.pickCalls + 1, run := .waiting n, waitStart := s.pkg.beat, pc := k.pc + 4 }))).requestPick l
      (.core c) n

/-- Slots that the posts of the cycle take. -/
def Part.postSlots (q : Part) : Nat := (q.posts.map (fun b => slotsOf b.length)).sum

/-- RING_POST: a0 ring, a1 address, a2 length (R136, R138). -/
def State.callPost (s : State) (l : LaneId) (p c : Nat) : State :=
  let x := s.lane l
  let k := x.core c
  let ring := (k.reg 10).toNat
  let a := (k.reg 11).toNat
  let n := (k.reg 12).toNat
  if ring ≠ 16 + p || n < 1 || ringLargest ring < n || !s.bufferReads l p a n then s.badArg l p c 0 (k.reg 11)
  else
    let q := x.part p
    if q.freeAtStart < q.postSlots + slotsOf n then s.callEnds l c 2
    else
      let bs := (List.range n).map (fun i => x.coreByte p c (a + i))
      (s.onLane l (fun y => y.onPart p (fun r => { r with posts := r.posts ++ [bs] }))).callEnds l c 0

/-- The oldest entry of a ring that is visible and whose epoch is not after the partition's visible epoch (R137). -/
def Lane.takeable (x : Lane) (p ring : Nat) : Option RingEntry :=
  match (x.ring ring).take with
  | some (e, _) => if serialBefore (x.part p).visible e.epoch then none else some e
  | none => none

/-- RING_TAKE: a0 ring, a1 buffer address, a2 its size; a1 returns the length taken (R136, R137). DESIGN CHOICE (log 123): a buffer
smaller than the entry is a wrong length, and the entry stays in the ring. -/
def State.callTake (s : State) (l : LaneId) (p c : Nat) : State :=
  let x := s.lane l
  let k := x.core c
  let ring := (k.reg 10).toNat
  let a := (k.reg 11).toNat
  let size := (k.reg 12).toNat
  if ring ≠ p && ring ≠ 32 + p then s.badArg l p c 1 (k.reg 11)
  else if x.coreRank p c ≠ 0 then s.callEnds l c 4
  else if !s.bufferWrites l p a size then s.badArg l p c 1 (k.reg 11)
  else match x.takeable p ring with
    | none => s.callEnds l c 1
    | some e =>
      if size < e.bytes.length then s.badArg l p c 1 (k.reg 11)
      else s.callWrites l p c a e.bytes (fun t =>
        (t.onLane l (fun y => (y.onRing ring (fun g => match g.take with | some r => r.2 | none => g)).onCore c
          (fun r => r.setReg 11 (w32 e.bytes.length)))).callEnds l c 0)

/-- RESTART_CAUSE: a1 the cause code, a2 the flags; the save age goes to the word at a0 when a0 is not 0 (R168). DESIGN CHOICE (log
123): a misaligned a0 names the four bytes from a0. -/
def State.callCause (s : State) (l : LaneId) (p c : Nat) : State :=
  let k := (s.lane l).core c
  let q := (s.lane l).part p
  let a := (k.reg 10).toNat
  let go := fun (t : State) => (t.onLane l (fun y => y.onCore c (fun r =>
    (r.setReg 11 (w32 q.cause)).setReg 12 (w32 q.flags)))).callEnds l c 0
  if a = 0 then go s
  else if !s.bufferWrites l p a 4 then s.badArg l p c 1 (k.reg 10)
  else s.callWrites l p c a (leBytes 4 q.saveAge.toNat) go

/-- The CYCLE_INFO buffer (Table 04-3). -/
def State.cycleInfoBytes (s : State) (l : LaneId) (p c : Nat) : List Byte :=
  let q := (s.lane l).part p
  leBytes 8 (q.cycle + 1) ++ leBytes 4 q.ticket.toNat ++ leBytes 4 q.startStamp ++ leBytes 4 q.lastCycle ++
    leBytes 4 q.lastRun ++ leBytes 1 ((s.lane l).coreRank p c) ++ leBytes 1 q.coreList.length ++
    leBytes 1 (b2n (s.coreSnap l p).dom.timeValid) ++ zeros 1 ++ leBytes 4 q.visible.toNat

/-- CYCLE_INFO: a0 is the address of a 32-byte buffer (R135, R139). -/
def State.callInfo (s : State) (l : LaneId) (p c : Nat) : State :=
  let k := (s.lane l).core c
  let a := (k.reg 10).toNat
  if !s.bufferWrites l p a 32 then s.badArg l p c 1 (k.reg 10)
  else s.callWrites l p c a (s.cycleInfoBytes l p c) (fun t => t.callEnds l c 0)

/-- ECALL: the function number is in a7 (R135). -/
def State.envCall (s : State) (l : LaneId) (p c : Nat) : State :=
  match (((s.lane l).core c).reg 17).toNat with
  | 1 => s.callPick l p c
  | 2 => s.callPost l p c
  | 3 => s.callTake l p c
  | 4 => s.callCause l p c
  | 5 => s.callInfo l p c
  | _ => s.callEnds l c 5

/-! ### One instruction -/

/-- The instruction that a core fetches and its length; none for a fetch outside the code range or at an odd address (R132,
Table 04-6). -/
def Lane.fetch (x : Lane) (p c : Nat) : Option (Word × Nat) :=
  let k := x.core c
  let a := k.pc.toNat
  let n := if k.insnWord.toNat % 4 = 3 then 4 else 2
  if a % 2 = 0 && a + n ≤ (x.part p).codeLen then some (k.insnWord, n) else none

/-- The meaning of an instruction word of `n` bytes. -/
def decodeRv (w : Word) (n : Nat) : Option Rv := if n = 4 then decode32 w.toNat else decode16 w.toNat

/-- A register result; the core goes on at `pc`. -/
def State.coreWrites (s : State) (l : LaneId) (c rd : Nat) (v pc : Word) : State :=
  s.onLane l (fun x => x.onCore c (fun k => { k.setReg rd v with pc := pc }))

/-- The effect of a decoded instruction of `n` bytes (R131). -/
def State.rvEffect (s : State) (l : LaneId) (p c : Nat) (i : Rv) (n : Nat) : State :=
  let k := (s.lane l).core c
  let next := k.pc + w32 n
  match i with
  | .lui rd imm => s.coreWrites l c rd imm next
  | .auipc rd imm => s.coreWrites l c rd (k.pc + imm) next
  | .jal rd imm => s.coreWrites l c rd next (k.pc + imm)
  | .jalr rd rs1 imm => s.coreWrites l c rd next ((k.reg rs1 + imm) &&& 0xFFFFFFFE#32)
  | .branch cond rs1 rs2 imm =>
    s.coreWrites l c 0 0 (if cond.holds (k.reg rs1) (k.reg rs2) then k.pc + imm else next)
  | .load size sgn rd rs1 imm =>
    let r := s.coreLoad l p c (k.reg rs1 + imm).toNat size
    r.2.coreWrites l c rd (if sgn then sext (8 * size) r.1 else w32 r.1) next
  | .store size rs1 rs2 imm =>
    match s.coreStore l p c (k.reg rs1 + imm).toNat size (k.reg rs2) with
    | some t => t.coreWrites l c 0 0 next
    | none => s.programFault l p c k.pc k.insnWord
  | .opImm f rd rs1 imm => s.coreWrites l c rd (f.eval (k.reg rs1) imm) next
  | .op f rd rs1 rs2 => s.coreWrites l c rd (f.eval (k.reg rs1) (k.reg rs2)) next
  | .fence => s.coreWrites l c 0 0 next
  | .ecall => s.envCall l p c

/-- One instruction of a core that executes step 5 of a cycle; a fetch outside the code range, or an encoding outside RV32IMC, is
a program fault (R132, R133). A core at the executive's return address has returned and executes nothing (R134). -/
def State.coreStep (s : State) (l : LaneId) (p c : Nat) : State :=
  let k := (s.lane l).core c
  if k.pc = (Config.execReturn &&& 0xFFFFFFFE#32) then s
  else match (s.lane l).fetch p c with
  | none => s.programFault l p c k.pc (Config.unfetched k.pc)
  | some (w, n) =>
    match decodeRv w n with
    | some i => s.rvEffect l p c i n
    | none => s.programFault l p c k.pc w

/-- Do `f` for a core that executes step 5 of its partition's cycle. -/
def State.asCore (s : State) (l : LaneId) (c : Nat) (f : Nat → State) : State :=
  match (s.lane l).running c with
  | some p => f p
  | none => s

/-! ### Rows -/

def execInstruction (l : LaneId) (core : Nat) (s : State) : Host.Outcome State Fault Refusal :=
  .next (s.asCore l core (fun p => s.coreStep l p core))

def execEcallPick (l : LaneId) (core : Nat) (s : State) : Host.Outcome State Fault Refusal :=
  .next (s.asCore l core (fun p => s.callPick l p core))

def execRingPost (l : LaneId) (core : Nat) (s : State) : Host.Outcome State Fault Refusal :=
  .next (s.asCore l core (fun p => s.callPost l p core))

def execRingTake (l : LaneId) (core : Nat) (s : State) : Host.Outcome State Fault Refusal :=
  .next (s.asCore l core (fun p => s.callTake l p core))

def execRestartCause (l : LaneId) (core : Nat) (s : State) : Host.Outcome State Fault Refusal :=
  .next (s.asCore l core (fun p => s.callCause l p core))

def execCycleInfo (l : LaneId) (core : Nat) (s : State) : Host.Outcome State Fault Refusal :=
  .next (s.asCore l core (fun p => s.callInfo l p core))

end Sys2Proof.Machine
end

