-- ==== Sys2Proof/Machine/Detectors.lean ====
section
/-! DEFINITION. Detectors of the lane dies and of the package (chapters 01 and 14): completion, stall and margin detectors, test
tokens, clock monitor, ECC, supervisor self-tests, and the collector's own comparison. -/

namespace Sys2Proof.Machine

/-- A stage group has one detector of each kind; there are 32 (Table 14-1). -/
def stageGroups : Nat := 32

/-- A completion detector sees the illegal code (R16): class L. -/
def State.completionDetected (s : State) (l : LaneId) (g : Nat) : State := if g < stageGroups then s.raise l (16 + g) true else s

/-- A stall detector has counted 1,000 beats (R17): class L. -/
def State.stalled (s : State) (l : LaneId) (g : Nat) : State := if g < stageGroups then s.raise l (48 + g) true else s

/-- A test token passes through stage group `g` at beat `now`; FLT_TOKEN_MAX keeps the longest interval in µs (R18, R491). -/
def Lane.tokenPasses (x : Lane) (g now : Nat) : Lane :=
  let us := match x.token.lookup g with | some t => (now - t) / 100 | none => 0
  ({ x with token := oset x.token g now } : Lane).onFlt (fun f => { f with
    tokenMax := if f.tokenMax.toNat < us then w32 us else f.tokenMax })

/-- TEST_TOKEN in a lane that runs. -/
def State.testToken (s : State) (l : LaneId) (g : Nat) : State :=
  if g < stageGroups && (s.lane l).collects then s.onLane l (fun x => x.tokenPasses g s.pkg.beat) else s

/-- A margin alarm takes the supply to 0.90 V whatever the pin, and raises the floor by 50 mV above the supply at which it occurred
(R19, R556). -/
def PwrBlk.alarm (p : PwrBlk) (now : Nat) : PwrBlk :=
  { p with core := 900, floor := min 900 (max p.floor (p.core + 50)), marginBeat := some now,
           coreSteps := if p.core = 900 then p.coreSteps else p.coreSteps + 1 }

/-- MARGIN_ALARM of core-supply domain `d`: class N. -/
def State.marginAlarm (s : State) (l : LaneId) (d : Nat) : State :=
  if d < 16 && (s.lane l).collects then (s.onLane l (fun x => x.onPwr (fun p => p.alarm s.pkg.beat))).flag l (80 + d) false else s

/-- A region that sees both copies of T6 lost: class S for the region (Table 01-2). -/
def State.regionsLoseClock (s : State) : State :=
  (List.range 8).foldl (fun (t : State) r =>
    (t.onFe r (fun f => { f with internalFault := true })).raiseBoth (bitRegion r 0) true) s

/-- The loss of T3: the calendar stops and time is invalid; posted writes are dropped (R33, R463). -/
def State.t3Loss (s : State) (l : LaneId) : State :=
  ((s.onDom (fun d => { d with t3Lost := true, timeValid := false })).dropPosts).raise l 6 true

/-- The clock of a timing island is lost in a lane: its crossings pass nothing and its counts stop (R33, R34). -/
def State.loseClock (s : State) (l : LaneId) (island : Nat) : State :=
  s.onLane l (fun x => if x.clockLost island then x else { x with lostClocks := oset x.lostClocks island s.pkg.beat })

/-- CLOCK_LOSS: the clock monitor of lane `l` finds the clock of a monitored island lost (R27, Table 01-2). T7 and T8 have no
monitor, and T4 has none on the TK512-M00. -/
def State.clockLoss (s : State) (l : LaneId) (island : Nat) : State :=
  if !(s.lane l).collects then s
  else match island with
    | 3 => s.t3Loss l
    | 4 => if s.pkg.order = .m00 then s else (s.loseClock l 4).raise l 7 true
    | 6 =>
      let s1 := s.loseClock l 6
      if (s.lane l.other).hasBit 9 then (s1.raise l 9 true).regionsLoseClock else s1.raise l 9 true
    | 1 => (s.loseClock l 1).raise l 4 true
    | 2 => (s.loseClock l 2).raise l 5 true
    | 5 => (s.loseClock l 5).raise l 8 true
    | _ => s

/-- ECC_ERROR of a bank: a corrected bit is class N and counts, an uncorrectable word is class L; FLT_SCRUB_MAX keeps the longest
pass (R489). -/
def State.eccError (s : State) (l : LaneId) (bank : Nat) (uncorrectable : Bool) (us : Nat) : State :=
  if 32 ≤ bank || !(s.lane l).collects then s
  else
    let s1 := s.onLane l (fun x => x.onFlt (fun f => { f with
      scrubMax := if f.scrubMax.toNat < us then w32 us else f.scrubMax
      corrCount := if uncorrectable then f.corrCount else f.corrCount + 1 }))
    if uncorrectable then s1.raise l (96 + bank) true else s1.flag l (128 + bank) false

/-- The result of a supervisor's last self-test, in both lanes (Table 17-6). -/
def PwrBlk.tested (p : PwrBlk) (sup : Nat) (passed : Bool) : PwrBlk :=
  if sup = 0 then { p with sup0Ok := passed } else { p with sup1Ok := passed }

/-- Both supervisors have failed bits set in a lane: class G (R490). -/
def State.bothSupervisors (s : State) (l : LaneId) : State :=
  if (s.lane l).hasBit 176 && (s.lane l).hasBit 177 then s.raise l 178 true else s

/-- SUPERVISOR_SELF_TEST: a failed test is class N until the supervisor's next test passes (R490). -/
def State.supervisorTest (s : State) (sup : Nat) (passed : Bool) : State :=
  if 2 ≤ sup then s
  else
    let s1 := (s.onLane .a (fun x => x.onPwr (fun p => p.tested sup passed))).onLane .b
      (fun x => x.onPwr (fun p => p.tested sup passed))
    if passed then
      (s1.onPkg (fun k => { k with supFailed := k.supFailed.filter (· ≠ sup) })).endCauseBoth (176 + sup)
    else
      (((s1.onPkg (fun k => { k with supFailed := insSorted sup k.supFailed })).flagBoth (176 + sup) true).bothSupervisors .a).bothSupervisors .b

/-- COLLECTOR_DISAGREE: a register pair of a collector differs: bit 0, and class G (R487). -/
def State.collectorDiffers (s : State) (l : LaneId) : State :=
  if (s.lane l).collects then (s.onLane l (fun x => x.onFlt (fun f => { f with dupOk := false }))).raise l 0 true else s

/-! ### Rows -/

def execCompletionDetection (l : LaneId) (group beat : Nat) (s : State) : Host.Outcome State Fault Refusal :=
  .next ((s.at_ beat).completionDetected l group)

def execStallDetected (l : LaneId) (group beat : Nat) (s : State) : Host.Outcome State Fault Refusal :=
  .next ((s.at_ beat).stalled l group)

def execTestToken (l : LaneId) (group beat : Nat) (s : State) : Host.Outcome State Fault Refusal :=
  .next ((s.at_ beat).testToken l group)

def execMarginAlarm (l : LaneId) (domain beat : Nat) (s : State) : Host.Outcome State Fault Refusal :=
  .next ((s.at_ beat).marginAlarm l domain)

def execClockLoss (l : LaneId) (island beat : Nat) (s : State) : Host.Outcome State Fault Refusal :=
  .next ((s.at_ beat).clockLoss l island)

def execEccError (l : LaneId) (bank : Nat) (uncorrectable : Bool) (passUs beat : Nat) (s : State) :
    Host.Outcome State Fault Refusal := .next ((s.at_ beat).eccError l bank uncorrectable passUs)

def execSupervisorSelfTest (sup : Nat) (passed : Bool) (beat : Nat) (s : State) : Host.Outcome State Fault Refusal :=
  .next ((s.at_ beat).supervisorTest sup passed)

def execCollectorDisagree (l : LaneId) (beat : Nat) (s : State) : Host.Outcome State Fault Refusal :=
  .next ((s.at_ beat).collectorDiffers l)

end Sys2Proof.Machine
end

