-- ==== Sys2Proof/Machine/Dispatch.lean ====
section
/-! DEFINITION. One arm per constructor of `Instr`: the command's meaning, or its rejection by name. -/

namespace Sys2Proof.Machine

def exec (i : Instr) (s : State) : Host.Outcome State Fault Refusal :=
  match i with
  | .nop h => Sys2Proof.Machine.execNop h s
  | .echo h bytes => Sys2Proof.Machine.execEcho h bytes s
  | .identify h => Sys2Proof.Machine.execIdentify h s
  | .getMeasurement h nonce => Sys2Proof.Machine.execGetMeasurement h nonce s
  | .pick h => Sys2Proof.Machine.execPick h s
  | .eventSubscribeStart h kinds ackSeq => Sys2Proof.Machine.execEventSubscribeStart h kinds ackSeq s
  | .eventSubscribeStop h kinds ackSeq => Sys2Proof.Machine.execEventSubscribeStop h kinds ackSeq s
  | .eventSubscribeAck h kinds ackSeq => Sys2Proof.Machine.execEventSubscribeAck h kinds ackSeq s
  | .readPoints h first count => Sys2Proof.Machine.execReadPoints h first count s
  | .writePoints h items => Sys2Proof.Machine.execWritePoints h items s
  | .forceSet h f => Sys2Proof.Machine.execForceSet h f s
  | .forceClear h mode f => Sys2Proof.Machine.execForceClear h mode f s
  | .forceList h start max => Sys2Proof.Machine.execForceList h start max s
  | .configUnits h items => Sys2Proof.Machine.execConfigUnits h items s
  | .heddleLoad h region offset data => Sys2Proof.Machine.execHeddleLoad h region offset data s
  | .heddleCommit h region crc => Sys2Proof.Machine.execHeddleCommit h region crc s
  | .loopConfigLoop h index owner words => Sys2Proof.Machine.execLoopConfigLoop h index owner words s
  | .loopConfigGroup h index period phase en => Sys2Proof.Machine.execLoopConfigGroup h index period phase en s
  | .loopBankWrite h loop words => Sys2Proof.Machine.execLoopBankWrite h loop words s
  | .loopBankSwap h loop bumpless gen => Sys2Proof.Machine.execLoopBankSwap h loop bumpless gen s
  | .loopStatus h first count => Sys2Proof.Machine.execLoopStatus h first count s
  | .patternClear h p => Sys2Proof.Machine.execPatternClear h p s
  | .patternRead h p => Sys2Proof.Machine.execPatternRead h p s
  | .patternWrite h p => Sys2Proof.Machine.execPatternWrite h p s
  | .patternSave h p => Sys2Proof.Machine.execPatternSave h p s
  | .meterConfig h items => Sys2Proof.Machine.execMeterConfig h items s
  | .meterRead h set first count => Sys2Proof.Machine.execMeterRead h set first count s
  | .meterResetAccum h circuit => Sys2Proof.Machine.execMeterResetAccum h circuit s
  | .meterLossReport h first count => Sys2Proof.Machine.execMeterLossReport h first count s
  | .programLoad h part length transfer => Sys2Proof.Machine.execProgramLoad h part length transfer s
  | .programExchange h part retainMatch gen => Sys2Proof.Machine.execProgramExchange h part retainMatch gen s
  | .restart h part mode mask => Sys2Proof.Machine.execRestart h part mode mask s
  | .cycleStatus h part => Sys2Proof.Machine.execCycleStatus h part s
  | .retainSave h part => Sys2Proof.Machine.execRetainSave h part s
  | .recFreeze h => Sys2Proof.Machine.execRecFreeze h s
  | .recRead h start max => Sys2Proof.Machine.execRecRead h start max s
  | .recThaw h => Sys2Proof.Machine.execRecThaw h s
  | .timeGet h => Sys2Proof.Machine.execTimeGet h s
  | .timeSet h d => Sys2Proof.Machine.execTimeSet h d s
  | .timeTrim h trim => Sys2Proof.Machine.execTimeTrim h trim s
  | .keyLoadBlob h slot blob => Sys2Proof.Machine.execKeyLoadBlob h slot blob s
  | .kekEscrowRestore h blob => Sys2Proof.Machine.execKekEscrowRestore h blob s
  | .keyUnload h slot erase => Sys2Proof.Machine.execKeyUnload h slot erase s
  | .provisionKekGenerate h => Sys2Proof.Machine.execProvisionKekGenerate h s
  | .provisionKekWrap h key attrs => Sys2Proof.Machine.execProvisionKekWrap h key attrs s
  | .lifecycleGet h => Sys2Proof.Machine.execLifecycleGet h s
  | .lifecycleAdvance h target confirm => Sys2Proof.Machine.execLifecycleAdvance h target confirm s
  | .netConfig h n => Sys2Proof.Machine.execNetConfig h n s
  | .filterSet h f => Sys2Proof.Machine.execFilterSet h f s
  | .canConfig h c => Sys2Proof.Machine.execCanConfig h c s
  | .canMailboxSet h m => Sys2Proof.Machine.execCanMailboxSet h m s
  | .faultStatus h first count => Sys2Proof.Machine.execFaultStatus h first count s
  | .faultAck h scope index => Sys2Proof.Machine.execFaultAck h scope index s
  | .laneStatus h => Sys2Proof.Machine.execLaneStatus h s
  | .lanePrefer h prefer holdoff => Sys2Proof.Machine.execLanePrefer h prefer holdoff s
  | .policyGet h item first count => Sys2Proof.Machine.execPolicyGet h item first count s
  | .policyPin h item index value => Sys2Proof.Machine.execPolicyPin h item index value s
  | .policyUnpin h item index value => Sys2Proof.Machine.execPolicyUnpin h item index value s
  | .moduleSet h items => Sys2Proof.Machine.execModuleSet h items s
  | .moduleGet h item index => Sys2Proof.Machine.execModuleGet h item index s
  | .pendingReply l sender seq beat => Sys2Proof.Machine.execPendingReply l sender seq beat s
  | .instruction l core => Sys2Proof.Machine.execInstruction l core s
  | .ecallPick l core => Sys2Proof.Machine.execEcallPick l core s
  | .ringPost l core => Sys2Proof.Machine.execRingPost l core s
  | .ringTake l core => Sys2Proof.Machine.execRingTake l core s
  | .restartCause l core => Sys2Proof.Machine.execRestartCause l core s
  | .cycleInfo l core => Sys2Proof.Machine.execCycleInfo l core s
  | .pickReq l core => Sys2Proof.Machine.execPickReq l core s
  | .sysWideMbx l r v => Sys2Proof.Machine.execSysWideMbx l r v s
  | .laneDigestMbx l r v => Sys2Proof.Machine.execLaneDigestMbx l r v s
  | .hedSnapMbx l r v => Sys2Proof.Machine.execHedSnapMbx l r v s
  | .loopBankMbx l r v => Sys2Proof.Machine.execLoopBankMbx l r v s
  | .nrgAccMbx l r v => Sys2Proof.Machine.execNrgAccMbx l r v s
  | .rtcTimeMbx l r v => Sys2Proof.Machine.execRtcTimeMbx l r v s
  | .keySlotMbx l r v => Sys2Proof.Machine.execKeySlotMbx l r v s
  | .keyMeasMbx l r v => Sys2Proof.Machine.execKeyMeasMbx l r v s
  | .recWinMbx l r v => Sys2Proof.Machine.execRecWinMbx l r v s
  | .mailboxCaptureDone l r m => Sys2Proof.Machine.execMailboxCaptureDone l r m s
  | .rtcTime0Read l r beat => Sys2Proof.Machine.execRtcTime0Read l r beat s
  | .rtcTime4Read l r => Sys2Proof.Machine.execRtcTime4Read l r s
  | .rtcFreezeTimeout l r beat => Sys2Proof.Machine.execRtcFreezeTimeout l r beat s
  | .rtcTick => Sys2Proof.Machine.execRtcTick s
  | .ringDoorbellPost l ring n => Sys2Proof.Machine.execRingDoorbellPost l ring n s
  | .ringDoorbellTake l ring n => Sys2Proof.Machine.execRingDoorbellTake l ring n s
  | .fltAck l v => Sys2Proof.Machine.execFltAck l v s
  | .rtcSetGo l v => Sys2Proof.Machine.execRtcSetGo l v s
  | .recover l bus v => Sys2Proof.Machine.execRecover l bus v s
  | .recCtlFreeze l => Sys2Proof.Machine.execRecCtlFreeze l s
  | .recCtlThaw l => Sys2Proof.Machine.execRecCtlThaw l s
  | .postedWrite l r v => Sys2Proof.Machine.execPostedWrite l r v s
  | .postedWriteTaken l r => Sys2Proof.Machine.execPostedWriteTaken l r s
  | .registerWrite l r addr v => Sys2Proof.Machine.execRegisterWrite l r addr v s
  | .pickRequestAccept => Sys2Proof.Machine.execPickRequestAccept s
  | .pickClose beat => Sys2Proof.Machine.execPickClose beat s
  | .closeReceived l => Sys2Proof.Machine.execCloseReceived l s
  | .epochExchange l => Sys2Proof.Machine.execEpochExchange l s
  | .epochRelease l beat => Sys2Proof.Machine.execEpochRelease l beat s
  | .soloRelease l beat => Sys2Proof.Machine.execSoloRelease l beat s
  | .agreementTimeout l beat => Sys2Proof.Machine.execAgreementTimeout l beat s
  | .cycleExecutivePick l beat => Sys2Proof.Machine.execCycleExecutivePick l beat s
  | .ready l part beat => Sys2Proof.Machine.execReady l part beat s
  | .readyReceived l part => Sys2Proof.Machine.execReadyReceived l part s
  | .readyLate l part beat => Sys2Proof.Machine.execReadyLate l part beat s
  | .lateReadinessWindow l part beat => Sys2Proof.Machine.execLateReadinessWindow l part beat s
  | .cycleRunStart l part beat => Sys2Proof.Machine.execCycleRunStart l part beat s
  | .coreReturn l core beat => Sys2Proof.Machine.execCoreReturn l core beat s
  | .watchdogOverrun part beat => Sys2Proof.Machine.execWatchdogOverrun part beat s
  | .overrunNotice l part => Sys2Proof.Machine.execOverrunNotice l part s
  | .partitionStarting l part => Sys2Proof.Machine.execPartitionStarting l part s
  | .exchangeStaged l part digestOk => Sys2Proof.Machine.execExchangeStaged l part digestOk s
  | .planDigest l part => Sys2Proof.Machine.execPlanDigest l part s
  | .install l part => Sys2Proof.Machine.execInstall l part s
  | .exchangeTimeout l part beat => Sys2Proof.Machine.execExchangeTimeout l part beat s
  | .savePeriodExpiry beat => Sys2Proof.Machine.execSavePeriodExpiry beat s
  | .saveComplete l => Sys2Proof.Machine.execSaveComplete l s
  | .writeRetry l readBackOk => Sys2Proof.Machine.execWriteRetry l readBackOk s
  | .sampleFrame l region linkOk => Sys2Proof.Machine.execSampleFrame l region linkOk s
  | .frameCheck l region resentOk => Sys2Proof.Machine.execFrameCheck l region resentOk s
  | .outputUpdate l region beat => Sys2Proof.Machine.execOutputUpdate l region beat s
  | .regionUpdateTimer l region beat => Sys2Proof.Machine.execRegionUpdateTimer l region beat s
  | .updateTimeout l region beat => Sys2Proof.Machine.execUpdateTimeout l region beat s
  | .disagreementWindow region beat => Sys2Proof.Machine.execDisagreementWindow region beat s
  | .commitDigest l part beat => Sys2Proof.Machine.execCommitDigest l part beat s
  | .digestWindow l beat => Sys2Proof.Machine.execDigestWindow l beat s
  | .keepalive l sub beat => Sys2Proof.Machine.execKeepalive l sub beat s
  | .subLinkLoss l sub beat => Sys2Proof.Machine.execSubLinkLoss l sub beat s
  | .heartbeatToggle l beat => Sys2Proof.Machine.execHeartbeatToggle l beat s
  | .heartbeatMissing l beat => Sys2Proof.Machine.execHeartbeatMissing l beat s
  | .faultLine l beat => Sys2Proof.Machine.execFaultLine l beat s
  | .faultNotice l beat => Sys2Proof.Machine.execFaultNotice l beat s
  | .rejoinReset l => Sys2Proof.Machine.execRejoinReset l s
  | .rejoinSelfTest l passed beat => Sys2Proof.Machine.execRejoinSelfTest l passed beat s
  | .rejoinKeys l beat => Sys2Proof.Machine.execRejoinKeys l beat s
  | .rejoinPreCopy l => Sys2Proof.Machine.execRejoinPreCopy l s
  | .rejoinFinalCopy l part => Sys2Proof.Machine.execRejoinFinalCopy l part s
  | .rejoinEngineState l group => Sys2Proof.Machine.execRejoinEngineState l group s
  | .rejoinJoin l beat => Sys2Proof.Machine.execRejoinJoin l beat s
  | .regionFrame region samples => Sys2Proof.Machine.execRegionFrame region samples s
  | .testSlot region ms beat results => Sys2Proof.Machine.execTestSlot region ms beat results s
  | .overcurrent point beat => Sys2Proof.Machine.execOvercurrent point beat s
  | .fieldSupplyFault region f => Sys2Proof.Machine.execFieldSupplyFault region f s
  | .thresholdCrossing point codeA codeB => Sys2Proof.Machine.execThresholdCrossing point codeA codeB s
  | .literalVector l region beat => Sys2Proof.Machine.execLiteralVector l region beat s
  | .vectorRefresh region beat => Sys2Proof.Machine.execVectorRefresh region beat s
  | .vectorTimeout l region beat => Sys2Proof.Machine.execVectorTimeout l region beat s
  | .inhibitMessage l region => Sys2Proof.Machine.execInhibitMessage l region s
  | .crcCheck region crcA crcB => Sys2Proof.Machine.execCrcCheck region crcA crcB s
  | .crossRegionCrcCheck l region crc beat => Sys2Proof.Machine.execCrossRegionCrcCheck l region crc beat s
  | .walkingVector region passed => Sys2Proof.Machine.execWalkingVector region passed s
  | .heddlePersist l region => Sys2Proof.Machine.execHeddlePersist l region s
  | .heddleVerify l region reported => Sys2Proof.Machine.execHeddleVerify l region reported s
  | .heddleSwitchOverlapEnd region => Sys2Proof.Machine.execHeddleSwitchOverlapEnd region s
  | .heddleMark l region beat => Sys2Proof.Machine.execHeddleMark l region beat s
  | .sampleInstant group beat => Sys2Proof.Machine.execSampleInstant group beat s
  | .sampleMessage l group => Sys2Proof.Machine.execSampleMessage l group s
  | .sampleComputation l group beat => Sys2Proof.Machine.execSampleComputation l group beat s
  | .onTimeJudgement group complete beat => Sys2Proof.Machine.execOnTimeJudgement group complete beat s
  | .judgementMessage l group => Sys2Proof.Machine.execJudgementMessage l group s
  | .outputPhase l group beat => Sys2Proof.Machine.execOutputPhase l group beat s
  | .lateSample l group beat => Sys2Proof.Machine.execLateSample l group beat s
  | .lateSampleWindow l group beat => Sys2Proof.Machine.execLateSampleWindow l group beat s
  | .blockCrc l beat => Sys2Proof.Machine.execBlockCrc l beat s
  | .windowEnd beat => Sys2Proof.Machine.execWindowEnd beat s
  | .windowMessage l => Sys2Proof.Machine.execWindowMessage l s
  | .pulseStart output beat => Sys2Proof.Machine.execPulseStart output beat s
  | .pulseEnd output beat => Sys2Proof.Machine.execPulseEnd output beat s
  | .netFrameReceived l port f beat => Sys2Proof.Machine.execNetFrameReceived l port f beat s
  | .pauseTimerExpiry l port beat => Sys2Proof.Machine.execPauseTimerExpiry l port beat s
  | .pauseRepeat l port beat => Sys2Proof.Machine.execPauseRepeat l port beat s
  | .pauseLong l port beat => Sys2Proof.Machine.execPauseLong l port beat s
  | .pauseCapped l port beat => Sys2Proof.Machine.execPauseCapped l port beat s
  | .arpRequest l => Sys2Proof.Machine.execArpRequest l s
  | .neighbourSolicitation l => Sys2Proof.Machine.execNeighbourSolicitation l s
  | .echoRequest l => Sys2Proof.Machine.execEchoRequest l s
  | .intakeInterval beat => Sys2Proof.Machine.execIntakeInterval beat s
  | .prpSourceAgeout l pair mac beat => Sys2Proof.Machine.execPrpSourceAgeout l pair mac beat s
  | .txFrameStart l port beat => Sys2Proof.Machine.execTxFrameStart l port beat s
  | .txUnderrun l port beat => Sys2Proof.Machine.execTxUnderrun l port beat s
  | .sfHoldEnd l port beat => Sys2Proof.Machine.execSfHoldEnd l port beat s
  | .txAgedDrop l port beat => Sys2Proof.Machine.execTxAgedDrop l port beat s
  | .prpSupervisionTimer l beat => Sys2Proof.Machine.execPrpSupervisionTimer l beat s
  | .linkLoss l port => Sys2Proof.Machine.execLinkLoss l port s
  | .speedDecision l port raise beat => Sys2Proof.Machine.execSpeedDecision l port raise beat s
  | .renegotiationTimeout l port beat => Sys2Proof.Machine.execRenegotiationTimeout l port beat s
  | .lowerSuspendedEnd l port beat => Sys2Proof.Machine.execLowerSuspendedEnd l port beat s
  | .bulkSegment l => Sys2Proof.Machine.execBulkSegment l s
  | .bulkTimeout l part transfer beat => Sys2Proof.Machine.execBulkTimeout l part transfer beat s
  | .eventResend l part beat => Sys2Proof.Machine.execEventResend l part beat s
  | .subscriptionEnd l part beat => Sys2Proof.Machine.execSubscriptionEnd l part beat s
  | .spWrite bytes length complete => Sys2Proof.Machine.execSpWrite bytes length complete s
  | .spRead complete => Sys2Proof.Machine.execSpRead complete s
  | .spStatus => Sys2Proof.Machine.execSpStatus s
  | .canFrameCapture l bus f sof => Sys2Proof.Machine.execCanFrameCapture l bus f sof s
  | .canIntake l bus => Sys2Proof.Machine.execCanIntake l bus s
  | .canTxTake l beat => Sys2Proof.Machine.execCanTxTake l beat s
  | .canTxComplete l bus mailbox => Sys2Proof.Machine.execCanTxComplete l bus mailbox s
  | .canTxAged l bus beat => Sys2Proof.Machine.execCanTxAged l bus beat s
  | .busOff l bus beat => Sys2Proof.Machine.execBusOff l bus beat s
  | .busOffRecovery l bus => Sys2Proof.Machine.execBusOffRecovery l bus s
  | .recoveryWaitEnd l bus beat => Sys2Proof.Machine.execRecoveryWaitEnd l bus beat s
  | .stuckDom l bus => Sys2Proof.Machine.execStuckDom l bus s
  | .rtcAlarm n => Sys2Proof.Machine.execRtcAlarm n s
  | .epochWrap => Sys2Proof.Machine.execEpochWrap s
  | .cellLow millivolts => Sys2Proof.Machine.execCellLow millivolts s
  | .kekRemask mask => Sys2Proof.Machine.execKekRemask mask s
  | .domainPowerOnReset => Sys2Proof.Machine.execDomainPowerOnReset s
  | .tamper src => Sys2Proof.Machine.execTamper src s
  | .completionDetection l group beat => Sys2Proof.Machine.execCompletionDetection l group beat s
  | .stallDetected l group beat => Sys2Proof.Machine.execStallDetected l group beat s
  | .testToken l group beat => Sys2Proof.Machine.execTestToken l group beat s
  | .marginAlarm l domain beat => Sys2Proof.Machine.execMarginAlarm l domain beat s
  | .clockLoss l island beat => Sys2Proof.Machine.execClockLoss l island beat s
  | .makerTestPin => Sys2Proof.Machine.execMakerTestPin s
  | .eccError l bank uncorrectable passUs beat => Sys2Proof.Machine.execEccError l bank uncorrectable passUs beat s
  | .supervisorSelfTest sup passed beat => Sys2Proof.Machine.execSupervisorSelfTest sup passed beat s
  | .collectorDisagree l beat => Sys2Proof.Machine.execCollectorDisagree l beat s
  | .frontEndHeartbeatLoss region beat => Sys2Proof.Machine.execFrontEndHeartbeatLoss region beat s
  | .coreSupplyStep l beat => Sys2Proof.Machine.execCoreSupplyStep l beat s
  | .supplyWarning beat => Sys2Proof.Machine.execSupplyWarning beat s
  | .finalSaveDone l beat => Sys2Proof.Machine.execFinalSaveDone l beat s
  | .warningCleared beat => Sys2Proof.Machine.execWarningCleared beat s
  | .vrstReset => Sys2Proof.Machine.execVrstReset s
  | .resetRelease beat => Sys2Proof.Machine.execResetRelease beat s
  | .bootComplete l slotVerified version stages => Sys2Proof.Machine.execBootComplete l slotVerified version stages s
  | .startupSelfTest l passed beat => Sys2Proof.Machine.execStartupSelfTest l passed beat s
  | .laneAnnouncement l beat => Sys2Proof.Machine.execLaneAnnouncement l beat s
  | .pairingTimeout l beat => Sys2Proof.Machine.execPairingTimeout l beat s
  | .startupConfiguration l => Sys2Proof.Machine.execStartupConfiguration l s
  | .startupFrontEnds l beat => Sys2Proof.Machine.execStartupFrontEnds l beat s
  | .linkUp l port beat => Sys2Proof.Machine.execLinkUp l port beat s
  | .t3ClockRestored => Sys2Proof.Machine.execT3ClockRestored s
  | .decimatorBlock l vin iin => Sys2Proof.Machine.execDecimatorBlock l vin iin s
  | .readbackFault point beat => Sys2Proof.Machine.execReadbackFault point beat s
  | .frontEndRestart region => Sys2Proof.Machine.execFrontEndRestart region s
  | .fieldSupplyRestored region => Sys2Proof.Machine.execFieldSupplyRestored region s
  | .laneSupplyFault l beat => Sys2Proof.Machine.execLaneSupplyFault l beat s
  | .canBusError l bus tec rec => Sys2Proof.Machine.execCanBusError l bus tec rec s
  | .stuckDomCleared l bus => Sys2Proof.Machine.execStuckDomCleared l bus s
  | .flashWriteComplete l beat => Sys2Proof.Machine.execFlashWriteComplete l beat s
  | .makerSessionOpen signatureOk => Sys2Proof.Machine.execMakerSessionOpen signatureOk s

end Sys2Proof.Machine
end

