-- ==== Sys2Proof/Safety.lean ====
section
/-! DEFINITION. What counts as a safe run of the block, in the terms the statements use: a command that completes, a property
that every step keeps, the states that a run reaches. -/

namespace Sys2Proof.Machine

/-- Command `i` completes at `s`: `exec` answers a next state, and that state satisfies `P`. -/
def Completes (i : Instr) (s : State) (P : State → Prop) : Prop := ∃ t, exec i s = .next t ∧ P t

/-- A step at `s` neither faults nor is refused. -/
def Safe (s : State) : Prop := ∃ t, step s = .next t

/-- Every step from a state with `P` ends in a state with `P`. -/
def KeptBySteps (P : State → Prop) : Prop := ∀ s t, P s → step s = .next t → P t

/-- `t` is reached from `s` by steps. -/
inductive Reaches : State → State → Prop where
  | refl (s : State) : Reaches s s
  | tail {s t u : State} : Reaches s t → step t = .next u → Reaches s u

/-- What a step has done with the command at the front of the queue: it is gone, and the rest stands as it stood. -/
def Consumed (s t : State) : Prop := t.pending = s.pending.tail

/-- The memories of an application core and of a partition in a lane are in canonical form. -/
def Lane.memWf (x : Lane) : Prop := (∀ k, Memory.wf (x.core k).mem = true) ∧ (∀ p, Memory.wf (x.part p).shared = true)

/-- Every memory of the block that programs see is in canonical form. -/
def State.memWf (s : State) : Prop := s.a.memWf ∧ s.b.memWf

/-- Every byte of the memories that programs see reads in `t` as it read in `s`. -/
def SameMemory (s t : State) : Prop :=
  ∀ l, (∀ c a, tget 0 ((t.lane l).core c).mem a = tget 0 ((s.lane l).core c).mem a) ∧
    ∀ p a, tget 0 ((t.lane l).part p).shared a = tget 0 ((s.lane l).part p).shared a

/-- The registers of every application core read in `t` as in `s`. -/
def SameCoreRegs (s t : State) : Prop := ∀ l c r, ((t.lane l).core c).reg r = ((s.lane l).core c).reg r

/-- The transitions of Table 16-7 that a command makes. -/
def lifeStep : LifeCycle → LifeCycle → Bool
  | .maker, .issued => true
  | .issued, .sealed => true
  | .issued, .returned => true
  | .sealed, .returned => true
  | .returned, .issued => true
  | .maker, .void => true
  | .returned, .void => true
  | .issued, .void => true
  | .sealed, .void => true
  | _, _ => false

/-- A life-cycle state is reached from another through transitions of Table 16-7. -/
inductive LifeReaches : LifeCycle → LifeCycle → Prop where
  | refl (a : LifeCycle) : LifeReaches a a
  | tail {a b c : LifeCycle} : LifeReaches a b → lifeStep b c = true → LifeReaches a c

/-- The life cycle of a state is in order: a transition in progress is one that Table 16-7 permits, to RETURNED or VOID, and LC_GEN
is in its range (R537, R538). -/
def State.lifeOk (s : State) : Prop :=
  (∀ c b, s.pkg.transition = some (c, b) → lifeStep s.pkg.life c = true ∧ (c = .void ∨ c = .returned)) ∧ s.pkg.lcGen.toNat ≤ 15

/-! ### Commands that are accepted -/

/-- Lane `l` alone takes part in agreement (R70). -/
def State.Alone (s : State) (l : LaneId) : Prop := (s.lane l).releases = true ∧ (s.lane l.other).releases = false

/-- Both lanes take part in agreement. -/
def State.Both (s : State) : Prop := s.a.releases = true ∧ s.b.releases = true

/-- A command passes steps 3 to 10 of Table 09-5 in lane `l`: its flags and status are in order, its PICK is not ahead, the module's
state admits its opcode; and when it is protected, its partition's command key is held, its stamp is of that key, its SEQ is fresh and
its partition has credit. -/
def State.Accepts (s : State) (l : LaneId) (h : Hdr) (op : Op) : Prop :=
  h.flagsOk = true ∧ h.statusZero = true ∧
  ((h.pick - s.releasedEpoch).toNat = 0 ∨ 2 ^ 31 ≤ (h.pick - s.releasedEpoch).toNat) ∧
  s.earlyRefusal h op = none ∧
  (∀ p, h.sender = some p → ∃ n k g, (s.lane l).keyOf 1 p = some (n, k, g) ∧ h.keyGen = some g ∧
    freshSeq ((s.lane l).sender p).high.toNat ((s.lane l).sender p).marked h.seq.toNat = true ∧ (s.lane l).outstandingOf p < 16)

/-- The state once an accepted command has entered the window and the reply cache of its sender (R338, R339). -/
def State.entered (s : State) (l : LaneId) (h : Hdr) (op : Op) : State :=
  match h.sender with
  | none => s
  | some p => s.onLane l (fun x => x.onSender p (fun q => q.takeFresh h op))

/-- A command that has changed `u` into `t` in lane `l` is answered OK with parameters `ps`: WRES, the notices to the owners of what
changed, and the reply, sealed with the key that its sender held before (R342, R440, R455). -/
def State.answered (u t : State) (l : LaneId) (h : Hdr) (op : Op) (ps : List Byte) : State :=
  (t.onLane l (fun x => (x.commandWres (u.lane l) l op).notice h (opCode op) u.releasedEpoch
    ((u.lane l).changedOwners op ++ (t.lane l).changedOwners op) (opBytes op))).replyWith l ((u.lane l).replyKey h) h (opCode op) .ok ps
    u.releasedEpoch

/-- A command that has changed `u` into `t` in lane `l` waits for what `why` names before its final reply (R348). -/
def State.waits (u t : State) (l : LaneId) (h : Hdr) (op : Op) (why : Waiting) : State :=
  t.onLane l (fun x => x.onMan (fun m => { m with
    outstanding := m.outstanding ++ [⟨h, op, u.releasedEpoch, u.pkg.beat, why, false, t.pkg.beat⟩] }))

/-- A command that has changed `u` into `t` in lane `l` has opened bulk transfer `i` of partition `p`: it is answered PENDING and
waits for the transfer's end (R348, R366). -/
def State.opens (u t : State) (l : LaneId) (h : Hdr) (op : Op) (p i : Nat) : State :=
  (t.onLane l (fun x => x.onMan (fun m => { m with
    outstanding := m.outstanding ++ [⟨h, op, u.releasedEpoch, u.pkg.beat, .transfer p i, true, u.pkg.beat⟩] }))).replyWith l
    ((u.lane l).replyKey h) h (opCode op) .pending [] u.releasedEpoch

/-- Lane `l` is alone in agreement, and accepts the command, whose reserved bytes and bits are 0. -/
def State.Ready (s : State) (l : LaneId) (h : Hdr) (op : Op) : Prop := s.Alone l ∧ s.Accepts l h op ∧ h.reservedOk = true

/-- Command row `i`, accepted at `s` by lane `l` with its own check `c` passed, makes the change `f` and is answered OK with `ps`. -/
def AnswersOk (i : Instr) (s : State) (l : LaneId) (h : Hdr) (op : Op) (c : State → Option Status) (f : State → State)
    (ps : State → List Byte) : Prop :=
  s.Ready l h op → c (s.entered l h op) = none →
    exec i s = .next (((s.entered l h op).answered (f (s.entered l h op)) l h op (ps (s.entered l h op))).onLane l Lane.reserve)

/-- Command row `i`, accepted at `s` by lane `l` with its own check `c` passed, makes the change `f` and waits for `why`. -/
def AnswersLater (i : Instr) (s : State) (l : LaneId) (h : Hdr) (op : Op) (c : State → Option Status) (f : State → State)
    (why : State → Waiting) : Prop :=
  s.Ready l h op → c (s.entered l h op) = none →
    exec i s = .next (((s.entered l h op).waits (f (s.entered l h op)) l h op (why (s.entered l h op))).onLane l Lane.reserve)

/-- The reply of lane `l`, alone in agreement, to a command whose reply carries lane-local values: its own capture, the other lane's
fields 0 (R347). -/
def State.ownReply (s : State) (l : LaneId) (h : Hdr) (op : Op) : List Byte :=
  let c := orderCaptures op l true (s.capture l op) []
  s.jointBytes l h op c.1 c.2

/-- No capture that the other lane has sent is left for this command (R347). -/
def State.noOutcome (s : State) (h : Hdr) : Prop := ∀ o ∈ s.pkg.outcomes, ¬ (o.1 = h ∧ o.2.1 = s.releasedEpoch)

/-- The Skelkan command that a row of the table is, and its operation. -/
def commandOf : Instr → Option (Hdr × Op)
  | .nop h => some (h, .nop)
  | .echo h bs => some (h, .echo bs)
  | .identify h => some (h, .identify)
  | .getMeasurement h n => some (h, .getMeasurement n)
  | .pick h => some (h, .pick)
  | .eventSubscribeStart h k a => some (h, .subStart k a)
  | .eventSubscribeStop h k a => some (h, .subStop k a)
  | .eventSubscribeAck h k a => some (h, .subAck k a)
  | .readPoints h f c => some (h, .readPoints f c)
  | .writePoints h is => some (h, .writePoints is)
  | .forceSet h f => some (h, .forceSet f)
  | .forceClear h m f => some (h, .forceClear m f)
  | .forceList h a m => some (h, .forceList a m)
  | .configUnits h is => some (h, .configUnits is)
  | .heddleLoad h r o d => some (h, .heddleLoad r o d)
  | .heddleCommit h r c => some (h, .heddleCommit r c)
  | .loopConfigLoop h i o ws => some (h, .loopConfigLoop i o ws)
  | .loopConfigGroup h i p ph en => some (h, .loopConfigGroup i p ph en)
  | .loopBankWrite h n ws => some (h, .loopBankWrite n ws)
  | .loopBankSwap h n b g => some (h, .loopBankSwap n b g)
  | .loopStatus h f c => some (h, .loopStatus f c)
  | .patternClear h p => some (h, .patternClear p)
  | .patternRead h p => some (h, .patternRead p)
  | .patternWrite h p => some (h, .patternWrite p)
  | .patternSave h p => some (h, .patternSave p)
  | .meterConfig h is => some (h, .meterConfig is)
  | .meterRead h st f c => some (h, .meterRead st f c)
  | .meterResetAccum h c => some (h, .meterReset c)
  | .meterLossReport h f c => some (h, .meterLoss f c)
  | .programLoad h p n t => some (h, .programLoad p n t)
  | .programExchange h p r g => some (h, .programExchange p r g)
  | .restart h p m k => some (h, .restart p m k)
  | .cycleStatus h p => some (h, .cycleStatus p)
  | .retainSave h p => some (h, .retainSave p)
  | .recFreeze h => some (h, .recFreeze)
  | .recRead h a m => some (h, .recRead a m)
  | .recThaw h => some (h, .recThaw)
  | .timeGet h => some (h, .timeGet)
  | .timeSet h d => some (h, .timeSet d)
  | .timeTrim h v => some (h, .timeTrim v)
  | .keyLoadBlob h n b => some (h, .keyLoad n b)
  | .kekEscrowRestore h b => some (h, .escrowRestore b)
  | .keyUnload h n e => some (h, .keyUnload n e)
  | .provisionKekGenerate h => some (h, .kekGenerate)
  | .provisionKekWrap h k a => some (h, .kekWrap k a)
  | .lifecycleGet h => some (h, .lifecycleGet)
  | .lifecycleAdvance h t c => some (h, .lifecycleAdvance t c)
  | .netConfig h n => some (h, .netConfig n)
  | .filterSet h f => some (h, .filterSet f)
  | .canConfig h c => some (h, .canConfig c)
  | .canMailboxSet h m => some (h, .mailboxSet m)
  | .faultStatus h f c => some (h, .faultStatus f c)
  | .faultAck h sc i => some (h, .faultAck sc i)
  | .laneStatus h => some (h, .laneStatus)
  | .lanePrefer h p o => some (h, .lanePrefer p o)
  | .policyGet h i f c => some (h, .policyGet i f c)
  | .policyPin h i n v => some (h, .policyPin i n v)
  | .policyUnpin h i n v => some (h, .policyUnpin i n v)
  | .moduleSet h is => some (h, .moduleSet is)
  | .moduleGet h i n => some (h, .moduleGet i n)
  | _ => none

/-- The row of the table that writes the request register of a mailbox. -/
def mailboxRow : MbxId → LaneId → Reader → Word → Instr
  | .sysWide, l, r, v => .sysWideMbx l r v
  | .laneDigest, l, r, v => .laneDigestMbx l r v
  | .hedSnap, l, r, v => .hedSnapMbx l r v
  | .loopBank, l, r, v => .loopBankMbx l r v
  | .nrgAcc, l, r, v => .nrgAccMbx l r v
  | .rtcTime, l, r, v => .rtcTimeMbx l r v
  | .keySlot, l, r, v => .keySlotMbx l r v
  | .keyMeas, l, r, v => .keyMeasMbx l r v
  | .recWin, l, r, v => .recWinMbx l r v

/-- Nothing of `s` has changed in `t` outside core `c` of lane `l`. -/
def OnlyCore (s t : State) (l : LaneId) (c : Nat) : Prop :=
  t.pkg = s.pkg ∧ t.draws = s.draws ∧ t.pending = s.pending ∧ t.lane l.other = s.lane l.other ∧
  ({ t.lane l with cores := [] } : Lane) = { s.lane l with cores := [] } ∧
  ∀ d, d ≠ c → (t.lane l).core d = (s.lane l).core d

end Sys2Proof.Machine
end

