-- ==== Sys2Proof/Certificates/Slice0/Obligations.lean ====
section
/-! DEFINITION. The statements about the block that the provers prove. -/

open Sys2Proof Sys2Proof.Machine



/-! ### The machine as a whole -/

/-- A step runs the command at the front of the queue on the state with the queue's rest. -/
def Obligations.StepRunsTheFrontCommand : Prop :=
  ∀ (c : Instr) (r : List Instr) (s : State), s.pending = c :: r → step s = exec c { s with pending := r }

/-- On an empty queue a step passes one beat and changes nothing else: the model's own choice (log entry 1). -/
def Claims.EmptyQueuePassesOneBeat : Prop :=
  ∀ s : State, s.pending = [] →
    step s = .next { s with pkg := { s.pkg with beat := s.pkg.beat + 1 } }

/-- No command stops the block, and a command changes nothing of the queue: a step takes the front command off it and leaves the
rest as it stood. -/
def Claims.EveryCommandGoesOn : Prop := ∀ s : State, ∃ t, step s = .next t ∧ Consumed s t

/-- No command stops the block, and a command changes nothing of the queue: a step takes the front command off it and leaves the
rest as it stood. On an empty queue a step passes one beat and changes nothing else: the model's own choice (log entry 1). -/
def Obligations.EveryStepGoesOn : Prop :=
  Claims.EveryCommandGoesOn ∧ Claims.EmptyQueuePassesOneBeat

/-- The module beat count never falls, except at RESET_RELEASE and at a reset of the module. -/
def Claims.BeatCountNeverFalls : Prop :=
  ∀ (i : Instr) (s t : State), exec i s = .next t → i ≠ .vrstReset → (∀ b, i ≠ .resetRelease b) → s.pkg.beat ≤ t.pkg.beat

/-- Order code and serial number are fuses: no step changes them. -/
def Obligations.FusesNeverChange : Prop :=
  ∀ order serial, KeptBySteps (fun s => s.pkg.order = order ∧ s.pkg.serial = serial)

/-- A module halted at class G stays halted until the module is reset. -/
def Claims.ClassGIsLatched : Prop :=
  ∀ (i : Instr) (s t : State), s.pkg.halted = true → exec i s = .next t →
    i ≠ .vrstReset → (∀ b, i ≠ .resetRelease b) → t.pkg.halted = true

/-- The module beat count never falls and a module halted at class G stays halted, except at RESET_RELEASE and at a reset of the
module (R245, R482). -/
def Obligations.OnlyResetGoesBack : Prop :=
  Claims.BeatCountNeverFalls ∧ Claims.ClassGIsLatched

/-- The life-cycle state moves along the transitions of Table 16-7 and in no other way: every step keeps a transition in progress in
order and LC_GEN at 15 or below and never lowers it, and the state that it leaves is reached through transitions of the table. -/
def Claims.LifeCycleSteps : Prop :=
  ∀ s t : State, s.lifeOk → step s = .next t →
    t.lifeOk ∧ LifeReaches s.pkg.life t.pkg.life ∧ s.pkg.lcGen.toNat ≤ t.pkg.lcGen.toNat

/-- A module in VOID stays in VOID. -/
def Claims.VoidIsFinal : Prop :=
  KeptBySteps (fun s => s.pkg.life = .void ∧ s.lifeOk)

/-- The life-cycle state moves along the transitions of Table 16-7 and in no other way, and VOID is final (R536, R537). -/
def Obligations.LifeCycleMovesByItsTable : Prop :=
  Claims.LifeCycleSteps ∧ Claims.VoidIsFinal

/-- The life cycle of the state after reset is in order. -/
def Claims.ResetLifeCycleInOrder : Prop := State.reset.lifeOk

/-! ### Skelkan commands -/

/-- Every command row is its command, executed in every lane that takes part in agreement: lane A first, then lane B; each lane then
moves its reservation of SEQ on where the command has come near it (R340). -/
def Obligations.CommandsRunInEveryLane : Prop :=
  ∀ (i : Instr) (h : Hdr) (op : Op) (s : State), commandOf i = some (h, op) →
    exec i s = .next (s.command h op) ∧
    (s.Both → exec i s = .next ((((s.takeCommand .a h op s.releasedEpoch s.pkg.beat).onLane .a Lane.reserve).takeCommand .b h op
      s.releasedEpoch s.pkg.beat).onLane .b Lane.reserve)) ∧
    (∀ l, s.Alone l → exec i s = .next ((s.takeCommand l h op s.releasedEpoch s.pkg.beat).onLane l Lane.reserve))

/-- The refusals of steps 3 to 6 of Table 09-5, in order: no command key held, KEY_LOST, unprotected; a packet sealed with another
key is discarded; a SEQ that is not fresh is answered from the reply cache or with REPLAY; a seventeenth outstanding command is
NO_CREDIT; FLAGS, STATUS or a PICK more than 1,000 ahead are BAD_PARAM; a PICK at most 1,000 ahead makes the command wait. -/
def Obligations.CommandsAreRefusedInOrder : Prop :=
  ∀ (s : State) (l : LaneId) (h : Hdr) (op : Op) (e : Word) (n : Nat),
    (∀ p, h.sender = some p →
      ((s.lane l).keyOf 1 p = none →
        s.takeCommand l h op e n = s.replyUnprotected l h (opCode op) .keyLost [] e) ∧
      (∀ k, (s.lane l).keyOf 1 p = some k →
        (h.keyGen ≠ some k.2.2 → s.takeCommand l h op e n = s) ∧
        (h.keyGen = some k.2.2 →
          (freshSeq ((s.lane l).sender p).high.toNat ((s.lane l).sender p).marked h.seq.toNat = false →
            ((s.lane l).sender p).kept.find? (fun q => q.sameAs h op) = none →
            s.takeCommand l h op e n =
              s.replyUnprotected l h (opCode op) .replay (beBytes 4 ((s.lane l).sender p).high.toNat) e) ∧
          (freshSeq ((s.lane l).sender p).high.toNat ((s.lane l).sender p).marked h.seq.toNat = true →
            (16 ≤ (s.lane l).outstandingOf p →
              s.takeCommand l h op e n = (s.entered l h op).reply l h (opCode op) .noCredit [] e) ∧
            ((s.lane l).outstandingOf p < 16 →
              s.takeCommand l h op e n = (s.entered l h op).admitCommand l h op e n))))) ∧
    (h.sender = none → s.takeCommand l h op e n = s.admitCommand l h op e n) ∧
    (h.flagsOk = false ∨ h.statusZero = false ∨ (1000 < (h.pick - e).toNat ∧ (h.pick - e).toNat < 2 ^ 31) →
      s.admitCommand l h op e n = s.reply l h (opCode op) .badParam [] e) ∧
    (h.flagsOk = true → h.statusZero = true → 1 ≤ (h.pick - e).toNat → (h.pick - e).toNat ≤ 1000 →
      s.admitCommand l h op e n =
        s.onLane l (fun x => x.onMan (fun m => { m with outstanding := m.outstanding ++ [⟨h, op, e, n, .epoch, false, s.pkg.beat⟩] }))) ∧
    (h.flagsOk = true → h.statusZero = true → ((h.pick - e).toNat = 0 ∨ 2 ^ 31 ≤ (h.pick - e).toNat) →
      s.admitCommand l h op e n = s.execute l h op e n) ∧
    (∀ st, s.earlyRefusal h op = some st →
      s.execute l h op e n = s.replyWith l ((s.lane l).replyKey h) h (opCode op) st [] e)

/-- R350: while the module is halted at class G, a command that passes the checks of its opcode and of the life cycle is refused with
SAFE_STATE when its opcode is none of the twelve that the rule lists. -/
def Obligations.HaltedModuleRefusesCommands : Prop :=
  ∀ (s : State) (h : Hdr) (op : Op), s.pkg.halted = true →
    (h.fast = true → fastCodes.contains (opCode op) = true) → (∀ c, op ≠ .unknown c) →
    codeAllowed s.pkg.life (decide (h.via = .service)) h.sender.isNone (opCode op) = true →
    ¬ (s.pkg.order = .m00 ∧ 0x0301 ≤ opCode op ∧ opCode op ≤ 0x0304) →
    opCode op ∉ [0x0001, 0x0002, 0x0003, 0x0004, 0x0704, 0x0901, 0x0903, 0x0404, 0x0601, 0x0501, 0x0502, 0x0503] →
    s.earlyRefusal h op = some .safeState

/-- What accepting a command changes: the window, the reply cache and the credit of its sender in that lane, and nothing else. What
answering it changes: the lane's registers of results, its rings, its frames to send and its sender's reply cache, and on the service
port the reply queue; memory, cores, partitions, stored configuration, MRAM and the other lane stand as the command left them. -/
def Obligations.AcceptingAndAnsweringFrame : Prop :=
  ∀ (u t : State) (l : LaneId) (h : Hdr) (op : Op) (ps : List Byte),
    ((u.entered l h op).pkg = u.pkg ∧ (u.entered l h op).lane l.other = u.lane l.other ∧
      ((u.entered l h op).lane l).blk = (u.lane l).blk ∧ ((u.entered l h op).lane l).parts = (u.lane l).parts ∧
      ((u.entered l h op).lane l).cores = (u.lane l).cores ∧ ((u.entered l h op).lane l).flash = (u.lane l).flash ∧
      ((u.entered l h op).lane l).mram = (u.lane l).mram) ∧
    ((u.answered t l h op ps).lane l.other = t.lane l.other ∧
      ((u.answered t l h op ps).lane l).parts = (t.lane l).parts ∧ ((u.answered t l h op ps).lane l).cores = (t.lane l).cores ∧
      ((u.answered t l h op ps).lane l).flash = (t.lane l).flash ∧ ((u.answered t l h op ps).lane l).mram = (t.lane l).mram ∧
      ((u.answered t l h op ps).lane l).blk.flt = (t.lane l).blk.flt ∧
      ((u.answered t l h op ps).lane l).blk.recd.records = (t.lane l).blk.recd.records ∧
      (u.answered t l h op ps).pkg.dom = t.pkg.dom ∧ (u.answered t l h op ps).pkg.beat = t.pkg.beat ∧
      (u.answered t l h op ps).pending = t.pending)

/-- NOP, ECHO, IDENTIFY, GET_MEASUREMENT, PICK and the three EVENT_SUBSCRIBE functions. -/
def Obligations.GeneralCommandsComplete : Prop :=
  ∀ (s : State) (l : LaneId) (h : Hdr),
    AnswersOk (.nop h) s l h .nop (fun _ => none) id (fun _ => []) ∧
    (∀ bs, AnswersOk (.echo h bs) s l h (.echo bs) (fun _ => none) id (fun _ => bs)) ∧
    (s.noOutcome h → AnswersOk (.identify h) s l h .identify (fun _ => none) id (fun u => u.ownReply l h .identify)) ∧
    (∀ n, AnswersOk (.getMeasurement h n) s l h (.getMeasurement n) (fun u => checkMeasurement (u.lane l) u.pkg.beat)
      (fun u => u.onLane l (fun x => x.onKey (fun k => { k with signed := u.pkg.beat :: x.signedLately u.pkg.beat })))
      (fun u => u.reportBytes l n ++ beBytes 96 (Config.ecdsaSign (sha384 (u.reportBytes l n))).toNat)) ∧
    AnswersLater (.pick h) s l h .pick (fun _ => none) (fun u => u.requestPick l (.command (h.sender.getD 16) h.seq) 0)
      (fun _ => .pickTicket) ∧
    (∀ k a, AnswersOk (.eventSubscribeStart h k a) s l h (.subStart k a) (fun _ => none)
      (fun u => (u.onLane l (fun x => x.onSender (h.sender.getD 0) (fun v => { v with sub := subStarted h k v.sub }))).sendEvents l
        (h.sender.getD 0))
      (fun u => subReply ((((u.onLane l (fun x => x.onSender (h.sender.getD 0) (fun v =>
        { v with sub := subStarted h k v.sub }))).sendEvents l (h.sender.getD 0)).lane l).sender (h.sender.getD 0)))) ∧
    (∀ k a, AnswersOk (.eventSubscribeStop h k a) s l h (.subStop k a) (fun _ => none)
      (fun u => (u.runSubscribe l h (fun _ => none)).1)
      (fun u => subReply (((u.runSubscribe l h (fun _ => none)).1.lane l).sender (h.sender.getD 0)))) ∧
    (∀ k a, AnswersOk (.eventSubscribeAck h k a) s l h (.subAck k a) (fun _ => none)
      (fun u => (u.runSubscribe l h (subAcked a)).1)
      (fun u => subReply (((u.runSubscribe l h (subAcked a)).1.lane l).sender (h.sender.getD 0))))

/-- READ_POINTS, WRITE_POINTS, FORCE_SET, FORCE_CLEAR, FORCE_LIST and CONFIG_UNITS. A written value goes to the running owner's
output image, or waits for the owner's next start (R194); a force takes its entry of the table (R188); a unit's settings wait for its
region's next frame (R237). -/
def Obligations.PointCommandsComplete : Prop :=
  ∀ (s : State) (l : LaneId) (h : Hdr),
    (∀ f c, AnswersOk (.readPoints h f c) s l h (.readPoints f c) (fun u => checkReadPoints (u.lane l) h f c) id
      (fun u => (List.range c).flatMap (fun i =>
        let fr := (u.lane l).closedFrame ((f + i) / 64)
        let v := tget {} fr.units ((f + i) % 64)
        beBytes 4 v.word.toNat ++ beBytes 2 (v.stat.toNat % 65536) ++ beBytes 2 fr.number))) ∧
    (∀ is, AnswersOk (.writePoints h is) s l h (.writePoints is) (fun u => checkWritePoints (u.lane l) h is)
      (fun u => u.onLane l (fun x => x.onMan (fun m => { m with
        pointWrites := m.pointWrites ++ ((is.filter (fun i => decide ((x.part (x.pointOwner i.1)).state = .running))).map
          (fun i => (s.releasedEpoch, i.1, i.2))),
        pointsNext := m.pointsNext ++ ((is.filter (fun i => !decide ((x.part (x.pointOwner i.1)).state = .running))).map
          (fun i => (s.releasedEpoch, i.1, i.2))) }))) (fun _ => [])) ∧
    (∀ f, AnswersOk (.forceSet h f) s l h (.forceSet f) (fun u => checkForceSet (u.lane l) h f)
      (fun u => u.onLane l (fun x => x.onMan (fun m => { m with
        forces := oset m.forces (match x.forceAt f.kind f.targetPart f.target with | some q => q.1 | none => x.freeForce)
          ⟨f.kind, h.sender.getD 0, if f.kind = 3 then f.targetPart else x.pointOwner f.target, f.target, f.value,
            s.releasedEpoch⟩ })))
      (fun u => let x := u.lane l
        beBytes 2 (match x.forceAt f.kind f.targetPart f.target with | some q => q.1 | none => x.freeForce) ++
          beBytes 1 (b2n (x.forceAt f.kind f.targetPart f.target).isSome) ++ zeros 1 ++ beBytes 4 s.releasedEpoch.toNat)) ∧
    (∀ m f, (m = 1 ∨ m = 2) → AnswersOk (.forceClear h m f) s l h (.forceClear m f) (fun u => checkForceClear (u.lane l) h m f)
      (fun u => u.onLane l (fun x => x.onMan (fun k => { k with
        forces := k.forces.filter (fun q => !(x.forcesCleared h m f).contains q) })))
      (fun u => beBytes 2 ((u.lane l).forcesCleared h m f).length)) ∧
    (∀ a m, AnswersOk (.forceList h a m) s l h (.forceList a m) (fun _ => checkForceList m) id
      (fun u => let es := (u.lane l).forcesSeen h a
        beBytes 2 (es.take m).length ++ beBytes 2 (match (es.drop m).head? with | some e => e.1 | none => 0xFFFF) ++
        (es.take m).flatMap (fun e =>
          beBytes 2 e.1 ++ beBytes 1 e.2.kind ++ beBytes 1 e.2.setter ++ beBytes 1 e.2.part ++
          beBytes 1 (b2n (u.forceHeld l e.2)) ++ zeros 2 ++ beBytes 8 e.2.target ++ beBytes 8 e.2.value.toNat ++
          beBytes 4 e.2.setPick.toNat ++ zeros 4))) ∧
    (∀ is, AnswersOk (.configUnits h is) s l h (.configUnits is) (fun u => checkConfigUnits (u.lane l) h is)
      (fun u => u.onLane l (fun x => (x.onPnt (fun b => { b with
        pendingUnits := is.foldl (fun t q => t.filter (fun r => r.1 ≠ q.point) ++ [(q.point, q.cfg, q.param, q.safe)]) b.pendingUnits
        pendingOwner := is.foldl (fun t q => if q.setOwner then oset t (q.point / 8) q.owner else t) b.pendingOwner })).startFlash
        .config u.pkg.beat)) (fun _ => []))

/-- HEDDLE_LOAD writes the staging area of its region and answers its CRC-32; HEDDLE_COMMIT begins the commit, which a lane with no
partner in service takes past the comparison of step 1, and waits for its end (R230, R231, Table 06-12). -/
def Claims.HeddleCommandsComplete : Prop :=
  ∀ (s : State) (l : LaneId) (h : Hdr),
    (∀ r o d, 1 ≤ d.length → d.length ≤ 1024 →
      AnswersOk (.heddleLoad h r o d) s l h (.heddleLoad r o d) (fun u => checkHeddleLoad (u.lane l) h r o d)
        (fun u => u.onLane l (fun x => x.onHed (fun b => { b with
          staging := tput [] b.staging r (memWrite (if o = 0 then [] else x.staging r) o d)
          staged := insSorted r b.staged })))
        (fun u => beBytes 4 (stagingCrc (memWrite (if o = 0 then [] else (u.lane l).staging r) o d)).toNat)) ∧
    (∀ r c, AnswersLater (.heddleCommit h r c) s l h (.heddleCommit r c) (fun u => checkHeddleCommit (u.lane l) h r c)
      (fun u => (u.onLane l (fun x => x.onHed (fun b => { b with
        commit := oset b.commit r ⟨readImage (x.staging r), c, 1, h, s.releasedEpoch, u.pkg.beat⟩ }))).heddleCompare l r)
      (fun _ => .heddle r)) ∧
    (∀ r (k : HedCommit), (s.lane l).blk.hed.commit.lookup r = some k → k.step = 1 → (s.lane l.other).inService = false →
      ((s.heddleCompare l r).lane l).blk.hed.commit.lookup r = some { k with step := 2 })

/-- The nine loop commands. -/
def Claims.LoopCommandsComplete : Prop :=
  ∀ (s : State) (l : LaneId) (h : Hdr),
    (∀ i o ws, AnswersOk (.loopConfigLoop h i o ws) s l h (.loopConfigLoop i o ws) (fun u => checkLoopConfigLoop (u.lane l) h i o ws)
      (fun u => u.onLane l (fun x => ((x.onLoop i (fun p => { p with owner := o, recWords := ws })).queueLoop i (.pick s.releasedEpoch)
        (.record ws o)).startFlash .config u.pkg.beat)) (fun _ => [])) ∧
    (∀ i p ph en, AnswersOk (.loopConfigGroup h i p ph en) s l h (.loopConfigGroup i p ph en)
      (fun u => checkLoopConfigGroup (u.lane l) h i p ph en)
      (fun u => u.onLane l (fun x => ((x.onGroup i (fun g => { g with period := p, phase := ph, en := decide (en = 1) })).queueGroup i
        (.pick s.releasedEpoch) (.group p ph en)).startFlash .config u.pkg.beat)) (fun _ => [])) ∧
    (∀ n ws, AnswersOk (.loopBankWrite h n ws) s l h (.loopBankWrite n ws) (fun u => checkLoopBankWrite (u.lane l) h n ws)
      (fun u => u.onLane l (fun x => (x.onLoop n (fun p => if 1 - (x.loop n).active = 0 then { p with bank0 := ws, written := true }
        else { p with bank1 := ws, written := true })).startFlash .config u.pkg.beat))
      (fun u => beBytes 1 (1 - ((u.lane l).loop n).active) ++ zeros 1 ++ beBytes 2 ((u.lane l).loop n).gen.toNat)) ∧
    (∀ n b g, AnswersOk (.loopBankSwap h n b g) s l h (.loopBankSwap n b g) (fun u => checkLoopBankSwap (u.lane l) h n g)
      (fun u => u.onLane l (fun x => ((x.onLoop n (fun p => { p with pending := true })).queueLoop n (.pick s.releasedEpoch)
        (.swap b)).startFlash .config u.pkg.beat))
      (fun u => beBytes 2 (((u.lane l).loop n).gen + 1).toNat)) ∧
    (∀ f c, AnswersOk (.loopStatus h f c) s l h (.loopStatus f c) (fun u => checkLoopStatus (u.lane l) h f c) id
      (fun u => (List.range c).flatMap (fun i =>
        match ((u.lane l).loop (f + i)).shots.find? (fun q => q.1 < u.closingBeat l) with
        | some q => q.2
        | none => (u.lane l).loopRecord (f + i) (u.closingBeat l)))) ∧
    (∀ p, AnswersOk (.patternClear h p) s l h (.patternClear p) (fun u => checkPatternAlone (u.lane l) h p)
      (fun u => u.onLane l (fun x => x.queueLoop p.loop (.pick s.releasedEpoch) (.clear p.offset p.count))) (fun _ => [])) ∧
    (∀ p, p.transfer = 0 → AnswersOk (.patternRead h p) s l h (.patternRead p) (fun u => checkPatternRead (u.lane l) h p) id
      (fun u => u.patternSamples l p)) ∧
    (∀ p, p.transfer = 0 → AnswersOk (.patternWrite h p) s l h (.patternWrite p) (fun u => checkPatternWrite (u.lane l) h p)
      (fun u => u.onLane l (fun x => x.queueLoop p.loop (.pick s.releasedEpoch) (.write p.offset p.samples))) (fun _ => [])) ∧
    (∀ p, AnswersOk (.patternSave h p) s l h (.patternSave p) (fun u => checkPatternSave (u.lane l) h u.pkg.beat p)
      (fun u => u.onLane l (fun x => (runPatternSave x l u.pkg.beat p).1)) (fun _ => []))

/-- The heddle commands and the loop commands complete with the effect of chapters 06 and 07. -/
def Obligations.HeddleAndLoopCommandsComplete : Prop :=
  Claims.HeddleCommandsComplete ∧ Claims.LoopCommandsComplete

/-- LOOP_PATTERN_CTL WRITE by bulk and PROGRAM_LOAD open a transfer and are answered PENDING (R356, R366); LOOP_PATTERN_CTL READ by
bulk sends its segments and its final reply on the bulk ring of its pair (R368, R373). -/
def Obligations.BulkCommandsOpenTransfers : Prop :=
  ∀ (s : State) (l : LaneId) (h : Hdr),
    (∀ p, p.transfer ≠ 0 → s.Ready l h (.patternWrite p) →
      checkPatternWrite ((s.entered l h (.patternWrite p)).lane l) h p = none →
      let u := s.entered l h (.patternWrite p)
      exec (.patternWrite h p) s = .next ((u.opens (u.onLane l (fun x => x.onSender (h.sender.getD 0) (fun q => { q with
        transfers := q.transfers ++ [{ id := p.transfer, total := 2 * p.count, bytes := [], opened := s.pkg.beat, last := s.pkg.beat,
                                       hdr := h, op := .patternWrite p, epoch := s.releasedEpoch }] })))
        l h (.patternWrite p) (h.sender.getD 0) p.transfer).onLane l Lane.reserve)) ∧
    (∀ p, p.transfer ≠ 0 → s.Ready l h (.patternRead p) →
      checkPatternRead ((s.entered l h (.patternRead p)).lane l) h p = none →
      let u := s.entered l h (.patternRead p)
      (u.bulkRead l h s.releasedEpoch p).2 = .sent ∧
        exec (.patternRead h p) s = .next ((u.bulkRead l h s.releasedEpoch p).1.onLane l Lane.reserve)) ∧
    (∀ part n i, s.Ready l h (.programLoad part n i) →
      (s.entered l h (.programLoad part n i)).checkProgramLoad l h part n i = none →
      let u := s.entered l h (.programLoad part n i)
      exec (.programLoad h part n i) s = .next ((u.opens (u.onLane l (fun x => x.onSender (h.sender.getD 0) (fun q => { q with
        transfers := q.transfers ++ [{ id := i, total := n, bytes := [], opened := s.pkg.beat, last := s.pkg.beat,
                                       hdr := h, op := .programLoad part n i, epoch := s.releasedEpoch }] })))
        l h (.programLoad part n i) (h.sender.getD 0) i).onLane l Lane.reserve))

/-- The four metering commands. -/
def Claims.MeterCommandsComplete : Prop :=
  ∀ (s : State) (l : LaneId) (h : Hdr),
    (∀ is, AnswersOk (.meterConfig h is) s l h (.meterConfig is) (fun u => u.checkMeterConfig l h is)
      (fun u => u.onLane l (fun x => (x.onNrg (fun b => { b with
        changes := b.changes ++ (is.filter (fun i => i.item ≠ 7)).map (fun i => (s.releasedEpoch, .item i))
        pendingOwner := is.foldl (fun t i => if i.item = 7 then oset t i.index i.value else t) b.pendingOwner })).startFlash .config
        u.pkg.beat)) (fun _ => [])) ∧
    (∀ st f c, st ≤ 2 → s.noOutcome h → (s.lane l).blk.nrg.window < 2 ^ 64 →
      AnswersOk (.meterRead h st f c) s l h (.meterRead st f c) (fun u => u.checkMeterList l h f c) id
      (fun u => let q := (u.lane l).circuitsAt (u.lane l).blk.nrg.window
        beBytes 8 q.1 ++ (List.range c).flatMap (fun i =>
          (accWords u.pkg.order st (tget {} q.2 (f + i)) q.1).flatMap (fun w => beBytes 4 w.toNat)))) ∧
    (∀ c, AnswersLater (.meterResetAccum h c) s l h (.meterReset c) (fun u => u.checkMeterReset h c)
      (fun u => u.onLane l (fun x => x.onNrg (fun b => { b with changes := b.changes ++ [(s.releasedEpoch, .reset c h s.releasedEpoch)] })))
      (fun _ => .meter c)) ∧
    (∀ f c, AnswersOk (.meterLossReport h f c) s l h (.meterLoss f c) (fun u => u.checkMeterList l h f c) id
      (fun u => beBytes 4 (u.lane l).blk.nrg.unmeteredMs ++ zeros 4 ++
        (List.range c).flatMap (fun i => (u.lane l).lossRecord u.pkg.order (f + i))))

/-- PROGRAM_EXCHANGE, RESTART, CYCLE_STATUS, RETAIN_SAVE and the recorder's commands. -/
def Claims.ProgramAndRecorderCommandsComplete : Prop :=
  ∀ (s : State) (l : LaneId) (h : Hdr),
    (∀ p r g i, ((s.lane l).part p).loaded = some i →
      AnswersLater (.programExchange h p r g) s l h (.programExchange p r g) (fun u => u.checkExchange l h p r g)
        (fun u => u.onLane l (fun x => x.onPart p (fun k => { k with
          exch := some { hdr := h, epoch := s.releasedEpoch, beat := u.pkg.beat, image := i } }))) (fun _ => .exchange p)) ∧
    (∀ p m k, m ≤ 2 → ¬ (((s.lane l).part p).state = .waitTime ∧ h.sender.getD 0 ≠ 0) →
      AnswersLater (.restart h p m k) s l h (.restart p m k) (fun u => u.checkRestart l h p k)
        (fun u => u.onLane l (fun x => x.onPart p (fun q => { q with restart := some ⟨m, k, 0⟩ }))) (fun _ => .partStart p)) ∧
    (∀ p, AnswersOk (.cycleStatus h p) s l h (.cycleStatus p) (fun _ => checkPart h p) id (fun u => (u.lane l).cycleStatus p)) ∧
    (∀ p, AnswersLater (.retainSave h p) s l h (.retainSave p) (fun _ => checkPart h p)
      (fun u => u.onLane l (fun x => x.onMan (fun m => { m with saveAt := some (m.saveAt.getD (s.releasedEpoch + 1)) })))
      (fun u => .saveDone ((u.lane l).man.saveNumber + 1))) ∧
    AnswersOk (.recFreeze h) s l h .recFreeze (fun _ => ownerOnly h)
      (fun u => u.onLane l (fun x => x.onRec (fun r => r.freeze (u.closingBeat l))))
      (fun u => let r := ((u.onLane l (fun x => x.onRec (fun r => r.freeze (u.closingBeat l)))).lane l).blk.recd
        beBytes 8 r.oldest ++ beBytes 8 r.newest) ∧
    (∀ a m, AnswersOk (.recRead h a m) s l h (.recRead a m) (fun u => checkRecRead (u.lane l) a m) id
      (fun u => let r := (u.lane l).blk.recd
        let q := r.window (readerOf (h.sender.getD 0)) a m r.newest
        beBytes 8 q.2 ++ beBytes 1 q.1.length ++ zeros 3 ++ q.1.flatMap recordBytes)) ∧
    AnswersOk (.recThaw h) s l h .recThaw (fun _ => ownerOnly h) (fun u => u.onLane l (fun x => x.onRec (fun r => r.thaw s.releasedEpoch)))
      (fun u => let r := (u.lane l).blk.recd
        beBytes 4 (if r.frozen then r.frozenLost else 0))

/-- TIME_GET, TIME_SET and TIME_TRIM: the two writers post to the always-on domain and answer when it has taken them (R463 to
R466). -/
def Claims.TimeCommandsComplete : Prop :=
  ∀ (s : State) (l : LaneId) (h : Hdr), s.noOutcome h →
    AnswersOk (.timeGet h) s l h .timeGet (fun _ => none) id (fun u => u.pkg.dom.timeBytes) ∧
    (∀ d, AnswersLater (.timeSet h d) s l h (.timeSet d) (fun u => u.checkTimeSet h d)
      (fun u => (u.onLane l (fun x => { x with rtcSet0 := dateWord0 d, rtcSet1 := dateWord1 d })).postRtc
        { lane := l, reg := .setGo, words := [dateWord0 d, dateWord1 d], hdr := some h } true) (fun _ => .timeSet)) ∧
    (∀ v, AnswersLater (.timeTrim h v) s l h (.timeTrim v) (fun u => u.checkTimeTrim h v)
      (fun u => u.postRtc { lane := l, reg := .trim, words := [w32 (twos 10 v)], hdr := some h } true) (fun _ => .timeSet))

/-- The commands of metering, of programs, of the recorder and of the calendar complete with their effect. -/
def Obligations.MeterProgramAndTimeCommandsComplete : Prop :=
  Claims.MeterCommandsComplete ∧ Claims.ProgramAndRecorderCommandsComplete ∧ Claims.TimeCommandsComplete

/-- The key and life-cycle commands that one lane alone decides. A blob is unwrapped as the spec's key wrap does it, which no
statement fixes: where it fails, the command is refused as its check says. -/
def Claims.KeyCommandsComplete : Prop :=
  ∀ (s : State) (l : LaneId) (h : Hdr),
    (∀ n b, s.Ready l h (.keyLoad n b) →
      let u := s.entered l h (.keyLoad n b)
      match u.checkKeyLoad l h n b with
      | .inr i => exec (.keyLoadBlob h n b) s = .next (u.answered (u.onLane l (fun x =>
          ((((x.loadSlot n i u.pkg.dom.kekGen).onKey (fun k => { k with loads := k.loads + 1 })).onSender i.part
            (fun q => q.rekey i.use)).startFlash (.blob n (some ⟨b, i.use, i.part⟩)) u.pkg.beat))) l h (.keyLoad n b)
          (beBytes 1 n ++ beBytes 1 i.use ++ beBytes 1 i.part ++ zeros 1))
      | .inl st => ∃ t, exec (.keyLoadBlob h n b) s = .next t ∧ (t.lane l).blk.key.slots = (s.lane l).blk.key.slots ∧
          (t.lane l).blk.key.authFails = (s.lane l).blk.key.authFails + (if st = .authFail then 1 else 0)) ∧
    (∀ n er, AnswersOk (.keyUnload h n er) s l h (.keyUnload n er) (fun u => checkKeyUnload (u.lane l) h n)
      (fun u => u.onLane l (fun x => (runKeyUnload x u.pkg.beat n er).1)) (fun _ => [])) ∧
    (∀ k a kek b, s.pkg.dom.kekValue = some kek → readBlob (k ++ a) = b → b.use ≠ 0x7E →
      AnswersOk (.provisionKekWrap h k a) s l h (.kekWrap k a) (fun u => u.checkWrap h k a) id
        (fun _ => Config.kwWrap kek (k ++ a))) ∧
    AnswersOk (.lifecycleGet h) s l h .lifecycleGet (fun _ => none) id (fun u =>
      beBytes 1 (lifeCode u.pkg.life) ++ zeros 1 ++ beBytes 2 u.pkg.lcGen.toNat ++
        beBytes 1 (b2n u.pkg.dom.kek.isSome + 2 * b2n u.pkg.dom.sysKekLost + 4 * b2n u.pkg.dom.latched) ++ zeros 3)

/-- The commands that change the KEK or the life cycle: the first lane to execute decides them. A restored or generated KEK draws its
mask, and a generated one its value, from the free values; a transition to RETURNED or VOID begins with the destruction of the keys and
the stop of the partitions (R518, R524, R537, R538). -/
def Claims.KekAndLifeCycleCommandsComplete : Prop :=
  ∀ (s : State) (l : LaneId) (h : Hdr), s.decidedKey l h s.releasedEpoch = none →
    (∀ b, s.Ready l h (.escrowRestore b) →
      let u := s.entered l h (.escrowRestore b)
      let q := u.runEscrow l h s.releasedEpoch b
      (∀ st ps, q.2 = .done st ps →
        (st = .ok → exec (.kekEscrowRestore h b) s = .next (u.answered q.1 l h (.escrowRestore b) ps)) ∧
        (st ≠ .ok → exec (.kekEscrowRestore h b) s = .next (q.1.replyWith l ((u.lane l).replyKey h) h 0x0701 st ps s.releasedEpoch))) ∧
      ∃ st ps, q.2 = .done st ps) ∧
    AnswersOk (.provisionKekGenerate h) s l h .kekGenerate (fun u => u.checkGenerate h) (fun u => (u.runGenerate l h s.releasedEpoch).1)
      (fun u => beBytes 4 (w32 (max (max u.a.flash.kekGenMax u.b.flash.kekGenMax) u.pkg.dom.kekGen.toNat + 1)).toNat) ∧
    (∀ n k c, lifeOf n = some c →
      AnswersOk (.lifecycleAdvance h n k) s l h (.lifecycleAdvance n k) (fun u => u.checkAdvance l h n k)
        (fun u => (u.runAdvance l h s.releasedEpoch c).1) (fun _ => beBytes 1 (lifeCode c)))

/-- The key commands and the life-cycle commands complete with their effect. -/
def Obligations.KeyAndLifeCycleCommandsComplete : Prop :=
  Claims.KeyCommandsComplete ∧ Claims.KekAndLifeCycleCommandsComplete

/-- NET_CONFIG, FILTER_SET, CAN_CONFIG and CAN_MAILBOX_SET. -/
def Claims.NetworkCommandsComplete : Prop :=
  ∀ (s : State) (l : LaneId) (h : Hdr),
    (∀ n, AnswersOk (.netConfig h n) s l h (.netConfig n) (fun _ => checkNetConfig h n)
      (fun u => u.onLane l (fun x =>
        let y := x.onNet (fun b => if n.pair = 0 then { b with estate := netCfg n } else { b with floor := netCfg n })
        (if n.moduleId = 0 then y else y.onMan (fun m => { m with pendingId := some n.moduleId })).startFlash .config u.pkg.beat))
      (fun _ => [])) ∧
    (∀ f, AnswersOk (.filterSet h f) s l h (.filterSet f) (fun _ => checkFilterSet h f)
      (fun u => u.onLane l (fun x => (x.onNet (fun b => { b with
        filtVlan := tput 0 b.filtVlan (32 * f.port + f.filter) (w32 (f.vidMask * 65536 + f.vid))
        filtAct := tput 0 b.filtAct (32 * f.port + f.filter)
          (w32 (f.en * 2 ^ 31 + f.action * 2 ^ 30 + f.ring * 2 ^ 24 + f.pcpMask * 65536 + f.etherType)) })).startFlash .config
        u.pkg.beat)) (fun _ => [])) ∧
    (∀ c, AnswersOk (.canConfig h c) s l h (.canConfig c) (fun u => checkCanConfig (u.lane l) h c)
      (fun u => u.onLane l (fun x => (x.onBus c.bus (fun b => b.configure c)).startFlash .config u.pkg.beat)) (fun _ => [])) ∧
    (∀ m, AnswersOk (.canMailboxSet h m) s l h (.mailboxSet m) (fun _ => checkMailboxSet h m)
      (fun u => u.onLane l (fun x => (x.setMailbox m).startFlash .config u.pkg.beat)) (fun _ => []))

/-- FAULT_STATUS, FAULT_ACK, LANE_STATUS and LANE_PREFER. -/
def Claims.FaultAndLaneCommandsComplete : Prop :=
  ∀ (s : State) (l : LaneId) (h : Hdr),
    (∀ f c, s.noOutcome h → AnswersOk (.faultStatus h f c) s l h (.faultStatus f c) (fun _ => checkFaultStatus h f c) id
      (fun u => u.ownReply l h (.faultStatus f c))) ∧
    (∀ sc i bs gone, s.noOutcome h → sc ≠ 6 →
      ((s.entered l h (.faultAck sc i)).ackFaults s.releasedEpoch sc i).2 = some (bs, gone) →
      AnswersOk (.faultAck h sc i) s l h (.faultAck sc i) (fun u => checkFaultAck (u.lane l) h sc i)
        (fun u => (u.ackFaults s.releasedEpoch sc i).1) (fun _ => bs)) ∧
    (s.noOutcome h → AnswersOk (.laneStatus h) s l h .laneStatus (fun _ => none) id (fun u => u.ownReply l h .laneStatus)) ∧
    (∀ p o, AnswersOk (.lanePrefer h p o) s l h (.lanePrefer p o) (fun _ => checkLanePrefer h p o)
      (fun u => u.onLane l (fun x => (x.onLaneBlk (fun b => { b with
        pendingPrefer := some (p, o), preferCount := b.preferCount + 1 })).startFlash .config u.pkg.beat)) (fun _ => []))

/-- POLICY_GET, the two POLICY_PIN functions, MODULE_SET and MODULE_GET. -/
def Claims.PolicyAndSettingCommandsComplete : Prop :=
  ∀ (s : State) (l : LaneId) (h : Hdr),
    (∀ i f c, s.noOutcome h → AnswersOk (.policyGet h i f c) s l h (.policyGet i f c) (fun _ => checkPolicyGet h i f c) id
      (fun u => u.ownReply l h (.policyGet i f c))) ∧
    (∀ i n v, AnswersOk (.policyPin h i n v) s l h (.policyPin i n v) (fun u => checkPolicyPin (u.lane l) h i n (some v))
      (fun u => u.onLane l (fun x => ((x.onMan (fun m => { m with
        pins := x.man.pins.filter (fun p => !(p.1 = i && p.2.1 = n)) ++ [(i, n, v)] })).actPin l s.releasedEpoch i n (some v)).startFlash
        .config u.pkg.beat)) (fun _ => [])) ∧
    (∀ i n v, AnswersOk (.policyUnpin h i n v) s l h (.policyUnpin i n v) (fun u => checkPolicyPin (u.lane l) h i n none)
      (fun u => u.onLane l (fun x => ((x.onMan (fun m => { m with
        pins := x.man.pins.filter (fun p => !(p.1 = i && p.2.1 = n)) })).actPin l s.releasedEpoch i n none).startFlash
        .config u.pkg.beat)) (fun _ => [])) ∧
    (∀ is, AnswersOk (.moduleSet h is) s l h (.moduleSet is) (fun u => u.checkModuleSet h is)
      (fun u => (is.foldl (fun (t : State) i => t.takeSetting l i) u).onLane l (fun x => x.startFlash .config u.pkg.beat))
      (fun _ => [])) ∧
    (∀ i n, s.noOutcome h → AnswersOk (.moduleGet h i n) s l h (.moduleGet i n) (fun _ => checkModuleGet h i n) id
      (fun u => beBytes 1 i ++ beBytes 1 n ++ zeros 2 ++ beBytes 4 (u.settingValue l i n)))

/-- A command whose reply carries lane-local values (R347): the first of two lanes to execute it sends its capture to the partner and
waits; the second to execute it holds both captures, the first, which waited, answers with them, and so does the second. -/
def Claims.LanesReplyWithBothCaptures : Prop :=
  ∀ (s : State) (l : LaneId) (h : Hdr) (op : Op) (e : Word), leaderGives op = false →
    (s.pkg.outcomes = [] → (s.lane l.other).releases = true →
      s.jointReply l h e op = (s.onPkg (fun p => { p with outcomes := [(h, e, 0, s.capture l op)] }), .later .capture)) ∧
    (∀ n theirs, s.pkg.outcomes = [(h, e, n, theirs)] →
      let c := if l = .a then (s.capture l op, theirs) else (theirs, s.capture l op)
      let t := ((s.lane l.other).awaitingCapture h e).foldl (fun (t : State) o => t.giveCapture l.other o c.1 c.2)
        (s.onPkg (fun p => { p with outcomes := [] }))
      s.jointReply l h e op = (t, .done .ok (t.jointBytes l h op c.1 c.2)))

/-- The commands of the network, of CAN, of faults, of lanes, of policy and of module settings complete with their effect. -/
def Obligations.NetworkLaneAndSettingCommandsComplete : Prop :=
  Claims.NetworkCommandsComplete ∧ Claims.FaultAndLaneCommandsComplete ∧ Claims.PolicyAndSettingCommandsComplete ∧
  Claims.LanesReplyWithBothCaptures

/-- PENDING_REPLY: 45 ms after a command entered its stream without a final reply, one reply with status PENDING leaves; a command
that has it, or has waited less, gets none. Of two commands with one SEQ the one that is due and has none gets it. -/
def Obligations.PendingReplyAfter45Ms : Prop :=
  ∀ (s : State) (l : LaneId) (sender : Option Nat) (seq : Word) (beat : Nat) (o : Outstanding),
    let due := (s.lane l).man.outstanding.filter (fun q => q.hdr.sender = sender && q.hdr.seq = seq && !q.pendingSent &&
      decide (q.beat + 4500000 ≤ max s.pkg.beat beat))
    (∀ before after, (s.lane l).man.outstanding = before ++ o :: after → o ∉ before → due.head? = some o →
      exec (.pendingReply l sender seq beat) s = .next (((s.at_ beat).onLane l (fun x => x.onMan (fun m => { m with
        outstanding := before ++ { o with pendingSent := true } :: after }))).reply l o.hdr (opCode o.op) .pending [] o.epoch)) ∧
    (due = [] → exec (.pendingReply l sender seq beat) s = .next (s.at_ beat))

/-! ### Application cores -/

/-- INSTRUCTION: the core executes the instruction at its program counter. A fetch outside the code range and an encoding outside
RV32IMC are program faults; a core at the executive's return address executes nothing (R131 to R134). -/
def Obligations.InstructionExecutes : Prop :=
  ∀ (s : State) (l : LaneId) (c p : Nat), (s.lane l).running c = some p →
    (((s.lane l).core c).pc = (Config.execReturn &&& 0xFFFFFFFE#32) → exec (.instruction l c) s = .next s) ∧
    (((s.lane l).core c).pc ≠ (Config.execReturn &&& 0xFFFFFFFE#32) →
      ((s.lane l).fetch p c = none →
        exec (.instruction l c) s = .next (s.programFault l p c ((s.lane l).core c).pc (Config.unfetched ((s.lane l).core c).pc))) ∧
      (∀ w n, (s.lane l).fetch p c = some (w, n) →
        (decodeRv w n = none → exec (.instruction l c) s = .next (s.programFault l p c ((s.lane l).core c).pc w)) ∧
        (∀ i, decodeRv w n = some i → exec (.instruction l c) s = .next (s.rvEffect l p c i n))))

/-- The integer instructions: each writes its one register and the program counter of its core, and nothing else; x0 reads 0 and a
write to it is discarded. -/
def Obligations.IntegerInstructionsWriteOneRegister : Prop :=
  ∀ (s : State) (l : LaneId) (p c n : Nat) (i : Rv) (rd : Nat) (v pc : Word),
    let k := (s.lane l).core c
    (i = .lui rd v ∧ pc = k.pc + w32 n ∨
     (∃ imm, i = .auipc rd imm ∧ v = k.pc + imm ∧ pc = k.pc + w32 n) ∨
     (∃ imm, i = .jal rd imm ∧ v = k.pc + w32 n ∧ pc = k.pc + imm) ∨
     (∃ rs1 imm, i = .jalr rd rs1 imm ∧ v = k.pc + w32 n ∧ pc = (k.reg rs1 + imm) &&& 0xFFFFFFFE#32) ∨
     (∃ f rs1 imm, i = .opImm f rd rs1 imm ∧ v = f.eval (k.reg rs1) imm ∧ pc = k.pc + w32 n) ∨
     (∃ f rs1 rs2, i = .op f rd rs1 rs2 ∧ v = f.eval (k.reg rs1) (k.reg rs2) ∧ pc = k.pc + w32 n) ∨
     (∃ cond rs1 rs2 imm, i = .branch cond rs1 rs2 imm ∧ rd = 0 ∧
        pc = if cond.holds (k.reg rs1) (k.reg rs2) then k.pc + imm else k.pc + w32 n)) →
    let t := s.rvEffect l p c i n
    OnlyCore s t l c ∧ ((t.lane l).core c).pc = pc ∧ ((t.lane l).core c).mem = k.mem ∧ ((t.lane l).core c).wbuf = k.wbuf ∧
      (∀ r, r ≠ rd → ((t.lane l).core c).reg r = k.reg r) ∧
      ((t.lane l).core c).reg rd = if rd = 0 then 0 else v

/-- A store to core-private memory above the code range writes its bytes, little-endian, at once; every other byte of memory and every
register stands, and the program counter goes past the instruction. -/
def Claims.PrivateStoresWriteTheirBytes : Prop :=
  ∀ (s : State) (l : LaneId) (p c n size rs1 rs2 a : Nat) (imm : Word),
    let k := (s.lane l).core c
    a = (k.reg rs1 + imm).toNat → a % size = 0 → a + size ≤ 0x80000 → (size = 1 ∨ size = 2 ∨ size = 4) →
    ((s.lane l).part p).codeLen ≤ a →
    let t := s.rvEffect l p c (.store size rs1 rs2 imm) n
    OnlyCore s t l c ∧ ((t.lane l).core c).pc = k.pc + w32 n ∧ ((t.lane l).core c).wbuf = k.wbuf ∧
      (∀ r, ((t.lane l).core c).reg r = k.reg r) ∧
      (∀ i, i < size → tget 0 ((t.lane l).core c).mem (a + i) = BitVec.ofNat 8 ((k.reg rs2).toNat / 256 ^ i)) ∧
      (∀ b, (b < a ∨ a + size ≤ b) → tget 0 ((t.lane l).core c).mem b = tget 0 k.mem b)

/-- A load from core-private memory or the shared window that is aligned reads its bytes, little-endian, and writes one register; a
load that the selvedge guard refuses reads 0, raises class N for the partition and changes no memory (R42, R43). -/
def Claims.LoadsReadOrAreRefused : Prop :=
  ∀ (s : State) (l : LaneId) (p c n size rd rs1 a : Nat) (sgn : Bool) (imm : Word),
    let k := (s.lane l).core c
    a = (k.reg rs1 + imm).toNat →
    (a % size = 0 → s.mayRead l p a size = true →
      s.rvEffect l p c (.load size sgn rd rs1 imm) n = s.coreWrites l c rd
        (if sgn then sext (8 * size) ((s.lane l).coreNat p c a size) else w32 ((s.lane l).coreNat p c a size)) (k.pc + w32 n)) ∧
    ((a % size ≠ 0 ∨ (s.mayRead l p a size = false ∧ (inBlocks a = false ∨ size ≠ 4))) →
      s.rvEffect l p c (.load size sgn rd rs1 imm) n = (s.selvedge l p c 0 a).coreWrites l c rd
        (if sgn then sext (8 * size) 0 else 0) (k.pc + w32 n) ∧
      ((s.selvedge l p c 0 a).lane l).parts = (s.lane l).parts ∧ ((s.selvedge l p c 0 a).lane l).cores = (s.lane l).cores ∧
      (p < 16 → (s.lane l).collects = true → ((s.selvedge l p c 0 a).lane l).hasBit (bitSelvedge p) = true))

/-- Stores to core-private memory, and loads from private memory and the shared window (R42, R43, R147). -/
def Obligations.LoadsAndStoresAccessMemory : Prop :=
  Claims.PrivateStoresWriteTheirBytes ∧ Claims.LoadsReadOrAreRefused

/-- A write that would need a core's 2,049th buffered entry is a program fault, while a buffer with room, or one that holds the word
already, takes it (R147, R148). -/
def Obligations.WriteBufferHolds2048Entries : Prop :=
  (∀ (k : Core) (w : Nat) (v : Word),
    (k.wbuf.lookup w = none → 2048 ≤ k.wbuf.length → k.buffer w v = none) ∧
    (k.wbuf.lookup w ≠ none ∨ k.wbuf.length < 2048 →
      ∃ j, k.buffer w v = some j ∧ j.wbuf.lookup w = some v ∧ j.mem = k.mem ∧ j.regs = k.regs ∧ j.pc = k.pc ∧
        (∀ u, u ≠ w → j.wbuf.lookup u = k.wbuf.lookup u))) ∧
  (∀ (s : State) (l : LaneId) (p c n size rs1 rs2 a : Nat) (imm : Word),
    let k := (s.lane l).core c
    a = (k.reg rs1 + imm).toNat → 0 < size → a % size = 0 → k.wbuf.lookup (a / 4) = none → 2048 ≤ k.wbuf.length →
    (s.mayWrite l p a size = true → isPrivate a = false → ((s.lane l).part p).atOnce a = false →
      s.rvEffect l p c (.store size rs1 rs2 imm) n = s.programFault l p c k.pc k.insnWord) ∧
    (s.mayWrite l p a size = false → inBlocks a = true → size = 4 →
      s.coreBlockWrite l p c a (k.reg rs2) = s.bufferWord l c (a / 4) (k.reg rs2) →
      s.rvEffect l p c (.store size rs1 rs2 imm) n = s.programFault l p c k.pc k.insnWord))

/-- The five environment calls: a call whose arguments are in order completes with its result and status OK, and the core goes on after
its ECALL; the ninth PICK of a cycle answers LIMIT (R80, R135 to R139, R168). -/
def Obligations.EnvironmentCallsComplete : Prop :=
  ∀ (s : State) (l : LaneId) (c p : Nat), (s.lane l).running c = some p →
    let x := s.lane l
    let k := x.core c
    (k.pickCalls < 8 → exec (.ecallPick l c) s = .next ((s.onLane l (fun x => x.onCore c (fun k => { k with
      count := k.count + 1, pickCalls := k.pickCalls + 1, run := .waiting (k.count + 1), waitStart := s.pkg.beat,
      pc := k.pc + 4 }))).requestPick l (.core c) (k.count + 1))) ∧
    (8 ≤ k.pickCalls → exec (.ecallPick l c) s = .next (s.callEnds l c 6)) ∧
    ((k.reg 10).toNat = 16 + p → 1 ≤ (k.reg 12).toNat → (k.reg 12).toNat ≤ ringLargest (16 + p) →
      s.bufferReads l p (k.reg 11).toNat (k.reg 12).toNat = true →
      (x.part p).postSlots + slotsOf (k.reg 12).toNat ≤ (x.part p).freeAtStart →
      exec (.ringPost l c) s = .next ((s.onLane l (fun y => y.onPart p (fun r => { r with
        posts := r.posts ++ [(List.range (k.reg 12).toNat).map (fun i => x.coreByte p c ((k.reg 11).toNat + i))] }))).callEnds l c 0)) ∧
    ((k.reg 10).toNat = p ∨ (k.reg 10).toNat = 32 + p → x.coreRank p c = 0 →
      s.bufferWrites l p (k.reg 11).toNat (k.reg 12).toNat = true →
      (x.takeable p (k.reg 10).toNat = none → exec (.ringTake l c) s = .next (s.callEnds l c 1)) ∧
      (∀ e y, x.takeable p (k.reg 10).toNat = some e → e.bytes.length ≤ (k.reg 12).toNat →
        x.putBytes p c (k.reg 11).toNat e.bytes = some y →
        exec (.ringTake l c) s = .next (((s.onLane l (fun _ => y)).onLane l (fun z =>
          (z.onRing (k.reg 10).toNat (fun g => match g.take with | some r => r.2 | none => g)).onCore c
            (fun r => r.setReg 11 (w32 e.bytes.length)))).callEnds l c 0))) ∧
    ((k.reg 10).toNat = 0 → exec (.restartCause l c) s = .next ((s.onLane l (fun y => y.onCore c (fun r =>
      (r.setReg 11 (w32 (x.part p).cause)).setReg 12 (w32 (x.part p).flags)))).callEnds l c 0)) ∧
    (s.bufferWrites l p (k.reg 10).toNat 32 = true → ∀ y, x.putBytes p c (k.reg 10).toNat (s.cycleInfoBytes l p c) = some y →
      exec (.cycleInfo l c) s = .next ((s.onLane l (fun _ => y)).callEnds l c 0))

/-! ### Registers, mailboxes and rings -/

/-- A write of a mailbox's request register: the lane manager's and the service port's capture completes later, a core's at once; a
core's write of a mailbox outside its partition's view is a selvedge violation (R42, R441, R444). -/
def Obligations.MailboxRequestsComplete : Prop :=
  ∀ (s : State) (l : LaneId) (m : MbxId) (v : Word),
    ((s.lane l).managed = true →
      exec (mailboxRow m l .manager v) s = .next (s.managerRequest l .manager m v) ∧
      exec (mailboxRow m l .service v) s = .next (s.managerRequest l .service m v)) ∧
    (∀ c p, (s.lane l).running c = some p →
      (m ≠ .loopBank ∧ p = 0 ∨ m = .nrgAcc ∨ m = .recWin → exec (mailboxRow m l (.core c) v) s = .next (s.coreRequest l p c m v)) ∧
      (m = .loopBank ∨ p ≠ 0 ∧ m ≠ .nrgAcc ∧ m ≠ .recWin →
        exec (mailboxRow m l (.core c) v) s = .next (s.selvedge l p c 1 (mbxAddr m))))

/-- A request with REQ 1 while no capture is in progress clears VALID and starts the capture of the words as they are now;
MAILBOX_CAPTURE_DONE gives all of them at once and sets VALID; a request meanwhile starts nothing; no other mailbox instance changes
(R442, R443). -/
def Claims.MailboxCapturesWholeWords : Prop :=
  ∀ (s : State) (l : LaneId) (m : MbxId) (r : Reader) (v : Word), bitOf v 0 = true →
    let q := (s.lane l).mailbox m r
    let t := s.managerRequest l r m v
    (q.capture = none → ¬ (m = .rtcTime ∧ s.pkg.dom.t3Lost = true) →
      ((t.lane l).mailbox m r).valid = false ∧
      ((t.lane l).mailbox m r).capture = some ((s.snapOf l).capture m none (if m = .recWin then q.sel else v &&& (mbxMap m).mask)
        q.selHi)) ∧
    (∀ ws, q.capture = some ws → ¬ (m = .rtcTime ∧ s.pkg.dom.t3Lost = true) →
      ((t.lane l).mailbox m r).valid = q.valid ∧ ((t.lane l).mailbox m r).capture = some ws ∧ ((t.lane l).mailbox m r).data = q.data) ∧
    (∀ ws, q.capture = some ws → ∃ u, exec (.mailboxCaptureDone l r m) s = .next u ∧
      ((u.lane l).mailbox m r).valid = true ∧ ((u.lane l).mailbox m r).data = ws ∧ ((u.lane l).mailbox m r).capture = none) ∧
    (∀ m' r', mbxKey m' r' ≠ mbxKey m r → (t.lane l).mailbox m' r' = (s.lane l).mailbox m' r')

/-- A read of RTC_TIME0 by the lane manager or the service port freezes the reader's instance, a read of RTC_TIME4 or 10 ms end that,
and a tick of the calendar leaves a frozen instance as it stands (R464). -/
def Claims.CalendarReadsFreeze : Prop :=
  ∀ (s : State) (l : LaneId) (r : Reader) (beat : Nat), (∀ c, r ≠ .core c) →
    let b := (s.lane l).mailbox .rtcTime r
    exec (.rtcTime0Read l r beat) s = .next ((s.at_ beat).onLane l (fun x => x.onMbx .rtcTime r (fun b =>
      { b with frozen := some (b.frozen.getD (max s.pkg.beat beat)) }))) ∧
    exec (.rtcTime4Read l r) s = .next (s.onLane l (fun x => x.onMbx .rtcTime r (fun b => { b with frozen := none }))) ∧
    (∀ f, b.frozen = some f →
      (f + 1000000 ≤ max s.pkg.beat beat → exec (.rtcFreezeTimeout l r beat) s =
        .next ((s.at_ beat).onLane l (fun x => x.onMbx .rtcTime r (fun b => { b with frozen := none })))) ∧
      (max s.pkg.beat beat < f + 1000000 → ∃ t, exec (.rtcFreezeTimeout l r beat) s = .next t ∧ (t.lane l).mailbox .rtcTime r = b) ∧
      (∃ t, exec .rtcTick s = .next t ∧ (t.lane l).mailbox .rtcTime r = b))

/-- A mailbox captures its words whole, and the calendar's mailbox freezes while it is read (R442, R443, R464). -/
def Obligations.MailboxesCaptureAndFreeze : Prop :=
  Claims.MailboxCapturesWholeWords ∧ Claims.CalendarReadsFreeze

/-- DOORBELL: POST makes the next written entries visible, TAKE returns the slots of the next entries consumed; a count above those
written or visible is ignored and raises class N. No other ring changes (R453). -/
def Obligations.DoorbellsMoveEntries : Prop :=
  ∀ (s : State) (l : LaneId) (r n : Nat), (s.lane l).managed = true → r < 64 →
    let g := (s.lane l).ring r
    (n ≤ g.entries.length - g.visible → exec (.ringDoorbellPost l r n) s = .next (s.onLane l (fun x => x.onRing r (fun g =>
      { g with entries := showEntries n g.entries, posted := g.posted + w32 n })))) ∧
    (g.entries.length - g.visible < n → exec (.ringDoorbellPost l r n) s = .next (s.flag l 2082 false)) ∧
    (n ≤ g.consumed.length + g.visible → exec (.ringDoorbellTake l r n) s = .next (s.onLane l (fun x => x.onRing r (fun g =>
      { g with consumed := g.consumed.drop n, entries := g.entries.drop (n - g.consumed.length), taken := g.taken + w32 n })))) ∧
    (g.consumed.length + g.visible < n → exec (.ringDoorbellTake l r n) s = .next (s.flag l 2082 false)) ∧
    (∀ f q, q ≠ r → (((s.onLane l (fun x => x.onRing r f)).lane l).ring q) = (s.lane l).ring q)

/-- FLT_ACK by the lane manager of a lane that runs one (Table 14-1 gives it to every lane that is not OFF): where no cause of a bit of its
scope persists, every such bit is cleared in both lanes, and for scopes 1 to 5 one cause that persists leaves every bit as it was; a
SCOPE or INDEX out of range has no effect (R501, R359). -/
def Claims.FltAckCompletes : Prop :=
  ∀ (s : State) (l : LaneId) (v : Word), (s.lane l).managed = true →
    let sc := field v 18 16
    let i := field v 15 0
    (scopeInRange sc i = true → (∀ b, ackActs sc i b = true → s.a.hasCause b = false ∧ s.b.hasCause b = false) →
      ∃ t, exec (.fltAck l v) s = .next t ∧ (∀ k b, ackActs sc i b = true → (t.lane k).hasBit b = false) ∧
        (∀ k b, ackActs sc i b = false → (t.lane k).hasBit b = (s.lane k).hasBit b) ∧ SameMemory s t ∧ SameCoreRegs s t) ∧
    (scopeInRange sc i = true → sc ≠ 6 →
      (∃ b k, ackActs sc i b = true ∧ bitClass b = 3 ∧ (s.lane k).hasBit b = true ∧ (s.endOvercurrents.lane k).hasCause b = true) →
      exec (.fltAck l v) s = .next s) ∧
    (scopeInRange sc i = false → exec (.fltAck l v) s = .next s)

/-- RECOVER on a controller in bus-off starts its recovery, whatever it waited for; in any other state, or with RECOVER 0, the write
changes nothing of the controller (R427). -/
def Claims.RecoverCompletes : Prop :=
  ∀ (s : State) (l : LaneId) (n : Nat) (v : Word), n < 8 →
    let b := (s.lane l).bus n
    ∃ t, exec (.recover l n v) s = .next t ∧
      (t.lane l).bus n = (if bitOf v 4 = true ∧ b.state = 2 then { b with recovering := true, waitUntil := none } else b) ∧
      (∀ m, m ≠ n → (t.lane l).bus m = (s.lane l).bus m) ∧ t.lane l.other = s.lane l.other ∧ t.pkg = s.pkg

/-- REC_CTL.FREEZE written 1 or 0 by the lane manager waits for the next pick release, with WRES PENDING; that release freezes a recorder
that is not frozen, at its own epoch's closing beat, or thaws one that is (R448, R507, R508, Table 15-7). -/
def Claims.RecCtlCompletes : Prop :=
  (∀ (r : RecBlk) (i : CloseInfo),
    (r.pendingFreeze = some true → r.frozen = false →
      r.takeFreeze i = { r with frozen := true, autoThawed := false, frozenLost := 0, firstLost := none, lastLost := 0,
                                freezeBeat := i.beat, pendingFreeze := none }) ∧
    (r.pendingFreeze = some false → r.frozen = true → (r.takeFreeze i).frozen = false ∧ (r.takeFreeze i).pendingFreeze = none) ∧
    (r.pendingFreeze = none → r.takeFreeze i = r)) ∧
  ∀ (s : State) (l : LaneId), (s.lane l).managed = true →
    exec (.recCtlFreeze l) s = .next (s.onLane l (fun x => (x.onRec (fun r => { r with pendingFreeze := some true })).setWres 10 4 4)) ∧
    exec (.recCtlThaw l) s = .next (s.onLane l (fun x => (x.onRec (fun r => { r with pendingFreeze := some false })).setWres 10 4 4))

/-- PICK_REQ by a core that executes: its request enters the queue of requests with the core's next request count, and the core waits for
its ticket; everything else of the lane stands (R50, R54, R80). -/
def Claims.PickReqCompletes : Prop :=
  ∀ (s : State) (l : LaneId) (c p : Nat), (s.lane l).running c = some p →
    let k := (s.lane l).core c
    ∃ t, exec (.pickReq l c) s = .next t ∧ t.pkg.pickReqs = s.pkg.pickReqs ++ [⟨.core c, k.count + 1, l⟩] ∧
      (t.lane l).core c = { k with count := k.count + 1, run := .asking } ∧
      (∀ d, d ≠ c → (t.lane l).core d = (s.lane l).core d) ∧ (t.lane l).parts = (s.lane l).parts ∧ (t.lane l).blk = (s.lane l).blk ∧
      t.lane l.other = s.lane l.other

/-- Writes of the control registers by the lane manager of a lane that runs one: FLT_ACK, RECOVER, REC_CTL.FREEZE and any other
register; and an application core's write of PICK_REQ and of a register (R42, R50, R427, R434, R501, R507). -/
def Obligations.RegisterWritesComplete : Prop :=
  Claims.FltAckCompletes ∧ Claims.RecoverCompletes ∧ Claims.RecCtlCompletes ∧ Claims.PickReqCompletes ∧
  ∀ (s : State) (l : LaneId) (v : Word), (s.lane l).managed = true →
    (∀ addr : Word, addr.toNat % 4 = 0 → inBlocks addr.toNat = true →
      exec (.registerWrite l .manager addr v) s = .next (s.managerWrite l (blockOf_ addr.toNat) (offsetOf addr.toNat) v) ∧
      exec (.registerWrite l .service addr v) s = .next (s.serviceWrite l (blockOf_ addr.toNat) (offsetOf addr.toNat) v)) ∧
    (∀ c p, (s.lane l).running c = some p →
      (∀ addr : Word, (addr.toNat % 4 ≠ 0 ∨ inBlocks addr.toNat = false) →
        exec (.registerWrite l (.core c) addr v) s = .next (s.selvedge l p c 1 addr.toNat)) ∧
      (∀ (addr : Word) t, addr.toNat % 4 = 0 → inBlocks addr.toNat = true → s.coreBlockWrite l p c addr.toNat v = some t →
        exec (.registerWrite l (.core c) addr v) s = .next t) ∧
      (∀ addr : Word, addr.toNat % 4 = 0 → inBlocks addr.toNat = true → s.coreBlockWrite l p c addr.toNat v = none →
        exec (.registerWrite l (.core c) addr v) s =
          .next (s.programFault l p c ((s.lane l).core c).pc ((s.lane l).core c).insnWord)))

/-- What the domain makes of a posted value of the active lane (R468, R472, R474, R477). -/
def postEffect (d : Domain) (p : Post) : Domain :=
  let v := p.words.headD 0
  match p.reg with
  | .setGo => d.takeSet (setDate v (p.words.getD 1 0))
  | .trim => { d with trim := signed 10 (field v 9 0) }
  | .chg => { d with chg := v &&& 0x13#32 }
  | .alm n => { d with alarms := tmod {} d.alarms n (fun a => { a with minute := v.toNat }) }
  | .almCtl n => { d with alarms := tmod {} d.alarms n (fun a => { a with en := bitOf v 31, rep := field v 15 0, missed := false }) }

/-- POSTED_WRITE of any PW register but SET_GO: posted to the domain with WRES 0 when the register is free, dropped with WRES BUSY while its
last write is in progress or T3 is lost; a TRIM of -512 is out of range (R33, R438, R440, Table 13-4). -/
def Claims.PostedWritesAreQueued : Prop :=
  ∀ (s : State) (l : LaneId) (r : PwReg) (v : Word), pwOk r = true → r ≠ .setGo →
    let p : Post := { lane := l, reg := r, words := [v] }
    ((r ≠ .trim ∨ field v 9 0 ≠ 512) →
      (s.pkg.dom.t3Lost = true ∨ s.pkg.dom.isBusy l r = true →
        exec (.postedWrite l r v) s = .next (s.onLane l (fun x => x.setRtcWres r 1))) ∧
      (s.pkg.dom.t3Lost = false → s.pkg.dom.isBusy l r = false →
        exec (.postedWrite l r v) s =
          .next ((s.onDom (fun d => { d with busy := d.busy ++ [p] })).onLane l (fun x => x.setRtcWres r 0)))) ∧
    (r = .trim → field v 9 0 = 512 → exec (.postedWrite l r v) s = .next (s.onLane l (fun x => x.setRtcWres .trim 3)))

/-- POSTED_WRITE_TAKEN: one T3 period later the domain takes the value, and BUSY of the register is 0; a value of the lane that is not
active leaves the domain as it is (R438, R463, R469). -/
def Claims.PostedWritesAreTaken : Prop :=
  ∀ (s : State) (l : LaneId) (r : PwReg) (p : Post), s.pkg.dom.t3Lost = false →
    s.pkg.dom.busy.find? (fun q => q.lane = l && q.reg = r) = some p → p.hdr = none → (s.lane l).rtcPosts = [] →
    let d : Domain := { s.pkg.dom with busy := s.pkg.dom.busy.erase p }
    ∃ t, exec (.postedWriteTaken l r) s = .next t ∧ t.pkg.dom = if s.active = some l then postEffect d p else d

/-- RTC_SET_GO with GO 1: a date that RTC_SET_0 and RTC_SET_1 hold and that exists is posted as a time set; one that does not gives WRES
RANGE; GO 0 has no effect (R467). -/
def Claims.SetGoPostsTheDate : Prop :=
  ∀ (s : State) (l : LaneId) (v : Word),
    let x := s.lane l
    let p : Post := { lane := l, reg := .setGo, words := [x.rtcSet0, x.rtcSet1] }
    (bitOf v 0 = true → dateOk (setDate x.rtcSet0 x.rtcSet1) = true →
      (s.pkg.dom.t3Lost = false → s.pkg.dom.isBusy l .setGo = false →
        exec (.rtcSetGo l v) s =
          .next ((s.onDom (fun d => { d with busy := d.busy ++ [p] })).onLane l (fun y => y.setRtcWres .setGo 0))) ∧
      (s.pkg.dom.t3Lost = true ∨ s.pkg.dom.isBusy l .setGo = true →
        exec (.rtcSetGo l v) s = .next (s.onLane l (fun y => y.setRtcWres .setGo 1)))) ∧
    (bitOf v 0 = true → dateOk (setDate x.rtcSet0 x.rtcSet1) = false →
      exec (.rtcSetGo l v) s = .next (s.onLane l (fun y => y.setRtcWres .setGo 3))) ∧
    (bitOf v 0 = false → exec (.rtcSetGo l v) s = .next s)

/-- Posted writes of the RTC: a write to a free register goes to the domain, one to a register whose write is still in progress is
dropped with BUSY, as is every write while T3 is lost; the domain takes it one 32.768 kHz period later, from the active lane alone
(R438, R463, R467, R469). -/
def Obligations.PostedWritesAreTakenFromTheActiveLane : Prop :=
  Claims.PostedWritesAreQueued ∧ Claims.PostedWritesAreTaken ∧ Claims.SetGoPostsTheDate

/-- RTC_TICK: 32 T3 pulses pass, then each instance of the lane manager and the service port that is not frozen captures the calendar, and
a frozen one stands; with the rate trim at 0 the count of the second goes on by 32 pulses, and at 32,768 the next second begins; while T3
is lost the calendar stands (R460, R463, R464, R471). -/
def Claims.TicksAdvanceTheCalendar : Prop :=
  ∀ s : State,
    (s.pkg.dom.t3Lost = true → exec .rtcTick s = .next s) ∧
    (s.pkg.dom.t3Lost = false → ∃ t, exec .rtcTick s = .next t ∧
      t.pkg.dom.cal = (Domain.pulses 32 s.pkg.dom).cal ∧ t.pkg.dom.epochWrap = (Domain.pulses 32 s.pkg.dom).epochWrap ∧
      (s.pkg.dom.trim = 0 → s.pkg.dom.trimNow = 0 → s.pkg.dom.cal.sub < 32768 →
        t.pkg.dom.cal.sub = (s.pkg.dom.cal.sub + 32) % 32768 ∧
        t.pkg.dom.cal.date = (if s.pkg.dom.cal.sub + 32 < 32768 then s.pkg.dom.cal.date
          else (dtNext s.pkg.dom.cal.date).getD calendarStart.date)) ∧
      ∀ l r, (r = .manager ∨ r = .service) →
        let b := (s.lane l).mailbox .rtcTime r
        (t.lane l).mailbox .rtcTime r = if b.frozen.isSome then b
          else { b with valid := true, data := t.pkg.dom.timeWords, capture := none })

/-- The calendar's own events: a tick advances it and gives it to the instances that read it; an alarm that is due fires and enters the RTC stream of every lane in agreement; the count wraps at the
end of the calendar; the cell's voltage below 2.4 V sets CELL_LOW; the return of T3 ends its cause (R31, R33, R460, R470 to R477). -/
def Obligations.CalendarEventsComplete : Prop :=
  Claims.TicksAdvanceTheCalendar ∧
  ∀ s : State,
    (∀ n, n < 4 → s.pkg.dom.alarmDue n = true → s.pkg.dom.t3Lost = false →
      exec (.rtcAlarm n) s = .next ((s.onDom (fun d => { d with alarms := tmod {} d.alarms n Alarm.fired })).eachLane
        (fun x => x.releases)
        (fun l t => t.onLane l (fun x => x.enter l 7 0 0 (.rtc n ((tget {} s.pkg.dom.alarms n).minute * 60000)))))) ∧
    ((dtNext s.pkg.dom.cal.date).isNone = true → s.pkg.dom.t3Lost = false →
      exec .epochWrap s = .next ((s.onDom (fun d => { d with cal := calendarStart, epochWrap := true })).flagBoth 2091 false)) ∧
    (∀ mv, mv < 2400 → exec (.cellLow mv) s = .next ((s.onDom (fun d => { d with cellLow := true })).flagBoth 2085 false)) ∧
    (∀ mv, 2400 ≤ mv → exec (.cellLow mv) s = .next (s.onDom (fun d => { d with cellLow := false }))) ∧
    (s.pkg.dom.t3Lost = true →
      exec .t3ClockRestored s = .next ((s.onDom (fun d => { d with t3Lost := false })).endCauseBoth 6)) ∧
    (s.pkg.dom.t3Lost = true → exec .rtcTick s = .next s)

/-- R459: the calendar counts the years 2000 to 2999, and a year is a leap year when it is divisible by 4 and not by 100, or by 400. -/
def Obligations.CalendarIsGregorian : Prop :=
  (∀ d, dateOk d = true → 2000 ≤ d.year ∧ d.year ≤ 2999) ∧
  (∀ y, (monthDays y 2 = 29 ↔ y % 4 = 0 ∧ y % 100 ≠ 0 ∨ y % 400 = 0) ∧ (monthDays y 2 = 29 ∨ monthDays y 2 = 28)) ∧
  (∀ y ∈ [2000, 2400, 2800], isLeap y = true) ∧ (∀ y ∈ [2100, 2200, 2300, 2500, 2600, 2700, 2900], isLeap y = false) ∧
  (∀ d e, dateOk d = true → dtNext d = some e → dateOk e = true) ∧
  (∀ d, dateOk d = true → (dtNext d = none ↔ d = ⟨2999, 12, 31, 23, 59, 59⟩)) ∧
  (∀ y, dtNext ⟨y, 2, 28, 23, 59, 59⟩ = some (if isLeap y then ⟨y, 2, 29, 0, 0, 0⟩ else ⟨y, 3, 1, 0, 0, 0⟩))

/-! ### Keys and tamper -/

/-- KEK_REMASK keeps the KEK's value and changes the bank; DOMAIN_POWER_ON_RESET loses time and KEK and clears every slot; a tripped
source that is armed destroys the KEK and every slot; a maker session opens only under the maker's key (R516, R479, R525, R536). -/
def Obligations.KeyEventsComplete : Prop :=
  ∀ s : State,
    (∀ mask, ∃ t, exec (.kekRemask mask) s = .next t ∧ t.pkg.dom.kekValue = s.pkg.dom.kekValue ∧ t.pkg.dom.bank = 1 - s.pkg.dom.bank ∧
      t.a.blk.key.remasks = s.a.blk.key.remasks + 1 ∧ t.b.blk.key.remasks = s.b.blk.key.remasks + 1 ∧
      t.a.blk.key.slots = s.a.blk.key.slots ∧ t.b.blk.key.slots = s.b.blk.key.slots) ∧
    (∃ t, exec .domainPowerOnReset s = .next t ∧ t.pkg.dom.kekValue = none ∧ t.pkg.dom.timeLost = true ∧ t.pkg.dom.timeValid = false ∧
      (∀ l n, n < 64 → ((t.lane l).slot n).key = none)) ∧
    (∀ src, s.armed src = true → ∃ t, exec (.tamper src) s = .next t ∧ t.pkg.dom.kekValue = none ∧ t.pkg.dom.latched = true ∧
      (∀ l n, n < 64 → ((t.lane l).slot n).key = none) ∧ src ∈ t.pkg.dom.tripped) ∧
    (∀ src, s.armed src = false → exec (.tamper src) s = .next s) ∧
    (s.pkg.life = .maker ∨ s.pkg.life = .returned →
      exec (.makerSessionOpen true) s = .next (s.onPkg (fun p => { p with makerSession := true }))) ∧
    exec (.makerSessionOpen false) s = .next s

/-! ### Picks and epochs -/

/-- PICK_REQUEST_ACCEPT: the active lane takes the oldest request; the requester's ticket is the number of the open epoch, and the
copy of a request that the other lane has already brought gets the ticket of the first (R53 to R57). -/
def Obligations.PickRequestsGetTheOpenEpoch : Prop :=
  ∀ (s : State) (l : LaneId) (r : PickReq) (rest : List PickReq), s.active = some l → s.pkg.pickReqs = r :: rest →
    let s0 := s.onPkg (fun p => { p with pickReqs := rest })
    (∀ a, s.pkg.accepted.find? (fun a => a.1.who = r.who && a.1.count = r.count) = some a →
      exec .pickRequestAccept s = .next ((s0.onPkg (fun p => { p with accepted := p.accepted.erase a })).onLane r.lane
        (fun x => x.takeTicket r.who a.2))) ∧
    (s.pkg.accepted.find? (fun a => a.1.who = r.who && a.1.count = r.count) = none →
      exec .pickRequestAccept s = .next ((s0.onPkg (fun p => { p with
        waitingReqs := p.waitingReqs + 1
        accepted := if (s.lane r.lane.other).releases then p.accepted ++ [(r, (s.lane l).blk.pick.opened)] else p.accepted })).onLane
          r.lane (fun x => x.takeTicket r.who (s.lane l).blk.pick.opened)))

/-- PICK_CLOSE: with a request waiting, and 10 µs after the last closure, the active lane closes the open epoch; the next one opens
with the next number, modulo 2^32, and the requests that waited share the pick (R55, R58, R59). -/
def Claims.PickCloseOpensTheNextEpoch : Prop :=
  ∀ (s : State) (l : LaneId) (beat : Nat), s.active = some l → s.pkg.waitingReqs ≠ 0 → s.epochsRun = true →
    (∀ i, Msg.close i ∉ (s.lane l).inbox) → (∀ t, s.pkg.lastClose = some t → t + 1000 ≤ max s.pkg.beat beat) →
    ∃ t, exec (.pickClose beat) s = .next t ∧
      (t.lane l).blk.pick.opened = (s.lane l).blk.pick.opened + 1 ∧
      ((s.lane l).blk.pick.opened = 0xFFFFFFFF#32 → (t.lane l).blk.pick.opened = 0#32) ∧
      t.pkg.waitingReqs = 0 ∧ t.pkg.lastClose = some (max s.pkg.beat beat) ∧
      (∃ c, (t.lane l).closed = (s.lane l).closed ++ [c] ∧ c.info.n = (s.lane l).blk.pick.opened ∧
        c.info.beat = max s.pkg.beat beat ∧ c.info.coalesced = s.pkg.waitingReqs - 1) ∧
      ((s.lane l.other).releases = true → ∃ i es rest, (t.lane l.other).inbox = (s.lane l.other).inbox ++ .close i :: .epoch i.n es :: rest ∧
        i.n = (s.lane l).blk.pick.opened)

/-- No pick closes an epoch without a request, or before 10 µs have passed since the last closure (R55), or while the active lane still
holds a CLOSE of the lane that was active before it, whose epoch it closes first (R117). -/
def Claims.NoPickWithoutARequest : Prop :=
  ∀ (s : State) (beat : Nat),
    (s.pkg.waitingReqs = 0 ∨ (∃ t, s.pkg.lastClose = some t ∧ max s.pkg.beat beat < t + 1000) ∨
      (∃ l i, s.active = some l ∧ Msg.close i ∈ (s.lane l).inbox)) →
    exec (.pickClose beat) s = .next (s.at_ beat)

/-- PICK_CLOSE closes the open epoch only with a request waiting and 10 µs after the last closure, and opens the next number (R55,
R58, R59). -/
def Obligations.PickNumbersAdvanceByOne : Prop :=
  Claims.PickCloseOpensTheNextEpoch ∧ Claims.NoPickWithoutARequest

/-- CLOSE_RECEIVED closes the partner's epoch of the same number; EPOCH_EXCHANGE keeps the partner's events with the closed epoch;
EPOCH_RELEASE and SOLO_RELEASE release the oldest closed epoch; AGREEMENT_TIMEOUT, 1.2 ms after a closure without the partner's events,
takes the standby lane out; CYCLE_EXECUTIVE_PICK is partition 0's idle executive (R62 to R70, R80). -/
def Obligations.EpochRowsComplete : Prop :=
  ∀ (s : State) (l : LaneId) (beat : Nat),
    (∀ i, (s.lane l).inbox.findSome? closeOf = some i → (s.lane l).releases = true → i.n = (s.lane l).blk.pick.opened →
      exec (.closeReceived l) s = .next (((s.onLane l (fun y => { y with inbox := y.inbox.erase (.close i) })).onLane l
        (fun y => y.closeEpoch l i s.pkg.beat)).afterClose l i.n)) ∧
    (∀ n es, (s.lane l).inbox.findSome? epochOf = some (n, es) → (s.lane l).closed.any (fun c => c.info.n = n) = true →
      exec (.epochExchange l) s = .next (s.onLane l (fun y => { y with
        inbox := y.inbox.erase (.epoch n es)
        closed := y.closed.map (fun c => if c.info.n = n then { c with theirs := some es } else c) }))) ∧
    (∀ c r es, (s.lane l).closed = c :: r → c.theirs = some es → (s.lane l).releases = true → (s.lane l).meetsClose c.info = true →
      exec (.epochRelease l beat) s = .next ((s.at_ beat).release l c (some es))) ∧
    (∀ c r, (s.lane l).closed = c :: r → c.theirs = none → (s.lane l).releases = true → s.solo l = true →
      (s.lane l).meetsClose c.info = true → exec (.soloRelease l beat) s = .next ((s.at_ beat).release l c none)) ∧
    (∀ c r, (s.lane l).closed = c :: r → c.theirs = none → s.a.inService = true → s.b.inService = true →
      s.a.faultLine = false → s.b.faultLine = false → c.info.beat + 120000 ≤ max s.pkg.beat beat →
      exec (.agreementTimeout l beat) s = .next ((s.at_ beat).raise s.activeLane.other 162 true)) ∧
    ((s.lane l).releases = true → (s.at_ beat).idleExecutive l = true → ((s.lane l).part 0).startBeat + 100000 ≤ max s.pkg.beat beat →
      exec (.cycleExecutivePick l beat) s = .next ((((s.at_ beat).onLane l (fun x => x.onPart 0 (fun k =>
        { k with execCount := k.execCount + 1, startBeat := max s.pkg.beat beat }))).requestPick l (.executive 0)
          (((s.lane l).part 0).execCount + 1)).p0Start l (((s.lane l).part 0).execCount + 1)))

/-! ### Cycles of programs -/

/-- A partition's cores have ranks that follow the core numbers: rank 0 is the lowest, and CYCLE_RUN_START starts every core of the
partition at the same entry point, in the same image. -/
def Obligations.CoresAreRanked : Prop :=
  (∀ (x : Lane) (p c d : Nat), c ∈ (x.part p).coreList → d ∈ (x.part p).coreList → (c < d ↔ x.coreRank p c < x.coreRank p d)) ∧
  (∀ (x : Lane) (p c : Nat), c ∈ (x.part p).coreList →
    (x.coreRank p c = 0 ↔ ∀ d ∈ (x.part p).coreList, c ≤ d) ∧ x.coreRank p c < (x.part p).coreList.length) ∧
  (∀ (s : State) (l : LaneId) (p beat c : Nat) (i : Image), p < 16 → (s.lane l).inService = true → ((s.lane l).part p).phase = .pick →
    (s.lane l).isReleased ((s.lane l).part p).ticket = true → ((s.lane l).part p).runImage = some i →
    (((s.lane l).part p).stampDue = false ∨ (s.lane l.other).inService = false) →
    c ∈ ((s.lane l).part p).coreList → ∃ t, exec (.cycleRunStart l p beat) s = .next t ∧
      ((t.lane l).part p).phase = .run ∧ ((t.lane l).part p).runImage = some i ∧
      ((t.lane l).core c).run = .running ∧ ((t.lane l).core c).pc = w32 i.entry)

/-- The joint start (Table 04-4, step 2): a lane that waits in service with no partner in service starts its cycle on its own READY; with
both lanes in service it starts once both have sent READY of one cycle and one start, and takes from the active lane's READY the
registers that its cycle reads; a lane without such a pair goes on waiting (R88, R90, R92, R139). -/
def Claims.JointStartTakesTheActiveLanesReady : Prop :=
  ∀ (s : State) (l : LaneId) (p : Nat) (own : ReadyInfo), p < 16 → p ≠ 0 → (s.lane l).inService = true →
    let q := (s.lane l).part p
    let t := s.jointStart l p
    q.phase = .ready → q.own = some own → q.state = .running →
    (∀ r, ((s.lane l.other).inService = false ∧ r = own ∨ (s.lane l.other).inService = true ∧
        (∃ theirs, q.theirs = some theirs ∧ theirs.cycle = own.cycle ∧ theirs.starts = own.starts ∧
          r = if s.active = some l then own else theirs)) →
      ((t.lane l).part p).phase = .asked ∧ ((t.lane l).part p).state = .running ∧ ((t.lane l).part p).startBeat = s.pkg.beat ∧
      ((t.lane l).part p).snap = some r.snap ∧ ((t.lane l).part p).execCount = q.execCount + 1 ∧
      ((t.lane l).part p).lastRun = r.run ∧
      t.pkg.pickReqs = s.pkg.pickReqs ++ [⟨.executive p, q.execCount + 1, l⟩]) ∧
    ((s.lane l.other).inService = true → (q.theirs = none ∨ ∃ theirs, q.theirs = some theirs ∧
        (theirs.cycle ≠ own.cycle ∨ theirs.starts ≠ own.starts)) → t = s)

/-- READY, READY_RECEIVED, READY_LATE and LATE_READINESS_WINDOW (R88 to R91, Table 04-4 steps 1 and 2). -/
def Claims.ReadinessRowsComplete : Prop :=
  ∀ (s : State) (l : LaneId) (p beat : Nat), p < 16 → (s.lane l).inService = true →
    let now := max s.pkg.beat beat
    let q := (s.lane l).part p
    (∀ i, q.current = some i → q.restart = none → q.phase = .idle →
      (q.state = .starting ∨ q.state = .running ∧ q.startBeat + 100 * i.minCycle ≤ now) →
      let s1 := s.at_ beat
      let started := decide (s.active = some l) && (q.partnerReady (q.cycle + 1) || !(s.lane l.other).inService)
      let info : ReadyInfo := ⟨q.starts, q.cycle + 1, now / 100 % 4294967296, started, q.ownRun, s1.snapOf l⟩
      let s2 := s1.onLane l (fun y => y.onPart p (fun k => { k with phase := .ready, readyBeat := now, own := some info }))
      exec (.ready l p beat) s = .next ((if (s.lane l.other).inService then s2.send l (.ready p info) else s2).jointStart l p)) ∧
    (∀ r i, (s.lane l).nextAbout p = some (.ready r i) →
      exec (.readyReceived l p) s = .next (((s.onLane l (fun x => { x with inbox := x.inbox.erase (.ready r i) })).onLane l
        (fun x => x.onPart p (fun k => k.takeReady i))).jointStart l p)) ∧
    ((s.lane l.other).inService = true → ((s.lane l).part p).phase = .ready → ((s.lane l).part p).theirs = none →
      ((s.lane l).part p).late = none → ((s.lane l).part p).exch = none →
      ((s.lane l).part p).readyBeat + ((s.lane l).part p).lateLimit < now →
      exec (.readyLate l p beat) s = .next ((s.at_ beat).onLane l (fun x => x.onPart p (fun k => { k with late := some now })))) ∧
    (∀ t, ((s.lane l).part p).late = some t → t + msBeats ≤ now → (s.lane l.other).inService = true → (s.lane l.other).faultLine = false →
      exec (.lateReadinessWindow l p beat) s = .next (((s.at_ beat).onLane l (fun x => x.onPart p (fun k =>
        { k with late := none }))).raise l.other 163 true))

/-- CYCLE_RUN_START, CORE_RETURN, WATCHDOG_OVERRUN, OVERRUN_NOTICE and PARTITION_STARTING (Table 04-4 steps 4 to 7, R134, R142, R143,
R163). -/
def Claims.CycleRowsComplete : Prop :=
  ∀ (s : State) (l : LaneId) (p beat : Nat), p < 16 → (s.lane l).inService = true →
    let now := max s.pkg.beat beat
    let q := (s.lane l).part p
    (∀ c, (s.lane l).corePart c = some p → c < 16 → ((s.lane l).core c).run = .running → q.phase = .run →
      ((s.lane l).core c).pc = (Config.execReturn &&& 0xFFFFFFFE#32) →
      let s1 := (s.at_ beat).onLane l (fun y => y.onCore c (fun r => { r with run := .returned }))
      exec (.coreReturn l c beat) s = .next
        (if q.coreList.all (fun d => decide (d = c) || decide (((s.lane l).core d).run = .returned)) then s1.commit l p now else s1)) ∧
    (∀ i, s.active = some l → q.runImage = some i → q.phase = .run →
      q.coreList.any (fun c => decide (((s.lane l).core c).run ≠ .returned) &&
        decide (100 * i.watchdog ≤ q.used ((s.lane l).core c) now)) = true →
      exec (.watchdogOverrun p beat) s = .next (if (s.lane l.other).inService
        then ((s.at_ beat).overrunIn l p).send l (.overrun p (q.cycle + 1)) else (s.at_ beat).overrunIn l p)) ∧
    (∀ r n, (s.lane l).nextAbout p = some (.overrun r n) → q.state = .running →
      exec (.overrunNotice l p) s = .next ((s.onLane l (fun x => { x with inbox := x.inbox.erase (.overrun r n) })).overrunIn l p)) ∧
    (∀ r, q.restart = some r → q.state ≠ .safe → (q.phase = .idle ∨ q.phase = .ready ∨ q.state ≠ .running) →
      exec (.partitionStarting l p) s = .next ((s.abortExchangeIn l p .exchangeAborted).onLane l (fun y => y.startPart l p r
        (match q.boot with | some b => some b | none => s.restoredPart p)))) ∧
    (q.phase = .pick → (s.lane l).isReleased q.ticket = true → (q.stampDue = false ∨ (s.lane l.other).inService = false) →
      ∃ t, exec (.cycleRunStart l p beat) s = .next t ∧
      ((t.lane l).part p).phase = .run ∧ ((t.lane l).part p).runBeat = now ∧ ((t.lane l).part p).visible = q.ticket ∧
      ((t.lane l).part p).cycle = q.cycle)

/-- Readiness, start, run, overrun and end of a cycle (Table 04-4, R88 to R91, R134, R142, R143, R163). -/
def Obligations.ReadinessAndCycleRowsComplete : Prop :=
  Claims.ReadinessRowsComplete ∧ Claims.JointStartTakesTheActiveLanesReady ∧ Claims.CycleRowsComplete

/-- A program fault in a running partition puts it into SAFE: its cores stop, what they buffered and posted in the cycle is discarded,
and the fault's bit is set (R132, R133, R144). -/
def Claims.ProgramFaultsEnterSafe : Prop :=
  ∀ (s : State) (l : LaneId) (p c : Nat) (pc word : Word), p < 16 → (s.lane l).inService = true →
    let t := s.programFault l p c pc word
    ((t.lane l).part p).state = .safe ∧ ((t.lane l).part p).phase = .idle ∧ ((t.lane l).part p).posts = [] ∧
    ((t.lane l).part p).faults = ((s.lane l).part p).faults + 1 ∧
    (∀ d ∈ ((s.lane l).part p).coreList, ((t.lane l).core d).run = .idle ∧ ((t.lane l).core d).wbuf = []) ∧
    (t.lane l).hasBit (bitProgramFault p) = true

/-- FAULT_ACK of a partition in SAFE whose bits no cause holds any more is accepted, and leaves the partition STOPPED in both lanes
(R145, R359). -/
def Claims.FaultAckLeavesSafe : Prop :=
  ∀ (s : State) (l : LaneId) (p : Nat) (e : Word), p < 16 → ((s.lane l).part p).state = .safe →
    (∀ b ∈ scopeBits 5 p, s.a.hasCause b = false ∧ s.b.hasCause b = false) →
    (∃ bs gone, (s.ackFaults e 5 p).2 = some (bs, gone)) ∧ (((s.ackFaults e 5 p).1.lane l).part p).state = .stopped ∧
      SameMemory s (s.ackFaults e 5 p).1

/-- A program fault puts its partition into SAFE, and an accepted FAULT_ACK takes it out (R132, R133, R144, R145, R359). -/
def Obligations.FaultsStopPartitionsUntilAcknowledged : Prop :=
  Claims.ProgramFaultsEnterSafe ∧ Claims.FaultAckLeavesSafe

/-- EXCHANGE_STAGED, PLAN_DIGEST, INSTALL and EXCHANGE_TIMEOUT: the steps of Table 05-2. -/
def Obligations.ExchangeRowsComplete : Prop :=
  ∀ (s : State) (l : LaneId) (p beat : Nat),
    (∀ e, ((s.lane l).part p).exch = some e → (s.lane l).inService = true → e.staged = false →
      (∀ i, (s.lane l).flash.loaded.lookup p = some i → i.checks = true) →
      let s1 := s.onLane l (fun y => y.onPart p (fun k => { k with exch := some { e with staged := true } }))
      exec (.exchangeStaged l p true) s = .next ((if (s.lane l.other).inService then
        s1.send l (.planDigest p ((s.lane l).planDigest p e)) else s1).agreePlan l p)) ∧
    (∀ e, ((s.lane l).part p).exch = some e → (s.lane l).inService = true → e.staged = false →
      exec (.exchangeStaged l p false) s = .next ((s.flag l 2079 false).abortExchange p .exchangeAborted)) ∧
    (∀ q d, (s.lane l).nextAbout p = some (.planDigest q d) →
      exec (.planDigest l p) s = .next (((s.onLane l (fun x => { x with inbox := x.inbox.erase (.planDigest q d) })).onLane l
        (fun x => x.onPart p (fun k => { k with exch := k.exch.map (fun e => { e with theirs := some d }) }))).agreePlan l p)) ∧
    (∀ q m, (s.lane l).nextAbout p = some (.install q m) →
      exec (.install l p) s = .next ((s.onLane l (fun x => { x with inbox := x.inbox.erase (.install q m) })).onLane l
        (fun x => x.onPart p (fun k => { k with exch := k.exch.map (fun e => { e with boundary := some m }) })))) ∧
    (∀ e, ((s.lane l).part p).exch = some e → s.a.installBegun p = false → s.b.installBegun p = false →
      e.beat + 200000000 ≤ max s.pkg.beat beat →
      exec (.exchangeTimeout l p beat) s = .next ((s.at_ beat).abortExchange p .exchangeAborted))

/-- SAVE_PERIOD_EXPIRY asks every lane in service for a save at the open epoch; SAVE_COMPLETE makes the save the newest and answers the
RETAIN_SAVE commands that wait for it; WRITE_RETRY gives up a save that does not read back (R155 to R161). -/
def Claims.SaveRowsComplete : Prop :=
  ∀ (s : State) (l : LaneId) (beat : Nat),
    (s.active = some l → (s.lane l).inService = true → (s.lane l).man.saveAt = none → (s.lane l).blk.pwr.warn = false →
      (s.lane l).man.lastSave + 100000 * (s.lane l).blk.pwr.savePeriod ≤ max s.pkg.beat beat →
      ∃ t, exec (.savePeriodExpiry beat) s = .next t ∧ (t.lane l).man.saveAt = some (s.lane l).blk.pick.opened ∧
        ((s.lane l.other).inService = true → (t.lane l.other).man.saveAt =
          some ((s.lane l.other).man.saveAt.getD (s.lane l).blk.pick.opened)) ∧ SameMemory s t) ∧
    (∀ j, (s.lane l).man.saveJob = some j →
      exec (.saveComplete l) s = .next ((s.onLane l (fun x => (List.range 16).foldl (fun (y : Lane) p => y.keepTable p none)
        x.completeSave)).finishAll l (.saveDone j.save.number) .ok (beBytes 8 j.save.number))) ∧
    (∀ j, (s.lane l).man.saveJob = some j → (s.lane l).inService = true → ∃ t, exec (.writeRetry l false) s = .next t ∧ (t.lane l).man.saveJob = none ∧
      (t.lane l).hasBit 2087 = true) ∧
    (∀ w n rest, (s.lane l).man.saveJob = none → (s.lane l).job = (.image w, n) :: rest → exec (.writeRetry l false) s =
      .next (((s.onLane l (fun y => { y with job := rest })).flag l 2087 false).failImage w.hdr)) ∧
    exec (.writeRetry l true) s = .next s

/-- COMMIT_DIGEST compares the partner's digest of a cycle, or of the state, with the lane's own once it has formed that, and DIGEST_WINDOW,
1 ms after a difference that neither a fault line nor the front-end comparison explains, takes the standby lane out (R104, R105). -/
def Claims.DigestRowsComplete : Prop :=
  ∀ (s : State) (l : LaneId) (p beat : Nat),
    (∀ r c d, (s.lane l).nextDigest p = some (.commitDigest r c d) → (s.lane l).inService = true →
      (((s.lane l).part p).cycle = c → exec (.commitDigest l p beat) s = .next
        (let s1 := (s.at_ beat).onLane l (fun y => { y with inbox := y.inbox.erase (.commitDigest r c d) })
         if ((s.lane l).part p).digest ≠ d then s1.digestDiffers l else s1)) ∧
      (((s.lane l).part p).cycle < c → exec (.commitDigest l p beat) s = .next (s.at_ beat))) ∧
    (∀ c d, (s.lane l).nextDigest p = some (.stateDigest c d) → (s.lane l).inService = true → (s.lane l).blk.lane.digestNo = c →
      exec (.commitDigest l p beat) s = .next
        (let s1 := ((s.at_ beat).onLane l (fun y => { y with inbox := y.inbox.erase (.stateDigest c d) })).onLane l
          (fun y => y.onLaneBlk (fun b => { b with compared := b.digest }))
         if (s.lane l).blk.lane.digest ≠ d then s1.digestDiffers l else s1)) ∧
    (∀ t, (s.lane l).blk.lane.digestDiff = some t → t + msBeats ≤ max s.pkg.beat beat → s.a.inService = true → s.b.inService = true →
      s.a.faultLine = false → s.b.faultLine = false → s.outputsDiffer = false →
      exec (.digestWindow l beat) s = .next (({ (s.at_ beat) with
        a := s.a.onLaneBlk (fun b => { b with digestDiff := none })
        b := s.b.onLaneBlk (fun b => { b with digestDiff := none }) } : State).raise s.activeLane.other 164 true))

/-- Saves of retained state, and the comparison of committed cycles (R104, R105, R155 to R161). -/
def Obligations.SaveAndDigestRowsComplete : Prop :=
  Claims.SaveRowsComplete ∧ Claims.DigestRowsComplete

/-! ### Sample frames, output updates and the partner lane -/

/-- SAMPLE_FRAME takes a frame off the lane's link; FRAME_CHECK compares it with the partner's copy, counts a difference and takes the
frame that was sent again, or takes it as it is with no partner in service (Table 03-3, R93 to R96). -/
def Claims.SampleFrameRowsComplete : Prop :=
  ∀ (s : State) (l : LaneId) (r : Nat),
    (∀ e ok, (s.lane l).frameIn.find? (fun e => e.1 = r) = some e → (s.lane l).inService = true →
      let s2 := (s.onLane l (fun x => { x with frameIn := x.frameIn.erase e })).onLane l
        (fun x => { x with ownFrame := oset x.ownFrame r (e.2.1, ok) })
      ((s.lane l.other).inService = true → exec (.sampleFrame l r ok) s = .next (s2.send l (.frame r e.2.1 ok))) ∧
      ((s.lane l.other).inService = false → ok = true → exec (.sampleFrame l r ok) s =
        .next ((s2.onLane l (fun x => { x with ownFrame := odel x.ownFrame r })).onLane l (fun x => x.takeFrame l r e.2.1))) ∧
      ((s.lane l.other).inService = false → ok = false → exec (.sampleFrame l r ok) s = .next s2)) ∧
    (∀ own q f ok resent, (s.lane l).ownFrame.lookup r = some own → (s.lane l.other).inService = true →
      (s.lane l).inbox.find? (frameMsg r) = some (.frame q f ok) →
      let s1 := s.onLane l (fun x => { x with inbox := x.inbox.erase (.frame q f ok) })
      let s2 := s1.onLane l (fun x => x.onLaneBlk (fun b => { b with imgMismatch := b.imgMismatch + 1 }))
      let take := fun (t : State) (g : SFrame) =>
        (t.onLane l (fun x => { x with ownFrame := odel x.ownFrame r })).onLane l (fun x => x.takeFrame l r g)
      let kept := ((s.fe r).frames.find? (fun f => f.number = own.1.number)).getD own.1
      let attributed := fun (t : State) => if firstCopyGood own kept then t else t.linkError l
      let agrees := own.2 = true ∧ ok = true ∧ own.1.number = f.number ∧ own.1.crc = f.crc
      (agrees → exec (.frameCheck l r resent) s = .next (take s1 own.1)) ∧
      (¬ agrees → resent = true → exec (.frameCheck l r resent) s = .next (attributed (take s2 kept))) ∧
      (¬ agrees → resent = false →
        exec (.frameCheck l r resent) s = .next (attributed ((take s2 (if s.active = some l then own.1 else f)).unresolved l)))) ∧
    (∀ own resent, (s.lane l).ownFrame.lookup r = some own → (s.lane l.other).inService = false → own.2 = true →
      exec (.frameCheck l r resent) s = .next (((s.onLane l (fun x => { x with inbox := x.inbox.filter (fun m => !frameMsg r m) })).onLane l
        (fun x => { x with ownFrame := odel x.ownFrame r })).onLane l (fun x => x.takeFrame l r own.1)))

/-- OUTPUT_UPDATE: the die drives the words of the active lane's update; a pair of updates of one number that differs in an output is counted
in both lanes, and an output that differs in a second pair in a row keeps the word on which the lanes last agreed (R99 to R102). -/
def Claims.OutputUpdatesAreDriven : Prop :=
  ∀ (s : State) (l : LaneId) (r beat : Nat) (u : Update), (s.lane l).updates.find? (fun u => u.region = r) = some u →
    ((s.lane l.other).inService = false → s.active = some l → (s.fe r).disagree = [] →
      ∃ t, exec (.outputUpdate l r beat) s = .next t ∧ (t.lane l).updates = (s.lane l).updates.erase u ∧
        (t.fe r).safeUnits = (List.range 64).filter (fun i => u.safe.contains i) ∧ (t.fe r).cross = u.cross ∧
        (∀ i, i < 64 → u.safe.contains i = false → tget 0 (t.fe r).driven i = tget 0 u.words i) ∧
        (∀ i, i < 64 → u.safe.contains i = true → tget 0 (t.fe r).driven i = tget 0 (s.fe r).driven i) ∧
        ∀ q, q ≠ r → t.fe q = s.fe q) ∧
    (∀ v i, s.a.inService = true → s.b.inService = true →
      ((s.fe r).waitOf l.other).find? (fun v => v.number = u.number && v.again = u.again) = some v →
      i < 64 → tget 0 u.words i ≠ tget 0 v.words i →
      ∃ t, exec (.outputUpdate l r beat) s = .next t ∧ i ∈ (t.fe r).lastDiff ∧ (t.fe r).agreeRun = 0 ∧
        (∀ k, (t.lane k).blk.lane.outDisagree = (s.lane k).blk.lane.outDisagree + 1) ∧
        (i ∈ (t.fe r).disagree ↔ i ∈ (s.fe r).lastDiff) ∧
        (i ∈ (s.fe r).lastDiff → s.active = some l → (s.fe r).agreedSafe.contains i = false →
          tget 0 (t.fe r).driven i = tget 0 (s.fe r).agreed i))

/-- OUTPUT_UPDATE, REGION_UPDATE_TIMER, UPDATE_TIMEOUT and DISAGREEMENT_WINDOW (R98 to R103). That a repetition by the timer keeps the number
of its update is the model's choice (log entry 125). -/
def Claims.OutputUpdateRowsComplete : Prop :=
  ∀ (s : State) (l : LaneId) (r beat : Nat),
    let now := max s.pkg.beat beat
    (∀ u, (s.lane l).updates.find? (fun u => u.region = r) = some u →
      exec (.outputUpdate l r beat) s =
        .next ((((s.at_ beat).onLane l (fun x => { x with updates := x.updates.erase u })).receiveUpdate l u now).literalsMoved r)) ∧
    (r < 8 → (s.lane l).inService = true → tget 0 (s.lane l).lastUpdate r + 50000 ≤ now →
      exec (.regionUpdateTimer l r beat) s = .next ((s.at_ beat).onLane l (fun x => x.repeatUpdate r now))) ∧
    (now < tget 0 (s.lane l).lastUpdate r + 50000 → exec (.regionUpdateTimer l r beat) s = .next (s.at_ beat)) ∧
    (∀ u, (s.fe r).updateOf l = some u →
      (u.beat + 100000 ≤ now → s.a.inService = true → s.b.inService = true →
        ∃ t, exec (.updateTimeout l r beat) s = .next t ∧ (t.fe r).lastDiff = List.range 64 ∧ (t.fe r).agreeRun = 0 ∧
          (t.fe r).disagree = (List.range 64).filter (s.fe r).lastDiff.contains ∧
          (∀ k, (t.lane k).blk.lane.outDisagree = (s.lane k).blk.lane.outDisagree + 1) ∧ ∀ q, q ≠ r → t.fe q = s.fe q) ∧
      (now < u.beat + 100000 → exec (.updateTimeout l r beat) s = .next ((s.at_ beat).literalsMoved r))) ∧
    (∀ t, (s.fe r).disagreeBeat = some t → s.a.faultLine = false → s.b.faultLine = false → s.a.inService = true → s.b.inService = true →
      (t + msBeats ≤ now → exec (.disagreementWindow r beat) s =
        .next ((((s.at_ beat).onFe r (fun f => { f with disagreeBeat := none })).raiseBoth (bitRegion r 6)
          (decide ((s.fe r).agreeRun < 16))).literalsMoved r)) ∧
      (now < t + msBeats → exec (.disagreementWindow r beat) s = .next ((s.at_ beat).literalsMoved r)))

/-- Sample frames and output updates between lanes and front-end dies (R93 to R103). -/
def Obligations.FrameAndUpdateRowsComplete : Prop :=
  Claims.SampleFrameRowsComplete ∧ Claims.OutputUpdatesAreDriven ∧ Claims.OutputUpdateRowsComplete

/-- KEEPALIVE, SUB_LINK_LOSS, HEARTBEAT_TOGGLE, HEARTBEAT_MISSING, FAULT_LINE and FAULT_NOTICE (R85 to R87, R106, R107). -/
def Obligations.PartnerLinkRowsComplete : Prop :=
  ∀ (s : State) (l : LaneId) (beat : Nat),
    let now := max s.pkg.beat beat
    let x := s.lane l
    let y := s.lane l.other
    (∀ sub, sub < 2 → x.blk.lane.role ≠ .off → y.blk.lane.role ≠ .off →
      exec (.keepalive l sub beat) s = .next ((s.at_ beat).onLane l (fun x => (x.onLaneBlk (fun b =>
        if sub = 0 then { b with sub0 := true, sub0Beat := now } else { b with sub1 := true, sub1Beat := now })).endCause (160 + sub)))) ∧
    (∀ sub, sub < 2 → x.inService = true → (if sub = 0 then x.blk.lane.sub0 else x.blk.lane.sub1) = true →
      (if sub = 0 then x.blk.lane.sub0Beat else x.blk.lane.sub1Beat) + 5000 ≤ now →
      (if sub = 0 then x.blk.lane.sub1 else x.blk.lane.sub0) = true →
      ∃ t, exec (.subLinkLoss l sub beat) s = .next t ∧ (t.lane l).hasBit (160 + sub) = true ∧
        (if sub = 0 then (t.lane l).blk.lane.sub0 else (t.lane l).blk.lane.sub1) = false ∧ (t.lane l).inService = true) ∧
    (x.inService = true → exec (.heartbeatToggle l beat) s =
      .next ((s.at_ beat).onLane l (fun x => x.onLaneBlk (fun b => { b with heartbeat := true, hbBeat := now })))) ∧
    (x.inService = true → y.inService = true → y.faultLine = false →
      (y.blk.lane.heartbeat = false ∨ y.blk.lane.hbBeat + 2000 ≤ now) →
      exec (.heartbeatMissing l beat) s = .next (((((s.at_ beat).flag l 171 true).cutFrames l.other).onLane l.other
        (fun k => k.depart 171 now l.other)).partnerLeft l)) ∧
    (∀ a b, x.faultLine = true → y.faultLine = true → x.blk.lane.lBeat = some a → y.blk.lane.lBeat = some b → a ≤ b + msBeats →
      b ≤ a + msBeats → exec (.faultLine l beat) s = .next (s.at_ beat).haltG) ∧
    (x.faultLine = false → y.faultLine = true → exec (.faultLine l beat) s = .next ((s.at_ beat).partnerLeft l)) ∧
    (∀ m, x.inbox.find? isNotice = some m → exec (.faultNotice l beat) s =
      .next (((s.at_ beat).onLane l (fun x => { x with inbox := x.inbox.erase m })).partnerLeft l))

/-- A lane whose partner has left service becomes, or stays, active and unpaired, and every front-end die follows it (Table 03-4,
R109, R110). -/
def Claims.SurvivorTakesTheActiveRole : Prop :=
  ∀ (s : State) (l : LaneId), (s.lane l).inService = true → (s.lane l).blk.lane.paired = true → (s.lane l.other).inService = false →
    (s.lane l.other).blk.lane.role ≠ .halted →
    let t := s.partnerLeft l
    (t.lane l).blk.lane.role = .active ∧ (t.lane l).blk.lane.paired = false ∧
    (t.lane l).blk.lane.lastCause = (s.lane l.other).blk.lane.lastCause ∧
    (t.lane l).blk.lane.switchovers =
      (s.lane l).blk.lane.switchovers + (if (s.lane l).blk.lane.role = .standby then 1 else 0) ∧
    t.pkg.outcomes = [] ∧ t.pkg.accepted = [] ∧ t.active = some l

/-- A class L detection takes its lane out of service where the partner is in service, and is raised as class G where it is not. -/
def Claims.ClassLWithoutPartnerIsClassG : Prop :=
  ∀ (s : State) (l : LaneId) (b : Nat), bitClass b = 2 → (s.lane l).collects = true →
    (s.lane l).blk.lane.role ≠ .halted → (s.lane l).hasBit b = false → s.pkg.halted = false →
    ((s.lane l.other).inService = false → (s.raise l b true).pkg.halted = true) ∧
    ((s.lane l).inService = true → (s.lane l.other).inService = true → (s.raise l b true).pkg.halted = false ∧
      ((s.raise l b true).lane l).blk.lane.role = .selftest ∧ ((s.raise l b true).lane l).blk.lane.gatesClosed = true)

/-- A class L detection takes its lane out of service and leaves the other active, or is class G where no partner is in service (R109 to
R111, Table 03-4). -/
def Obligations.ClassLTakesALaneOut : Prop :=
  Claims.SurvivorTakesTheActiveRole ∧ Claims.ClassLWithoutPartnerIsClassG

/-- The seven steps of a rejoin (Table 03-6): each moves the lane on, or counts the failure and begins again. -/
def Obligations.RejoinRowsComplete : Prop :=
  ∀ (s : State) (l : LaneId), (s.lane l.other).inService = true → (s.lane l).noLink = false →
    let x := s.lane l
    let y := s.lane l.other
    (x.blk.lane.role = .selftest → x.blk.lane.rejoinStep = 1 → exec (.rejoinReset l) s = .next (s.onLane l Lane.rejoinReset)) ∧
    (x.blk.lane.role = .selftest → x.blk.lane.rejoinStep = 2 →
      (∀ b, exec (.rejoinSelfTest l true b) s = .next ((s.at_ b).onLane l (fun y => ({ y with lostClocks := [] } : Lane).onLaneBlk (fun k =>
        { k with role := .transfer, rejoinStep := 3 })))) ∧
      (∀ b, exec (.rejoinSelfTest l false b) s = .next ((s.at_ b).rejoinFail l))) ∧
    (x.blk.lane.role = .transfer →
      (x.blk.lane.rejoinStep = 3 → ∀ b, exec (.rejoinKeys l b) s = .next ((s.at_ b).onLane l (fun k =>
        ((k.onFlash (fun f => { f with blobs := y.flash.blobs })).unwrapAll s.pkg.dom.kekValue s.pkg.dom.kekGen).onLaneBlk
          (fun k => { k with rejoinStep := 4 })))) ∧
      (x.blk.lane.rejoinStep = 4 → exec (.rejoinPreCopy l) s = .next (s.onLane l (fun k =>
        ((k.takeReplica y).onLaneBlk (fun b => { b with rejoinStep := 5, percent := 100 })).rejoinNext y))) ∧
      (x.blk.lane.rejoinStep = 5 → ∀ p, p < 16 → ((y.part p).state ≠ .running ∨ (y.part p).phase = .idle ∨ (y.part p).phase = .ready) →
        ∃ t, exec (.rejoinFinalCopy l p) s = .next t ∧ (t.lane l).part p = y.part p ∧
          (∀ c ∈ (y.part p).coreList, (t.lane l).core c = y.core c) ∧ t.lane l.other = y) ∧
      (x.blk.lane.rejoinStep = 6 → ∀ g, g < 8 → (y.group g).awaiting = false →
        ∃ t, exec (.rejoinEngineState l g) s = .next t ∧ (t.lane l).group g = y.group g ∧ (t.lane l).blk.nrg = y.blk.nrg ∧
          t.lane l.other = y) ∧
      (x.blk.lane.rejoinStep = 7 → y.closed = [] →
        (x.bootMeas = y.bootMeas → (x.takeReplica y).stateDigest = y.stateDigest → ∀ b,
          ∃ t, exec (.rejoinJoin l b) s = .next t ∧ (t.lane l).blk.lane.role = .standby ∧ (t.lane l).blk.lane.paired = true ∧
            (t.lane l.other).blk.lane.paired = true ∧ (t.lane l).parts = (s.lane l.other).parts ∧
            (t.lane l).cores = (s.lane l.other).cores) ∧
        (x.bootMeas ≠ y.bootMeas ∨ (x.takeReplica y).stateDigest ≠ y.stateDigest → ∀ b,
          exec (.rejoinJoin l b) s = .next ((s.at_ b).rejoinFail l))))

/-! ### Front-end dies, points and the heddle matrix -/

/-- REGION_FRAME: a running front-end die numbers its next frame, adds its CRC and sends it to every lane in service; unit settings that
waited come into force with it, and a unit's word is what its type makes of the sample. A die that does not run sends nothing (R93, R94,
R195, R237). -/
def Claims.RegionFrameCompletes : Prop :=
  ∀ (s : State) (r : Nat) (samples : List UnitSample),
    ((s.fe r).running = false → exec (.regionFrame r samples) s = .next s) ∧
    (r < 8 → (s.fe r).running = true → ∃ t f, exec (.regionFrame r samples) s = .next t ∧
      (t.fe r).frames.head? = some f ∧ f.number = ((s.fe r).frameNo + 1) % 65536 ∧ (t.fe r).frameNo = f.number ∧
      f.crc = Config.frameCrc (f.number, f.units) ∧
      (∀ l, (s.lane l).inService = true → (t.lane l).frameIn = (s.lane l).frameIn ++ [(r, f, true)]) ∧
      (∀ l, (s.lane l).inService = false → (t.lane l).frameIn = (s.lane l).frameIn) ∧
      (∀ l u, (s.lane l).collects = true → (s.lane l).blk.pnt.pendingUnits = [u] → u.1 / 64 = r →
        (t.lane l).unitCfg u.1 = u.2.1 ∧ (t.lane l).unitParam u.1 = u.2.2.1 ∧ (t.lane l).unitSafeWord u.1 = u.2.2.2 ∧
        (t.lane l).blk.pnt.pendingUnits = []) ∧
      (∀ u, samples = [u] → u.unit < 64 → s.cfgLane.blk.pnt.pendingUnits = [] → s.cfgLane.blk.pnt.retyped = [] →
        (tget {} f.units u.unit).word = ((s.fe r).takeSample (s.cfgLane.unitType (64 * r + u.unit))
          (cfgFilter (s.cfgLane.unitCfg (64 * r + u.unit))) u).2) ∧
      (∀ q, q ≠ r → t.fe q = s.fe q))

/-- TEST_SLOT, OVERCURRENT, READBACK_FAULT, FIELD_SUPPLY_FAULT, FIELD_SUPPLY_RESTORED, FRONT_END_RESTART, FRONT_END_HEARTBEAT_LOSS and
WALKING_VECTOR: what a front-end die reports sets the bits of Table 14-1 in both collectors; a literal that its fault changes is sent at
once (R204 to R212, R226, R236). -/
def Claims.FrontEndReportsComplete : Prop :=
  ∀ (s : State) (r p beat : Nat),
    let now := max s.pkg.beat beat
    (∀ ms (v : SlotResult), r < 8 → (s.fe r).running = true → v.cluster < 8 →
      s.cfgLane.unitType (64 * r + (8 * v.cluster + ms % 8)) ≠ 0 →
      ∃ t, exec (.testSlot r ms beat [v]) s = .next t ∧
        ((t.fe r).testFail.contains (8 * v.cluster + ms % 8) = !(v.injectOk && v.stageOk)) ∧
        (∀ l, (s.lane l).collects = true → (v.injectOk && v.stageOk) = false →
          (t.lane l).hasBit (bitUnit (64 * r + (8 * v.cluster + ms % 8))) = true) ∧
        ((v.injectOk && v.stageOk) = true → (s.fe r).overcurrent.contains (8 * v.cluster + ms % 8) = false →
          ∀ l, (t.lane l).hasCause (bitUnit (64 * r + (8 * v.cluster + ms % 8))) = false)) ∧
    (p < 512 → (s.fe (p / 64)).running = true → isOutputType (s.cfgLane.unitType p) = true →
      exec (.overcurrent p beat) s = .next ((((s.at_ beat).onFe (p / 64) (fun f => { f with
        overcurrent := insSorted (p % 64) f.overcurrent, overBeat := tput 0 f.overBeat (p % 64) now })).raiseBoth (bitUnit p)
          true).literalsMoved (p / 64)) ∧
      exec (.readbackFault p beat) s = .next ((((s.at_ beat).onFe (p / 64) (fun f => { f with
        testFail := insSorted (p % 64) f.testFail, stageFault := insSorted (p % 64) f.stageFault })).raiseBoth (bitUnit p) true).literalsMoved
          (p / 64))) ∧
    (r < 8 → (s.fe r).running = true →
      let supply := fun (f : FieldSupply) (k : Nat) =>
        ((s.onFe r (fun g => { g with fs := some f })).raiseBoth (bitRegion r k) true).literalsMoved r
      exec (.fieldSupplyFault r .low) s = .next (supply .low 1) ∧ exec (.fieldSupplyFault r .high) s = .next (supply .high 2) ∧
      exec (.fieldSupplyFault r .load96) s = .next (supply .load96 3) ∧
      exec (.fieldSupplyFault r .load8) s = .next (supply .load8 7) ∧
      ((s.fe r).planeDiff = none →
        exec (.walkingVector r true) s = .next ((s.endCauseBoth (bitRegion r 5)).literalsMoved r)) ∧
      (∀ d, (s.fe r).planeDiff = some d → d + 100 < s.pkg.beat →
        exec (.walkingVector r true) s = .next ((s.raiseBoth (bitRegion r 5) true).literalsMoved r)) ∧
      exec (.walkingVector r false) s = .next ((s.raiseBoth (bitRegion r 5) true).literalsMoved r)) ∧
    (r < 8 → ∃ t, exec (.fieldSupplyRestored r) s = .next t ∧ (t.fe r).fs = none ∧ (∀ q, q ≠ r → t.fe q = s.fe q) ∧
      ∀ l, (t.lane l).blk.flt.sticky = (s.lane l).blk.flt.sticky ∧
        ∀ b, (t.lane l).hasCause b = ((s.lane l).hasCause b && !([1, 2, 3, 7].any (fun k => decide (b = bitRegion r k))))) ∧
    (r < 8 → (s.fe r).internalFault = true → exec (.frontEndRestart r) s =
      .next ((s.onFe r (fun f => { f with internalFault := false })).endCauseBoth (bitRegion r 0))) ∧
    (r < 8 → (s.fe r).running = true →
      (∀ l, (s.lane l).blk.lane.heartbeat = false ∨ (s.lane l).blk.lane.hbBeat + 2000 ≤ now) →
      exec (.frontEndHeartbeatLoss r beat) s = .next ((s.at_ beat).onFe r (fun f => { f with noHeartbeat := true }))) ∧
    (∀ l, (s.lane l).blk.lane.heartbeat = true → now < (s.lane l).blk.lane.hbBeat + 2000 →
      exec (.frontEndHeartbeatLoss r beat) s = .next (s.at_ beat))

/-- What the front-end dies send and report (R94, R195, R204 to R212, R236, R237). -/
def Obligations.FrontEndRowsComplete : Prop :=
  Claims.RegionFrameCompletes ∧ Claims.FrontEndReportsComplete

/-- THRESHOLD_CROSSING, VECTOR_REFRESH, LITERAL_VECTOR and VECTOR_TIMEOUT: comparators follow the codes, changed literals and a refresh
every 100 µs go to both lanes, a lane evaluates the cross-region terms on each vector, and takes a region silent for 200 µs at its fault
literals (R218, R224, R227, Table 06-8). -/
def Claims.LiteralRowsComplete : Prop :=
  ∀ (s : State) (r p beat : Nat),
    let now := max s.pkg.beat beat
    (∀ ca cb im, p < 512 → (s.fe (p / 64)).running = true → (s.fe (p / 64)).image = some im →
      ∃ t, exec (.thresholdCrossing p ca cb) s = .next t ∧
        tget 0 (t.fe (p / 64)).codeA (p % 64) = ca % 65536 ∧ tget 0 (t.fe (p / 64)).codeB (p % 64) = cb % 65536 ∧
        tget 0 (t.fe (p / 64)).compA (p % 64) =
          comparator (tget {} im.literals (p % 64)) (tget 0 (s.fe (p / 64)).compA (p % 64)) (ca % 65536) ∧
        tget 0 (t.fe (p / 64)).compB (p % 64) =
          comparator (tget {} im.literals (p % 64)) (tget 0 (s.fe (p / 64)).compB (p % 64)) (cb % 65536) ∧
        (t.fe (p / 64)).lastVector = some (t.literalsA (p / 64), t.literalsB (p / 64)) ∧
        (t.fe (p / 64)).vector = (if (s.fe (p / 64)).lastVector = some (t.literalsA (p / 64), t.literalsB (p / 64))
          then (s.fe (p / 64)).vector else ((s.fe (p / 64)).vector + 1) % 65536)) ∧
    (r < 8 → (s.fe r).running = true → (s.fe r).vectorBeat + 10000 ≤ now → ∃ t, exec (.vectorRefresh r beat) s = .next t ∧
      (t.fe r).vector = ((s.fe r).vector + 1) % 65536 ∧ (t.fe r).vectorBeat = now ∧
      let u := (s.at_ beat).planeCheck r
      ∀ l, (t.lane l).vectorIn = if (s.lane l).collects then
        (s.lane l).vectorIn ++ [(r, ((s.fe r).vector + 1) % 65536, u.literalsA r, u.literalsB r)] else (s.lane l).vectorIn) ∧
    (r < 8 → ((s.fe r).planeDiff = none → s.planeCheck r = s) ∧
      (∀ d, (s.fe r).planeDiff = some d → s.planeCheck r = if d + 100 < s.pkg.beat then s.raiseBoth (bitRegion r 5) true else s)) ∧
    (now < (s.fe r).vectorBeat + 10000 → exec (.vectorRefresh r beat) s = .next (s.at_ beat)) ∧
    (∀ l v, (s.lane l).vectorIn.find? (fun v => v.1 = r) = some v →
      exec (.literalVector l r beat) s = .next ((s.at_ beat).onLane l (fun x =>
        (({ x with vectorIn := x.vectorIn.erase v }).onHed (fun h =>
          { h with vectors := oset h.vectors r (v.2.1, v.2.2.1, v.2.2.2, now) })).sendInhibits r v.2.1))) ∧
    (∀ l v, (s.lane l).blk.hed.vectors.lookup r = some v →
      (v.2.2.2 + 20000 ≤ now → exec (.vectorTimeout l r beat) s = .next ((s.at_ beat).onLane l (fun x =>
        (x.onHed (fun h => { h with vectors := odel h.vectors r })).sendInhibits r v.1))) ∧
      (now < v.2.2.2 + 20000 → exec (.vectorTimeout l r beat) s = .next (s.at_ beat)))

/-- A lane sends an inhibit message to each region whose cross-region terms differ from those last sent, and with closed gates to none
(Table 06-8, R107); INHIBIT_MESSAGE: the front-end die applies the active lane's message, or the other lane's while the active lane's
fault line is set or its heartbeat has not toggled for 20 µs, and a differing pair of messages counts as a disagreement of the terms that
differ (R228, R229). -/
def Claims.InhibitMessagesComplete : Prop :=
  (∀ (x : Lane) (r v : Nat),
    (x.blk.lane.gatesClosed = true → x.sendInhibits r v = x) ∧
    (x.blk.lane.gatesClosed = false → ∀ n, n < 8 →
      tget 0 (x.sendInhibits r v).blk.hed.sent n = x.crossTerms n ∧
      ((∃ m ∈ (x.sendInhibits r v).inhibits.drop x.inhibits.length, m.region = n ∧ m.cross = x.crossTerms n) ↔
        x.crossTerms n ≠ tget 0 x.blk.hed.sent n))) ∧
  (∀ (s : State) (l : LaneId) (r : Nat) (m : Inhibit), (s.lane l).inhibits.find? (fun m => m.region = r) = some m →
    ∃ t, exec (.inhibitMessage l r) s = .next t ∧
      (t.lane l).inhibits = (s.lane l).inhibits.erase m ∧
      (∀ k, s.active = some k →
        let alive := (s.lane k).faultLine = false ∧ (s.lane k).blk.lane.heartbeat = true ∧ s.pkg.beat < (s.lane k).blk.lane.hbBeat + 2000
        ((alive ∧ k = l ∨ ¬ alive ∧ k = l.other) → (t.fe r).cross = m.cross) ∧
        ((alive ∧ k = l.other ∨ ¬ alive ∧ k = l) → (t.fe r).cross = (s.fe r).cross)) ∧
      (∀ q, ((s.fe r).inhOf l.other).find? (fun q => q.source = m.source && q.vector = m.vector) = some q →
        (t.fe r).inhOf l.other = ((s.fe r).inhOf l.other).erase q ∧
        (s.a.inService = true → s.b.inService = true → (t.fe r).lastCross = q.cross ^^^ m.cross ∧
          (t.fe r).disagreeCross = (q.cross ^^^ m.cross) &&& (s.fe r).lastCross) ∧
        ∀ k, (t.lane k).blk.lane.outDisagree = (s.lane k).blk.lane.outDisagree +
          (if q.cross ≠ m.cross ∧ s.a.inService = true ∧ s.b.inService = true then 1 else 0)))

/-- Literals, vectors and inhibit messages (R218, R224, R227 to R229, Table 06-8). -/
def Obligations.LiteralAndInhibitRowsComplete : Prop :=
  Claims.LiteralRowsComplete ∧ Claims.InhibitMessagesComplete

/-- HEDDLE_PERSIST, HEDDLE_VERIFY, HEDDLE_SWITCH_OVERLAP_END and HEDDLE_MARK: steps 2 to 6 of Table 06-12. -/
def Claims.HeddleCommitRowsComplete : Prop :=
  ∀ (s : State) (l : LaneId) (r beat : Nat) (c : HedCommit), (s.lane l).blk.hed.commit.lookup r = some c → s.pkg.halted = false →
    (s.lane l).blk.pwr.warn = false → (s.lane l.other).blk.hed.commit.lookup r = none →
    (c.step = 2 → ∃ t, exec (.heddlePersist l r) s = .next t ∧
      (t.lane l).blk.hed.commit.lookup r = some { c with step := 3 } ∧
      tget [] (t.lane l).flash.heddle r = putSpare (tget [] (s.lane l).flash.heddle r) c.image ∧
      (s.active = some l → (t.fe r).shadow = some c.image) ∧ (t.fe r).image = (s.fe r).image ∧
      (t.lane l).blk.hed.image = (s.lane l).blk.hed.image) ∧
    (c.step = 3 → ∃ t, exec (.heddleVerify l r c.expected) s = .next t ∧
      (t.fe r).image = some c.image ∧ (t.fe r).old = (s.fe r).image ∧ (t.fe r).shadow = none ∧
      (t.lane l).blk.hed.image.lookup r = some c.image ∧ tget 0 (t.lane l).blk.hed.crc r = c.image.crc ∧
      (t.lane l).blk.hed.commit.lookup r = some { c with step := 5 }) ∧
    (∀ v, c.step = 3 → v ≠ c.expected → exec (.heddleVerify l r v) s = .next (s.endCommits r .lanesDisagree) ∧
      (s.endCommits r .lanesDisagree).fe r = s.fe r) ∧
    (∃ t, exec (.heddleSwitchOverlapEnd r) s = .next t ∧ (t.fe r).old = none ∧ (t.fe r).image = (s.fe r).image ∧
      ∀ k, (t.lane k).blk.hed.old.lookup r = none) ∧
    (c.step = 5 → max s.pkg.beat beat < c.beat + abandonBeats → ∃ t, exec (.heddleMark l r beat) s = .next t ∧
      tget [] (t.lane l).flash.heddle r = markSpare (tget [] (s.lane l).flash.heddle r) ∧
      (t.lane l).blk.hed.commits = (s.lane l).blk.hed.commits + 1 ∧ (t.lane l).committing r = false) ∧
    (c.step = 5 → c.beat + abandonBeats ≤ max s.pkg.beat beat →
      exec (.heddleMark l r beat) s = .next ((s.at_ beat).endCommit l r .busy []))

/-- CRC_CHECK and CROSS_REGION_CRC_CHECK: a front-end die's CRCs that equal HED_CRC of both lanes count as a check and end the cause,
others set the region's bit; a lane's own cross-region terms that differ are class L (R234, R235). Before a region's first commit the
model compares nothing, its own choice (log entry 34). -/
def Claims.CrcRowsComplete : Prop :=
  ∀ (s : State) (l : LaneId) (r beat : Nat) (a b : Word), r < 8 →
    ((s.fe r).running = true → (s.fe r).image.isSome = true →
      ((∀ k, (s.lane k).inService = true → tget 0 (s.lane k).blk.hed.crc r = a ∧ tget 0 (s.lane k).blk.hed.crc r = b) →
        ∃ t, exec (.crcCheck r a b) s = .next t ∧ ∀ k, (t.lane k).hasCause (bitRegion r 4) = false ∧
          (t.lane k).blk.hed.checks = (s.lane k).blk.hed.checks + (if (s.lane k).inService then 1 else 0)) ∧
      (∀ k, (s.lane k).inService = true → tget 0 (s.lane k).blk.hed.crc r ≠ a ∨ tget 0 (s.lane k).blk.hed.crc r ≠ b →
        exec (.crcCheck r a b) s = .next ((s.raiseBoth (bitRegion r 4) true).literalsMoved r))) ∧
    ((s.lane l).inService = true → ((s.lane l).blk.hed.image.lookup r).isSome = true →
      (a ≠ tget 0 (s.lane l).blk.hed.crc r → exec (.crossRegionCrcCheck l r a beat) s = .next ((s.at_ beat).raise l 169 true)) ∧
      (a = tget 0 (s.lane l).blk.hed.crc r → exec (.crossRegionCrcCheck l r a beat) s = .next (s.at_ beat)))

/-- The heddle commit of Table 06-12, and the CRC checks (R230 to R235). -/
def Obligations.HeddleRowsComplete : Prop :=
  Claims.HeddleCommitRowsComplete ∧ Claims.CrcRowsComplete

/-! ### Loops and metering -/

/-- SAMPLE_INSTANT, SAMPLE_MESSAGE and SAMPLE_COMPUTATION: at a multiple of PERIOD the active lane computes a sample and sends its
message; the standby lane computes the same sample once it holds what the message names; a group of a smaller PERIOD, or of equal PERIOD
and lower number, whose sample is due is served first (R244, R246, R284). -/
def Claims.SampleRowsComplete : Prop :=
  ∀ (s : State) (l : LaneId) (g beat : Nat), g < 8 →
    let now := max s.pkg.beat beat
    let o := (s.lane l).group g
    let first := ∀ h, h < 8 → (s.lane l).servedBefore h g = true → (s.lane l).sampleDue h now = false
    (s.active = some l → (s.lane l).inService = true → (s.lane l.other).inService = false → (s.lane l).groupLive g = true →
      now % (100 * o.period) = 0 → o.instant ≠ now → o.awaiting = false → o.complete ≤ now → o.delayed = false → first →
      ∃ t, exec (.sampleInstant g beat) s = .next t ∧ ((t.lane l).group g).sample = now / (100 * o.period) ∧
        ((t.lane l).group g).instant = now ∧ ((t.lane l).group g).awaiting = false ∧ ((t.lane l).group g).judged = none ∧
        ((t.lane l).group g).frames.isSome = true) ∧
    (s.active = some l → (s.lane l).inService = true → (s.lane l.other).inService = true → (s.lane l).groupLive g = true →
      now % (100 * o.period) = 0 → o.instant ≠ now → o.awaiting = false → o.complete ≤ now → o.delayed = false → first →
      ((s.lane l.other).group g).awaiting = false → ((s.lane l.other).group g).complete ≤ now →
      ∃ t m, exec (.sampleInstant g beat) s = .next t ∧ (t.lane l.other).inbox = (s.lane l.other).inbox ++ [.sample m] ∧ m.group = g ∧
        m.sample = now / (100 * o.period) ∧ m.instant = now ∧ m.pick = (s.lane l).blk.pick.released ∧
        ((t.lane l.other).group g).awaiting = true) ∧
    (s.active = some l → ¬ ((s.lane l).groupLive g = true ∧ now % (100 * o.period) = 0) →
      exec (.sampleInstant g beat) s = .next (s.at_ beat)) ∧
    (∀ h, s.active = some l → h < 8 → (s.lane l).servedBefore h g = true → (s.lane l).sampleDue h now = true →
      exec (.sampleInstant g beat) s = .next (s.at_ beat)) ∧
    (∀ m, (s.lane l).inbox.find? (groupMsg g) = some (.sample m) → (s.lane l).inService = true → o.delayed = false →
      exec (.sampleMessage l g) s = .next ((s.onLane l (fun x => { x with inbox := x.inbox.erase (.sample m) })).onLane l
        (fun x => x.onGroup g (fun o => { o with msgs := o.msgs ++ [m] })))) ∧
    (∀ m, o.msgs.head? = some m → (s.lane l).inService = true →
      ((s.lane l).canCompute m = true → (∀ h, h < 8 → (s.lane l).servedBefore h g = true → (s.lane l).pendingSample h = none) →
        exec (.sampleComputation l g beat) s = .next ((s.at_ beat).computeSample l m)) ∧
      ((s.lane l).canCompute m = false → exec (.sampleComputation l g beat) s = .next (s.at_ beat)))

/-- ON_TIME_JUDGEMENT, JUDGEMENT_MESSAGE, OUTPUT_PHASE, LATE_SAMPLE and LATE_SAMPLE_WINDOW: the active lane judges a sample 2 beats
before s_k + PHASE, both lanes act on that judgement, the outputs are written at the phase, a computation that is not complete at the
next instant is class L, and a standby lane 1,000 µs and a further 1 ms late leaves service (R247, R279 to R283). -/
def Claims.JudgementRowsComplete : Prop :=
  ∀ (s : State) (l : LaneId) (g beat : Nat), g < 8 → (s.lane l).inService = true →
    let now := max s.pkg.beat beat
    let o := (s.lane l).group g
    (∀ n, s.active = some l → o.frames.isSome = true → o.judged = none → o.instant + o.phaseNow ≤ now + 2 →
      let onTime := decide (n + 2 ≤ o.phaseNow) && !o.awaiting
      let s1 := (s.at_ beat).onLane l (fun x => (x.judge l g now o.sample onTime ((o.phaseNow : Int) - n)).onGroup g
        (fun q => { q with complete := q.instant + n }))
      exec (.onTimeJudgement g n beat) s =
        .next (if (s.lane l.other).inService then s1.send l (.judgement g o.sample onTime ((o.phaseNow : Int) - n)) else s1)) ∧
    (s.active = some l → now + 2 < o.instant + o.phaseNow → ∀ n, exec (.onTimeJudgement g n beat) s = .next (s.at_ beat)) ∧
    (∀ k on sl, (s.lane l).inbox.find? (groupMsg g) = some (.judgement g k on sl) →
      ((o.awaiting = false ∨ o.sample ≠ k) → (o.sample ≠ k ∨ o.judged = none) →
        exec (.judgementMessage l g) s = .next ((s.onLane l (fun x => { x with inbox := x.inbox.erase (.judgement g k on sl) })).onLane l
          (fun x => x.judge l g s.pkg.beat k on sl))) ∧
      (o.awaiting = true → o.sample = k → exec (.judgementMessage l g) s = .next s)) ∧
    (s.active = some l → (s.lane l.other).inService = true → (s.lane l).groupLive g = true → now % (100 * o.period) = 0 →
      o.instant ≠ now → (∀ h, h < 8 → (s.lane l).servedBefore h g = true → (s.lane l).sampleDue h now = false) →
      (((s.lane l.other).group g).awaiting = true ∨ now < ((s.lane l.other).group g).complete) →
      ∃ t, exec (.sampleInstant g beat) s = .next t ∧ (t.lane l.other).hasBit 170 = true) ∧
    (o.judged = some true → o.delayed = false → o.awaiting = false →
      (o.instant + o.phaseNow ≤ now → exec (.outputPhase l g beat) s = .next ((s.at_ beat).onLane l (fun x => x.writeOutputs g now))) ∧
      (now < o.instant + o.phaseNow → exec (.outputPhase l g beat) s = .next (s.at_ beat))) ∧
    (s.active ≠ some l → o.awaiting = true → o.late = none → (s.lane l).faultLine = false →
      (o.instant + 100000 ≤ now → exec (.lateSample l g beat) s = .next ((s.at_ beat).onLane l (fun x => x.onGroup g (fun o =>
        { o with late := some now })))) ∧
      (now < o.instant + 100000 → exec (.lateSample l g beat) s = .next (s.at_ beat))) ∧
    (∀ t, s.active ≠ some l → o.late = some t → t + msBeats ≤ now →
      exec (.lateSampleWindow l g beat) s = .next (((s.at_ beat).onLane l (fun x => x.onGroup g (fun o => { o with late := none }))).raise
        l 167 true))

/-- The samples of the loop engine, their judgement and their outputs (R244 to R247, R279 to R283). -/
def Obligations.LoopRowsComplete : Prop :=
  Claims.SampleRowsComplete ∧ Claims.JudgementRowsComplete

/-- How a judgement changes a group: a late sample on the main path enters delay mode and counts a fallback; a sample on time after
sixteen on-time samples in delay mode, with the pin off, leaves it (R281, R282, Table 07-4). -/
def Obligations.DelayModeFollowsJudgements : Prop :=
  ∀ (x : Lane) (l : LaneId) (g now k : Nat) (onTime : Bool) (slack : Int),
    let o := x.group g
    let y := (x.judge l g now k onTime slack).group g
    (o.delayed = false → onTime = true → y.delayed = false ∧ y.fallbacks = o.fallbacks ∧ (o.sample = k → y.judged = some true)) ∧
    (o.delayed = false → onTime = false →
      y.delayed = true ∧ y.fallbacks = o.fallbacks + 1 ∧ y.onTime = 0 ∧ (o.sample = k → y.judged = some false)) ∧
    (o.delayed = true → y.delayed = (o.pinNow || !(onTime && decide (o.onTime = 16))) ∧ y.fallbacks = o.fallbacks) ∧
    (onTime = true → y.onTime = min 16 (o.onTime + 1)) ∧ y.period = o.period ∧ y.sample = o.sample ∧
    ∀ h, h ≠ g → (x.judge l g now k onTime slack).group h = x.group h

/-- DECIMATOR_BLOCK, BLOCK_CRC, WINDOW_END, WINDOW_MESSAGE, PULSE_START and PULSE_END: block n of the decimators' samples ends at module beat
count 100,000 n; blocks are agreed by CRC, a difference is counted and settled on the active lane's block, the third within 8 ms is class L;
windows of 100 ms end at the named pick in both lanes; a pulse lasts 32 ms, with 30.5 ms before the next (R292, R293, R300, R301,
R312). -/
def Obligations.MeterRowsComplete : Prop :=
  ∀ (s : State) (l : LaneId) (beat : Nat), (s.lane l).inService = true →
    let now := max s.pkg.beat beat
    let b := (s.lane l).blk.nrg
    let o := s.pkg.order
    (∀ v i, o ≠ .m00 → (s.lane l).clockLost 4 = false →
      let d := (s.lane l).decimate o v i
      let n := s.pkg.beat / 100000
      let s0 := s.onLane l (fun _ => d.1)
      (b.en = true → b.blockNo < n → (s.lane l.other).inService = true →
        exec (.decimatorBlock l v i) s = .next ((s0.onLane l (fun y => y.onNrg (fun b =>
          { b with blockNo := n, blocks := b.blocks ++ [(n, d.2.1, d.2.2)] }))).send l (.block n d.2.1 d.2.2 (blockCrc o d.2.1 d.2.2)))) ∧
      (b.en = true → b.blockNo < n → (s.lane l.other).inService = false →
        exec (.decimatorBlock l v i) s = .next (s0.onLane l (fun y => (y.onNrg (fun b => { b with blockNo := n })).takeBlock l
          o n d.2.1 d.2.2))) ∧
      (b.en = false ∨ n ≤ b.blockNo → exec (.decimatorBlock l v i) s = .next s0)) ∧
    (o = .m00 → ∀ v i, exec (.decimatorBlock l v i) s = .next s) ∧
    (∀ own rest v i crc, b.blocks = own :: rest →
      (s.lane l).inbox.find? (fun q => match q with | .block n .. => decide (n = own.1) | _ => false) = some (.block own.1 v i crc) →
      let s1 := (s.at_ beat).onLane l (fun y => { y with inbox := y.inbox.erase (.block own.1 v i crc) }.onNrg (fun b =>
        { b with blocks := rest }))
      (crc = blockCrc o own.2.1 own.2.2 → exec (.blockCrc l beat) s = .next (s1.onLane l (fun y => y.takeBlock l o own.1 own.2.1 own.2.2))) ∧
      (crc ≠ blockCrc o own.2.1 own.2.2 → s.active = some l → exec (.blockCrc l beat) s = .next (s1.onLane l (fun y =>
        (y.takeBlock l o own.1 own.2.1 own.2.2).onNrg (fun b => { b with mismatch := b.mismatch + 1 })))) ∧
      (crc ≠ blockCrc o own.2.1 own.2.2 → s.active ≠ some l →
        let ts := now :: b.mismatches.filter (fun t => decide (now < t + 800000))
        let s2 := (s1.onLane l (fun y => (y.takeBlock l o own.1 v i).onNrg (fun b => { b with mismatch := b.mismatch + 1 }))).onLane l
          (fun y => y.onNrg (fun k => { k with mismatches := ts }))
        exec (.blockCrc l beat) s = .next (if 3 ≤ ts.length then s2.raise l 168 true else s2))) ∧
    (s.active = some l → o ≠ .m00 → now % 10000000 = 0 → b.window < now / 10000000 →
      exec (.windowEnd beat) s = .next ((if (s.lane l.other).inService then
        (s.at_ beat).send l (.window (now / 10000000) (s.lane l).blk.pick.released) else s.at_ beat).completeWindow l (now / 10000000)
          (s.lane l).blk.pick.released)) ∧
    (∀ w pick, (s.lane l).inbox.find? (fun q => match q with | .window .. => true | _ => false) = some (.window w pick) →
      (pick = (s.lane l).blk.pick.released ∨ serialBefore pick (s.lane l).blk.pick.released = true →
        exec (.windowMessage l) s = .next ((s.onLane l (fun y => { y with inbox := y.inbox.erase (.window w pick) })).completeWindow l w
          pick)) ∧
      (pick ≠ (s.lane l).blk.pick.released → serialBefore pick (s.lane l).blk.pick.released = false →
        exec (.windowMessage l) s = .next s)) ∧
    (∀ n, n < o.pulses → ∃ t, exec (.pulseStart n beat) s = .next t ∧ ∃ u, exec (.pulseEnd n beat) s = .next u ∧
      let p := (s.lane l).pulse n
      ((p.on = false → pulseEn p.cfg = true → p.backlog ≠ 0 → (∀ e, p.offBeat = some e → e + 3050000 ≤ now) →
        (s.lane l).blk.pwr.warn = false → (t.lane l).pulse n = { p with on := true, onBeat := now }) ∧
      (p.backlog = 0 ∨ (s.lane l).blk.pwr.warn = true → (t.lane l).pulse n = p) ∧
      (p.on = true → p.onBeat + 3200000 ≤ now → (u.lane l).pulse n =
        { p with on := false, offBeat := some now, backlog := p.backlog - 1, saturated := false } ∧
        (u.lane l).mram.backlogOf n = some (p.backlog - 1)) ∧
      (p.on = true → now < p.onBeat + 3200000 → (u.lane l).pulse n = p)))

/-- Spilling: a direction of a circuit gives one pulse for each whole weight in its accumulator, at most `n` of them; what is left
over stays, and each pulse advances the issued number of its direction by one (R307, R308). -/
def Obligations.SpillIssuesWholePulses : Prop :=
  ∀ (x : Lane) (l : LaneId) (c n a : Nat), (x.circuit c).weight ≠ 0 → (x.circuit c).acc = (a : Int) →
    let w := (x.circuit c).weight
    let k := min n (a / w)
    let y := Lane.spill l c 0 n x
    (y.circuit c).acc = ((a - k * w : Nat) : Int) ∧ (y.circuit c).impIssued = (x.circuit c).impIssued + w32 k ∧
      (y.circuit c).exp = (x.circuit c).exp ∧ (y.circuit c).expIssued = (x.circuit c).expIssued ∧ (y.circuit c).weight = w

/-! ### Network -/

/-- NET_FRAME_RECEIVED: the checks of Table 10-3 in their order. A frame that is not for the pair leaves no trace; a bad check sequence,
a bad size, a frame that no rule steers, a bad header and an ARP or ICMP frame above the limit of its interval are dropped and counted; a
supervision frame is counted; a valid PAUSE loads the port's timer; a steered frame that passes enters the port's stream (R385 to R396). A
port whose T1 is lost passes nothing (R34). -/
def Claims.NetFramesAreChecked : Prop :=
  ∀ (s : State) (l : LaneId) (n beat : Nat) (f : Frame), n < 2 →
    let t := s.at_ beat
    let x := (s.lane l).netBoundary n
    let c := (x.port n).pair
    let count := fun (g : PortSt → PortSt) => t.onLane l (fun _ => x.onPort n g)
    (((x.port n).en = false ∨ x.blk.lane.role = .off ∨ x.clockLost 1 = true) →
      exec (.netFrameReceived l n f beat) s = .next (t.onLane l (fun _ => x))) ∧
    ((x.port n).en = true → x.blk.lane.role ≠ .off → x.clockLost 1 = false →
    (dstOk c f.dst = false → exec (.netFrameReceived l n f beat) s = .next (t.onLane l (fun _ => x))) ∧
    (dstOk c f.dst = true →
      (f.fcsOk = false → exec (.netFrameReceived l n f beat) s = .next (count (fun p => { p with rxFcsErr := p.rxFcsErr + 1 }))) ∧
      (f.fcsOk = true →
        (f.clientLen < 46 ∨ 9000 < f.clientLen ∨ groupBit f.src = true →
          exec (.netFrameReceived l n f beat) s = .next (count (fun p => { p with rxSizeErr := p.rxSizeErr + 1 }))) ∧
        (∀ op q, 46 ≤ f.clientLen → f.clientLen ≤ 9000 → groupBit f.src = false → f.body = .pause op q →
          let y := x.onPort n (fun p => { p with rxFrames := p.rxFrames + 1 })
          ((f.dst = 0x0180C2000001#48 ∨ f.dst = c.mac) → f.etherType = 0x8808 → op = 1 →
            exec (.netFrameReceived l n f beat) s = .next (t.onLane l (fun _ => y.takePause n q (max s.pkg.beat beat)))) ∧
          (¬ ((f.dst = 0x0180C2000001#48 ∨ f.dst = c.mac) ∧ f.etherType = 0x8808 ∧ op = 1) →
            exec (.netFrameReceived l n f beat) s =
              .next (t.onLane l (fun _ => y.onPort n (fun p => { p with rxFilterDrop := p.rxFilterDrop + 1 }))))) ∧
        (46 ≤ f.clientLen → f.clientLen ≤ 9000 → groupBit f.src = false → (∀ op q, f.body ≠ .pause op q) →
          let y := x.onPort n (fun p => { p with rxFrames := p.rxFrames + 1 })
          (f.dst = 0x01154E000100#48 → f.etherType = 0x88FB → exec (.netFrameReceived l n f beat) s =
            .next (t.onLane l (fun _ => y.onPort n (fun p => { p with rxSupervision := p.rxSupervision + 1 })))) ∧
          (¬ (f.dst = 0x01154E000100#48 ∧ f.etherType = 0x88FB) →
            (y.blk.net.steer n f = none → exec (.netFrameReceived l n f beat) s =
              .next (t.onLane l (fun _ => y.onPort n (fun p => { p with rxFilterDrop := p.rxFilterDrop + 1 })))) ∧
            (∀ ring, y.blk.net.steer n f = some ring →
              (headerCheck c f = none → exec (.netFrameReceived l n f beat) s =
                .next (t.onLane l (fun _ => y.onPort n (fun p => { p with rxHdrDrop := p.rxHdrDrop + 1 })))) ∧
              (∀ k, headerCheck c f = some k → k = .other ∨ (∃ d b, k = .udp d b) → exec (.netFrameReceived l n f beat) s =
                .next (t.onLane l (fun _ => y.takeFrameIn l n ring (s.lane l).man.moduleId.toNat (max s.pkg.beat beat) f k))) ∧
              (headerCheck c f = some .arp →
                (100 ≤ (x.port n).arpCount → exec (.netFrameReceived l n f beat) s =
                  .next (t.onLane l (fun _ => y.onPort n (fun p => { p with rxHdrDrop := p.rxHdrDrop + 1 })))) ∧
                ((x.port n).arpCount < 100 → exec (.netFrameReceived l n f beat) s =
                  .next (t.onLane l (fun _ => (y.onPort n (fun p => { p with arpCount := p.arpCount + 1 })).takeFrameIn l n ring
                    (s.lane l).man.moduleId.toNat (max s.pkg.beat beat) f .arp)))) ∧
              (headerCheck c f = some .icmp →
                (100 ≤ (x.port n).icmpCount → exec (.netFrameReceived l n f beat) s =
                  .next (t.onLane l (fun _ => y.onPort n (fun p => { p with rxHdrDrop := p.rxHdrDrop + 1 })))) ∧
                ((x.port n).icmpCount < 100 → exec (.netFrameReceived l n f beat) s =
                  .next (t.onLane l (fun _ => (y.onPort n (fun p => { p with icmpCount := p.icmpCount + 1 })).takeFrameIn l n ring
                    (s.lane l).man.moduleId.toNat (max s.pkg.beat beat) f .icmp))))))))))

/-- PAUSE: a port that the fill of its rings made pause repeats its frame, and its limits are 1 s; a received PAUSE holds the port until
its timer ends (PAUSE_TIMER_EXPIRY, PAUSE_REPEAT, PAUSE_LONG, PAUSE_CAPPED; R396 to R399). -/
def Claims.PauseRowsComplete : Prop :=
  ∀ (s : State) (l : LaneId) (n beat : Nat), n < 2 →
    let now := max s.pkg.beat beat
    let p := (s.lane l).port n
    let t := s.at_ beat
    (∀ e, p.paused = some e →
      (e ≤ now → exec (.pauseTimerExpiry l n beat) s = .next (t.onLane l (fun x => (x.onPort n (fun p =>
        { p with paused := none, pausedSince := none, pauseLong := false })).endCause (portBit n 1)))) ∧
      (now < e → exec (.pauseTimerExpiry l n beat) s = .next t)) ∧
    (∀ e, p.pauseSent = some e → p.pausing = true → p.pauseCapped = false → pctLow p.ctl < (s.lane l).fillPercent n →
      (e + quantaBeats 0xFFFF p.speed10 / 2 ≤ now → exec (.pauseRepeat l n beat) s =
        .next (t.onLane l (fun x => x.onPort n (fun p => { p with
          txPause := p.txPause + 1, pauseOut := 0xFFFF :: p.pauseOut, pauseSent := some now })))) ∧
      (now < e + quantaBeats 0xFFFF p.speed10 / 2 → exec (.pauseRepeat l n beat) s = .next t)) ∧
    (∀ e, p.pausedSince = some e → p.paused.isSome = true →
      (e + secBeats ≤ now → exec (.pauseLong l n beat) s = .next ((t.onLane l (fun x => x.onPort n (fun p =>
        { p with pauseLong := true }))).flag l (portBit n 1) true)) ∧
      (now < e + secBeats → exec (.pauseLong l n beat) s = .next t)) ∧
    (∀ e, p.pauseFirst = some e → p.pausing = true → p.pauseCapped = false →
      (e + secBeats ≤ now → exec (.pauseCapped l n beat) s = .next ((t.onLane l (fun x => x.onPort n (fun p =>
        { p with pauseCapped := true }))).flag l (portBit n 2) true)) ∧
      (now < e + secBeats → exec (.pauseCapped l n beat) s = .next t))

/-- Received frames and PAUSE (R385 to R399). -/
def Obligations.PortRowsComplete : Prop :=
  Claims.NetFramesAreChecked ∧ Claims.PauseRowsComplete

/-- ARP_REQUEST, NEIGHBOUR_SOLICITATION and ECHO_REQUEST: the oldest released frame of the kind is answered on its pair, or is dropped
where it does not ask for the pair's own address. INTAKE_INTERVAL starts the limits of a new second, PRP_SOURCE_AGEOUT forgets a source
that has been silent for 60 s, PRP_SUPERVISION_TIMER asks for a supervision frame every 2 s, and EVENT_RESEND and SUBSCRIPTION_END keep the
times of a subscription (R331, R382, R383, R388, R389, R364, R499). -/
def Claims.NetworkServiceRowsComplete : Prop :=
  ∀ (s : State) (l : LaneId) (beat : Nat),
    let now := max s.pkg.beat beat
    let t := s.at_ beat
    let pairOf := fun (k : Nat) => if k = 0 then (s.lane l).blk.net.estate else (s.lane l).blk.net.floor
    let ans := fun (e : Nat × Frame) (bs : Option (List Byte)) => s.onLane l (fun x => match bs with
      | some b => ({ x with netQueue := x.netQueue.erase e }).postTx (56 + 2 * e.1) s.pkg.beat (frameSource e.2) 0 b
      | none => { x with netQueue := x.netQueue.erase e })
    (∀ e, (s.lane l).netQueue.find? (fun e => isArp e.2) = some e →
      exec (.arpRequest l) s = .next (ans e (arpAnswer (pairOf e.1) e.2))) ∧
    (∀ e, (s.lane l).netQueue.find? (fun e => isSolicit e.2) = some e →
      exec (.neighbourSolicitation l) s = .next (ans e (solicitAnswer (pairOf e.1) e.2))) ∧
    (∀ e, (s.lane l).netQueue.find? (fun e => isEcho e.2) = some e →
      exec (.echoRequest l) s = .next (ans e (echoAnswer (pairOf e.1) e.2))) ∧
    (beat % secBeats = 0 → ∃ u, exec (.intakeInterval beat) s = .next u ∧ u.pkg.sp.unprotected = 0 ∧
      ∀ k n, n < 2 → ((u.lane k).port n) = { (s.lane k).port n with unprotected := 0, arpCount := 0, icmpCount := 0 }) ∧
    (∀ k mac, ∃ u, exec (.prpSourceAgeout l k mac beat) s = .next u ∧
      ∀ e, (e ∈ (if k = 0 then (u.lane l).man.prpEstate else (u.lane l).man.prpFloor) ↔
        e ∈ (if k = 0 then (s.lane l).man.prpEstate else (s.lane l).man.prpFloor) ∧ ¬ (e.mac = mac ∧ e.lastBeat + 60 * secBeats ≤ now))) ∧
    ((s.lane l).blk.net.supNext ≤ now → exec (.prpSupervisionTimer l beat) s = .next (t.onLane l (fun x => x.onNet (fun b =>
      { b with supDue := some b.supNext, supNext := (now / (2 * secBeats) + 1) * (2 * secBeats) })))) ∧
    (∀ p q, ((s.lane l).sender p).sub = some q →
      (q.via = .service → exec (.eventResend l p beat) s = .next t) ∧
      ((∀ e ∈ q.unacked, now < e.last + ageBeats) → ∃ u, exec (.eventResend l p beat) s = .next u ∧
        ((u.lane l).sender p).sub = some q ∧ (u.lane l).txRings = (s.lane l).txRings ∧ u.pkg = t.pkg) ∧
      (∀ e, q.unacked = [e] → e.last + ageBeats ≤ now → (s.lane l).releases = true → q.via ≠ .service →
        exec (.eventResend l p beat) s = .next ((t.onLane l (fun x => x.onSub p (fun q =>
          some { q with unacked := [{ e with last := now }] }))).sendPacket l q.via q.src e.bytes)) ∧
      (∀ e r, q.unacked = e :: r →
        (e.first + 60 * secBeats ≤ now → exec (.subscriptionEnd l p beat) s =
          .next ((t.onLane l (fun x => x.onSender p (fun r => { r with sub := none }))).flag l 2090 false)) ∧
        (now < e.first + 60 * secBeats → exec (.subscriptionEnd l p beat) s = .next t)))

/-- TX_FRAME_START, TX_UNDERRUN, SF_HOLD_END and TX_AGED_DROP: a port sends the next entry that has waited at most 100 ms, sends a frame
whose FIFO ran empty again, and holds store-and-forward for 10 s after the sixteenth underrun of a second (R373 to R378). -/
def Obligations.TransmitRowsComplete : Prop :=
  ∀ (s : State) (l : LaneId) (n beat : Nat), n < 2 →
    let now := max s.pkg.beat beat
    let t := s.at_ beat
    let x := ((s.lane l).netBoundary n).dropAged n now
    (∀ e served, (x.port n).en = true → x.blk.lane.gatesClosed = false → x.clockLost 1 = false → (x.port n).link = true →
      (∀ b, (x.port n).paused = some b → b ≤ now) →
      x.nextTx n = some (e, served) → ∃ u, exec (.txFrameStart l n beat) s = .next u ∧
        u.pkg.sent = (l, n, { e with wire := e.frame l }, true) :: s.pkg.sent ∧ (u.lane l).txRings = x.txRings.erase e ∧
        (u.lane l).port n = { x.port n with txFrames := (x.port n).txFrames + 1, sending := some e, lowServed := served }) ∧
    (∀ e b, (x.port n).en = true → x.blk.lane.gatesClosed = false → x.clockLost 1 = false → (x.port n).link = true →
      (x.port n).paused = some b → now < b → x.nextTx n = some e →
      exec (.txFrameStart l n beat) s = .next (t.onLane l (fun _ => x.onPort n (fun q => { q with sending := none })))) ∧
    (∀ e served, (x.port n).en = true → x.blk.lane.gatesClosed = false → x.clockLost 1 = false → (x.port n).link = false →
      x.nextTx n = some (e, served) → ∃ u, exec (.txFrameStart l n beat) s = .next u ∧ u.pkg.sent = s.pkg.sent ∧
        (u.lane l).txRings = x.txRings.erase e ∧
        (u.lane l).port n = { x.port n with txLinkDrop := (x.port n).txLinkDrop + 1, sending := none, lowServed := served }) ∧
    ((s.lane l).blk.lane.gatesClosed = true ∨ (s.lane l).clockLost 1 = true → exec (.txFrameStart l n beat) s = .next t) ∧
    (∀ e, ((s.lane l).port n).sending = some e → s.cutThrough l n = true → e.resend = false →
      let p := (s.lane l).port n
      let us := now :: p.underruns.filter (fun u => decide (now < u + secBeats))
      ∃ u, exec (.txUnderrun l n beat) s = .next u ∧ (u.lane l).txRings = { e with resend := true } :: (s.lane l).txRings ∧
        (u.lane l).port n = { p with
          txUnderrun := p.txUnderrun + 1, sending := none, underruns := us, sfHold := if 16 ≤ us.length then some (now + 10 * secBeats) else p.sfHold } ∧
        (16 ≤ us.length → (s.lane l).collects = true → (u.lane l).hasBit (portBit n 3) = true)) ∧
    (∀ e, ((s.lane l).port n).sfHold = some e →
      (e ≤ now → exec (.sfHoldEnd l n beat) s = .next (t.onLane l (fun x => (x.onPort n (fun p => { p with sfHold := none })).endCause
        (portBit n 3)))) ∧
      (now < e → exec (.sfHoldEnd l n beat) s = .next t)) ∧
    (∃ u, exec (.txAgedDrop l n beat) s = .next u ∧
      ∀ e, (e ∈ (u.lane l).txRings ↔ e ∈ (s.lane l).txRings ∧ ¬ ((e.ring = 56 + 2 * n ∨ e.ring = 57 + 2 * n) ∧ e.beat + ageBeats < now)))

/-- LINK_LOSS, LINK_UP, SPEED_DECISION, RENEGOTIATION_TIMEOUT and LOWER_SUSPENDED_END: the loss of a link is class N; the active lane's
lane manager changes a port's speed only with both lanes in service, the other lane's port linked and 10 s after that port's last change; a
renegotiation that does not end within 2 s suspends lowering for an hour (R400 to R403). -/
def Claims.LinkRowsComplete : Prop :=
  ∀ (s : State) (l : LaneId) (n beat : Nat), n < 2 →
    let now := max s.pkg.beat beat
    let t := s.at_ beat
    let p := (s.lane l).port n
    let q := (s.lane l.other).port n
    (p.link = true → exec (.linkLoss l n) s = .next ((s.onLane l (fun x => x.onPort n (fun k =>
      { k with link := false }))).flag l (portBit n 0) true)) ∧
    (p.link = false → exec (.linkLoss l n) s = .next s) ∧
    (∃ u, exec (.linkUp l n beat) s = .next u ∧ ((u.lane l).port n).link = true ∧ ((u.lane l).port n).reneg = none ∧
      (u.lane l).hasCause (portBit n 0) = false ∧
      (∀ b v, p.reneg = some (b, v) → ((u.lane l).port n).speed10 = v ∧ ((u.lane l).port n).speedBeat = now ∧
        ((u.lane l).port n).speedChanges = p.speedChanges + 1)) ∧
    (∀ up, s.a.inService = true → s.b.inService = true → s.active.isSome = true → q.link = true → q.speedBeat + 10 * secBeats ≤ now →
      p.reneg = none →
      (((s.lane l).pinnedSpeed n).getD up ≠ p.speed10 → (((s.lane l).pinnedSpeed n).getD up = true ∨ p.lowerSuspended = none) →
        exec (.speedDecision l n up beat) s = .next (t.onLane l (fun z => z.onPort n (fun k =>
          { k with reneg := some (now, ((s.lane l).pinnedSpeed n).getD up), link := false, sending := none })))) ∧
      (((s.lane l).pinnedSpeed n).getD up = p.speed10 → exec (.speedDecision l n up beat) s = .next t)) ∧
    (∀ up, (s.lane l.other).inService = false ∨ q.link = false ∨ now < q.speedBeat + 10 * secBeats →
      exec (.speedDecision l n up beat) s = .next t) ∧
    (∀ b v, p.reneg = some (b, v) →
      (b + 2 * secBeats ≤ now → exec (.renegotiationTimeout l n beat) s = .next ((t.onLane l (fun x => x.onPort n (fun k =>
        { k with reneg := none, lowerSuspended := some (now + 3600 * secBeats) }))).flag l 2099 false)) ∧
      (now < b + 2 * secBeats → exec (.renegotiationTimeout l n beat) s = .next t)) ∧
    (∀ e, p.lowerSuspended = some e →
      (e ≤ now → exec (.lowerSuspendedEnd l n beat) s = .next (t.onLane l (fun x => x.onPort n (fun k =>
        { k with lowerSuspended := none })))) ∧
      (now < e → exec (.lowerSuspendedEnd l n beat) s = .next t))

/-- What the lane manager does for its ports: answers, intervals, supervision, subscriptions, links and speed (R364, R382, R383, R388,
R389, R400 to R403, R499). -/
def Obligations.LinkAndServiceRowsComplete : Prop :=
  Claims.NetworkServiceRowsComplete ∧ Claims.LinkRowsComplete

/-- BULK_SEGMENT and BULK_TIMEOUT: the oldest segment of ring 62 leaves it; one whose stamp is not of the key in force is discarded, one
without a key and one whose SEQ is not fresh is dropped and counted, and one that is fresh marks its SEQ and reaches its transfer; a
transfer that gains nothing
for 2 s, or is incomplete after 60 s, ends with BAD_LENGTH and the bytes received without a gap (R334, R365 to R369). -/
def Claims.BulkRowsComplete : Prop :=
  ∀ (s : State) (l : LaneId) (beat : Nat),
    (∀ pair b gen e rest, (s.lane l).bulkRing = (pair, b, gen, e) :: rest →
      let s1 := s.onLane l (fun x => ({ x with bulkRing := rest }).onRing 62 (fun g => { g with taken := g.taken + 1 }))
      ∀ h, readHeader b = some h → ((s.lane l).keyOf 2 h.part = none → exec (.bulkSegment l) s = .next (s1.dropSegment l pair)) ∧
        (∀ k, (s.lane l).keyOf 2 h.part = some k →
          let q := (s.lane l).sender h.part
          (gen ≠ some k.2.2 → exec (.bulkSegment l) s = .next s1) ∧
          (gen = some k.2.2 → freshSeq q.bulkHigh.toNat q.bulkMarked h.seq = false →
            exec (.bulkSegment l) s = .next (s1.dropSegment l pair)) ∧
          (gen = some k.2.2 → freshSeq q.bulkHigh.toNat q.bulkMarked h.seq = true →
            let w := markSeq q.bulkHigh.toNat q.bulkMarked h.seq
            exec (.bulkSegment l) s = .next ((s1.onLane l (fun x => x.onSender h.part (fun v =>
              { v with bulkHigh := w32 w.1, bulkMarked := w.2 }))).takeSegment l pair h.part (openParams b h (some k.2.1) 4) e)))) ∧
    (∀ p id t, ((s.lane l).sender p).transfers.find? (fun t => t.id = id) = some t →
      (t.last + 2 * secBeats ≤ max s.pkg.beat beat ∨ t.opened + 60 * secBeats ≤ max s.pkg.beat beat →
        exec (.bulkTimeout l p id beat) s = .next ((s.at_ beat).endTransfer l p id .badLength (beBytes 4 (gapless 0 t.bytes)))) ∧
      (max s.pkg.beat beat < t.last + 2 * secBeats → max s.pkg.beat beat < t.opened + 60 * secBeats →
        exec (.bulkTimeout l p id beat) s = .next (s.at_ beat)))

/-- SP_WRITE, SP_READ and SP_STATUS: the service port's receive buffer holds four packets, a fifth, an over-long and an incomplete one are
dropped and counted; a packet that intake passes enters the floor pair's stream of the active lane, or stays in the buffer while events are
held back, and one that it drops is counted; a reply leaves the buffer when its last byte has been clocked out (R67, R329, R331, R580,
Table 09-2). -/
def Claims.ServicePortRowsComplete : Prop :=
  ∀ (s : State) (bytes : List Byte) (n : Nat),
    (∀ complete, complete = false ∨ 1472 < n ∨ bytes.length < n ∨ 4 ≤ s.pkg.sp.rx.length → exec (.spWrite bytes n complete) s =
      .next (s.onPkg (fun p => { p with sp := { p.sp with drops := p.sp.drops + 1 } }))) ∧
    (n ≤ 1472 → n ≤ bytes.length → s.pkg.sp.rx.length < 4 → s.active = none → exec (.spWrite bytes n true) s =
      .next (s.onPkg (fun p => { p with sp := { p.sp with rx := p.sp.rx ++ [bytes.take n] } }))) ∧
    (∀ l, n ≤ 1472 → n ≤ bytes.length → s.pkg.sp.rx = [] → s.active = some l →
      let b := bytes.take n
      let body := fun (gen : Option Word) (beat : Nat) => EventBody.net 4 none 0 b gen ⟨0, [], 0, false⟩ beat
      let s0 := s.onPkg (fun p => { p with sp := { p.sp with rx := [], held := 0 } })
      let found := (s.lane l).intakeCheck (s.lane l).man.moduleId.toNat b false
      (found = .drop → exec (.spWrite bytes n true) s =
        .next (s0.onPkg (fun p => { p with sp := { p.sp with drops := p.sp.drops + 1 } }))) ∧
      (∀ part gen, found = .pass part gen false →
        ((s.lane l).holdsBack (body none 0).size = false → exec (.spWrite bytes n true) s =
          .next (s0.onLane l (fun x => x.enter l 3 1 part (body gen s.pkg.beat)))) ∧
        ((s.lane l).holdsBack (body none 0).size = true → exec (.spWrite bytes n true) s =
          .next ((s.onLane l (fun x => x.countHeld (1 - s.pkg.sp.held))).onPkg (fun p => { p with sp := { p.sp with
            rx := [b], held := max p.sp.held 1 } }))))) ∧
    (∀ r rest complete, s.pkg.sp.replies = r :: rest → exec (.spRead complete) s = .next (s.onPkg (fun p => { p with sp :=
      { p.sp with lastOut := beBytes 2 r.length ++ r, replies := if complete then rest else r :: rest } }))) ∧
    (∀ complete, s.pkg.sp.replies = [] → exec (.spRead complete) s =
      .next (s.onPkg (fun p => { p with sp := { p.sp with lastOut := zeros 2 } }))) ∧
    (∃ t, exec .spStatus s = .next t ∧ t.pkg.sp.lastOut =
      [BitVec.ofNat 8 ((if s.pkg.sp.replies = [] then 0 else 1) + (if 4 ≤ s.pkg.sp.rx.length then 2 else 0))] ∧
      t.a = s.a ∧ t.b = s.b)

/-- Bulk segments and transfers, and the service port (R329, R334, R365 to R369, R580). -/
def Obligations.BulkAndServicePortRowsComplete : Prop :=
  Claims.BulkRowsComplete ∧ Claims.ServicePortRowsComplete

/-! ### CAN -/


/-- CAN_FRAME_CAPTURE, CAN_INTAKE, CAN_TX_TAKE, CAN_TX_COMPLETE and CAN_TX_AGED: a controller that runs captures a frame with the CAN_TIME
of its start-of-frame bit; the frame with the lowest receive index enters the bus's stream, or is held back; an entry of ring 61 becomes a
frame with the sequence byte in front, or is dropped and counted; a frame waits at most 100 ms (R34, R413 to R424). -/
def Obligations.CanFrameRowsComplete : Prop :=
  ∀ (s : State) (l : LaneId) (n beat : Nat), n < 8 →
    let b := (s.lane l).bus n
    let now := max s.pkg.beat beat
    (∀ f, busEn b.ctl = true → b.state < 2 → b.stuck = false → (f.fd = true → busFd b.ctl = true) →
      ¬ (busSingle b.ctl = true ∧ l = .b) → (s.lane l).clockLost 2 = false →
      exec (.canFrameCapture l n f beat) s =
        .next ((s.at_ beat).onLane l (fun x => x.onBus n (fun b => b.capture f (canTime ((s.lane l).beatSeen beat)))))) ∧
    (∀ f, busEn b.ctl = false ∨ 2 ≤ b.state ∨ b.stuck = true ∨ (f.fd = true ∧ busFd b.ctl = false) ∨ (s.lane l).clockLost 2 = true →
      exec (.canFrameCapture l n f beat) s = .next (s.at_ beat)) ∧
    (∀ q h, b.lowest = some (q, h) → (s.lane l).inService = true → (s.lane l).joining = true →
      exec (.canIntake l n) s = .next (s.onLane l (fun x => x.onBus n (fun b => b.readDone q)))) ∧
    (∀ q h, b.lowest = some (q, h) → (s.lane l).inService = true → (s.lane l).joining = false →
      ((s.lane l).holdsBack (EventBody.can h.f h.stamp (decide (l = .b))).size = true →
        exec (.canIntake l n) s = .next (s.onLane l (fun x => x.holdCan n h.index))) ∧
      ((s.lane l).holdsBack (EventBody.can h.f h.stamp (decide (l = .b))).size = false →
        let y := ((s.lane l).onBus n (fun b => { b.readDone q with heldIndex := none })).onRing 60 (fun g =>
          { g with posted := g.posted + 1, taken := g.taken + 1 })
        let z := y.enter l 2 n 0 (.can h.f h.stamp (decide (l = .b)))
        exec (.canIntake l n) s = .next (s.onLane l (fun _ => if z.holdsBack 0 then z else z.onBus n BusSt.beginRead)))) ∧
    (b.lowest = none → exec (.canIntake l n) s = .next s) ∧
    (∀ e g, ((s.lane l).ring 61).take = some (e, g) →
      ((s.lane l).blk.lane.gatesClosed = true → exec (.canTxTake l beat) s = .next (s.at_ beat)) ∧
      ((s.lane l).blk.lane.gatesClosed = false → (s.lane l).releases = true → field (entryWord e.bytes 0) 10 8 = n →
        ∃ t, exec (.canTxTake l beat) s = .next t ∧ (t.lane l).ring 61 = g ∧
          (b.state = 2 → busSingle b.ctl = false → ((t.lane l).bus n).queue = b.queue ∧
            ((t.lane l).bus n).txOffDrop = b.txOffDrop + 1) ∧
          (b.state < 2 → busSingle b.ctl = false → 64 ≤ b.queue.length → ((t.lane l).bus n).queue = b.queue ∧
            ((t.lane l).bus n).txQfullDrop = b.txQfullDrop + 1) ∧
          (b.state < 2 → busSingle b.ctl = false → b.queue.length < 64 → (t.lane l).bus n = BusSt.fill 65 { b with
            seq := b.seq + 1, queue := b.queue ++ [(txFrameOf b.state (b.seq :: (e.bytes.drop 8).take (field (entryWord e.bytes 0) 22 16))
              e.bytes, e.posted)] }) ∧
          (busSingle b.ctl = false → ((t.lane l).bus n).seq = b.seq + 1) ∧
          (busSingle b.ctl = true → ((t.lane l).bus n).seq = b.seq))) ∧
    (∀ m q, (tget {} b.tx m).content = some q → busEn b.ctl = true → b.state < 2 → b.stuck = false → (s.lane l).clockLost 2 = false →
      (s.lane l).blk.lane.gatesClosed = false → ¬ (busSingle b.ctl = true ∧ l = .b) →
      exec (.canTxComplete l n m) s = .next ((s.onLane l (fun x => x.onBus n (fun b => BusSt.fill 65
        { b with tx := tmod {} b.tx m (fun t => { t with content := none }), txFrames := b.txFrames + 1 }))).onPkg
          (fun p => { p with canSent := (l, n, q.1) :: p.canSent }))) ∧
    (exec (.canTxAged l n beat) s = .next ((s.at_ beat).onLane l (fun x => x.onBus n (fun b => b.dropOld now)))) ∧
    (∀ q, q ∈ (b.dropOld now).queue → q ∈ b.queue ∧ now < q.2 + ageBeats)

/-- BUS_OFF, BUS_OFF_RECOVERY, RECOVERY_WAIT_END, STUCK_DOM, STUCK_DOM_CLEARED and CAN_BUS_ERROR: entering bus-off drops what the
controller holds and, with AUTO, recovers at once unless it is the eighth time within a second; recovery clears TEC and REC; 128 in either
is error-passive (R425 to R428). -/
def Obligations.CanErrorRowsComplete : Prop :=
  ∀ (s : State) (l : LaneId) (n beat : Nat), n < 8 →
    let b := (s.lane l).bus n
    let now := max s.pkg.beat beat
    (busEn b.ctl = true → b.state < 2 → ∃ t, exec (.busOff l n beat) s = .next t ∧
      let c := (t.lane l).bus n
      let many := 8 ≤ (b.offBeats.filter (fun t => decide (now < t + secBeats))).length + 1
      c.state = 2 ∧ c.queue = [] ∧ (∀ m, (tget {} c.tx m).content = none) ∧ c.busoff = b.busoff + 1 ∧
        c.txOffDrop = b.txOffDrop + BitVec.ofNat 32 b.txHeld ∧
        (busAuto b.ctl = true → ¬ many → c.recovering = true ∧ c.waitUntil = none) ∧
        (busAuto b.ctl = true → many → c.recovering = false ∧ c.waitUntil = some (now + secBeats)) ∧
        (busAuto b.ctl = false → c.recovering = false ∧ c.waitUntil = none) ∧
        ((s.lane l).collects = true → (t.lane l).hasBit (busBit n) = true)) ∧
    (b.state = 2 → b.recovering = true → exec (.busOffRecovery l n) s = .next ((s.onLane l (fun x => x.onBus n (fun b =>
      { b with state := 0, recovering := false, tec := 0, recCnt := 0 }))).flag l (busBit n) false)) ∧
    (b.state ≠ 2 ∨ b.recovering = false → exec (.busOffRecovery l n) s = .next s) ∧
    (∀ e, b.waitUntil = some e →
      (e ≤ now → exec (.recoveryWaitEnd l n beat) s = .next ((s.at_ beat).onLane l (fun x => x.onBus n (fun b =>
        { b with waitUntil := none, recovering := true })))) ∧
      (now < e → exec (.recoveryWaitEnd l n beat) s = .next (s.at_ beat))) ∧
    (busEn b.ctl = true → exec (.stuckDom l n) s = .next ((s.onLane l (fun x => x.onBus n (fun b =>
      { b with stuck := true }))).flag l (stuckBit n) true)) ∧
    exec (.stuckDomCleared l n) s = .next (s.onLane l (fun x => (x.onBus n (fun b => { b with stuck := false })).endCause (stuckBit n))) ∧
    (∀ tec rec, busEn b.ctl = true → b.state < 2 → tec < 256 → rec < 256 → ∃ t, exec (.canBusError l n tec rec) s = .next t ∧
      ((t.lane l).bus n).tec = tec ∧ ((t.lane l).bus n).recCnt = rec ∧
      ((t.lane l).bus n).state = (if 128 ≤ tec ∨ 128 ≤ rec then 1 else 0) ∧
      ((s.lane l).collects = true → ((t.lane l).bus n).state ≠ b.state → (t.lane l).hasBit (busBit n) = true)) ∧
    (∀ tec rec, busEn b.ctl = true → b.state < 2 → 256 ≤ tec → ∃ t, exec (.canBusError l n tec rec) s = .next t ∧
      ((t.lane l).bus n).state = 2)

/-! ### Detectors -/

/-- COMPLETION_DETECTION, STALL_DETECTED, TEST_TOKEN, MARGIN_ALARM, CLOCK_LOSS, ECC_ERROR, SUPERVISOR_SELF_TEST and COLLECTOR_DISAGREE: the
bit and the class that Table 14-1 gives each (R16 to R19, R27, R487 to R491). -/
def Obligations.DetectorRowsComplete : Prop :=
  ∀ (s : State) (l : LaneId) (n beat : Nat), (s.lane l).collects = true →
    let now := max s.pkg.beat beat
    let t := s.at_ beat
    (n < 32 →
      exec (.completionDetection l n beat) s = .next (t.raise l (16 + n) true) ∧
      exec (.stallDetected l n beat) s = .next (t.raise l (48 + n) true) ∧
      (∀ e, (s.lane l).token.lookup n = some e → e ≤ now → ∃ u, exec (.testToken l n beat) s = .next u ∧
        (u.lane l).token.lookup n = some now ∧ ((u.lane l).blk.flt.tokenMax = (s.lane l).blk.flt.tokenMax ∨
          (s.lane l).blk.flt.tokenMax.toNat < (now - e) / 100 ∧ (u.lane l).blk.flt.tokenMax = w32 ((now - e) / 100))) ∧
      (∀ us, exec (.eccError l n true us beat) s = .next ((t.onLane l (fun x => x.onFlt (fun f =>
        { f with scrubMax := if f.scrubMax.toNat < us then w32 us else f.scrubMax }))).raise l (96 + n) true) ∧
        ∃ u, exec (.eccError l n false us beat) s = .next u ∧ (u.lane l).hasBit (128 + n) = true ∧
          (u.lane l).blk.flt.corrCount = (s.lane l).blk.flt.corrCount + 1 ∧ (u.lane l).blk.lane.role = (s.lane l).blk.lane.role)) ∧
    (n < 16 → ∃ u, exec (.marginAlarm l n beat) s = .next u ∧ (u.lane l).blk.pwr.core = 900 ∧
      (u.lane l).blk.pwr.floor = min 900 (max (s.lane l).blk.pwr.floor ((s.lane l).blk.pwr.core + 50)) ∧
      (u.lane l).blk.pwr.marginBeat = some now ∧ (u.lane l).hasBit (80 + n) = true) ∧
    (exec (.clockLoss l 1 beat) s = .next ((t.loseClock l 1).raise l 4 true) ∧
      exec (.clockLoss l 2 beat) s = .next ((t.loseClock l 2).raise l 5 true) ∧
      exec (.clockLoss l 5 beat) s = .next ((t.loseClock l 5).raise l 8 true) ∧
      (s.pkg.order ≠ .m00 → exec (.clockLoss l 4 beat) s = .next ((t.loseClock l 4).raise l 7 true)) ∧
      (s.pkg.order = .m00 → exec (.clockLoss l 4 beat) s = .next t) ∧
      exec (.clockLoss l 7 beat) s = .next t ∧ exec (.clockLoss l 8 beat) s = .next t ∧
      ((s.lane l.other).hasBit 9 = false → exec (.clockLoss l 6 beat) s = .next ((t.loseClock l 6).raise l 9 true)) ∧
      ((s.lane l.other).hasBit 9 = true →
        exec (.clockLoss l 6 beat) s = .next ((t.loseClock l 6).raise l 9 true).regionsLoseClock) ∧
      (∀ k, ((t.loseClock l k).lane l).clockLost k = true ∧ (t.loseClock l k).lane l.other = s.lane l.other) ∧
      (∃ u, exec (.clockLoss l 3 beat) s = .next u ∧ u.pkg.dom.t3Lost = true ∧ u.pkg.dom.timeValid = false ∧ u.pkg.dom.busy = [] ∧
        u.pkg.dom.cal = s.pkg.dom.cal)) ∧
    (∀ sup, sup < 2 →
      (∃ u, exec (.supervisorSelfTest sup true beat) s = .next u ∧ sup ∉ u.pkg.supFailed ∧
        ∀ k, (u.lane k).hasCause (176 + sup) = false ∧ (u.lane k).blk.flt.sticky = (s.lane k).blk.flt.sticky) ∧
      ((∀ k, (s.lane k).hasBit (177 - sup) = false) → ∃ u, exec (.supervisorSelfTest sup false beat) s = .next u ∧
        sup ∈ u.pkg.supFailed ∧ (u.lane l).hasBit (176 + sup) = true ∧ u.pkg.halted = s.pkg.halted)) ∧
    ((s.lane l).hasBit 0 = false → ∃ u, exec (.collectorDisagree l beat) s = .next u ∧ u.pkg.halted = true)

/-- Activity on the maker test pin in any life-cycle state but MAKER and RETURNED is recorded as class N and moves nothing of the
module; in MAKER and RETURNED, where T8 runs, it records nothing (R28). -/
def Obligations.MakerTestPinHasNoEffect : Prop :=
  ∀ s : State,
    (s.pkg.life ≠ .maker → s.pkg.life ≠ .returned → ∃ t, exec .makerTestPin s = .next t ∧ t.pkg = s.pkg ∧ bitClass 2084 = 1 ∧
      ∀ l, ((s.lane l).collects = true → (t.lane l).hasBit 2084 = true) ∧ (t.lane l).parts = (s.lane l).parts ∧
        (t.lane l).cores = (s.lane l).cores ∧ (t.lane l).flash = (s.lane l).flash ∧ (t.lane l).mram = (s.lane l).mram ∧
        (t.lane l).blk.lane = (s.lane l).blk.lane ∧ (t.lane l).blk.pnt = (s.lane l).blk.pnt ∧
        (t.lane l).blk.loop = (s.lane l).blk.loop ∧ (t.lane l).blk.nrg = (s.lane l).blk.nrg ∧ (t.lane l).blk.key = (s.lane l).blk.key) ∧
    (s.pkg.life = .maker ∨ s.pkg.life = .returned → exec .makerTestPin s = .next s)

/-! ### Power, reset and start-up -/

/-- Reset: both lanes OFF with every RAM memory empty, the module in reset with beat count 0, no epoch closed, no command waiting, and the
registers named here at their reset values. -/
def Claims.RegistersAtReset : Prop :=
  let s := State.reset
  s.pending = [] ∧ s.pkg.inReset = true ∧ s.pkg.beat = 0 ∧ s.pkg.halted = false ∧ s.pkg.waitingReqs = 0 ∧
  (∀ l, (s.lane l).blk.lane.role = .off ∧ (s.lane l).cores = [] ∧ (s.lane l).parts = [] ∧ (s.lane l).closed = [] ∧
    (s.lane l).blk.flt.sticky = [] ∧ (s.lane l).blk.flt.nevEn = true ∧ (s.lane l).blk.pwr.vwarn = 180 ∧
    (s.lane l).blk.pwr.savePeriod = 1000 ∧ (s.lane l).blk.recd.records = [] ∧
    (∀ n, n < 64 → ((s.lane l).slot n).key = none) ∧ (∀ c r, ((s.lane l).core c).reg r = 0) ∧
    (∀ p, ((s.lane l).part p).state = .noProgram)) ∧ s.memWf

/-- Reset: both lanes OFF with every RAM memory empty, the module in reset with beat count 0, no epoch closed, no command waiting, the
registers named here at their reset values, and a life cycle in order. -/
def Obligations.ResetValues : Prop :=
  Claims.RegistersAtReset ∧ Claims.ResetLifeCycleInOrder

/-- CORE_SUPPLY_STEP, SUPPLY_WARNING, FINAL_SAVE_DONE, WARNING_CLEARED and LANE_SUPPLY_FAULT (R544 to R547, R555, R556, Table 17-7). -/
def Claims.PowerRowsComplete : Prop :=
  ∀ (s : State) (l : LaneId) (beat : Nat),
    let now := max s.pkg.beat beat
    let p := (s.lane l).blk.pwr
    ((s.lane l).started = true → (s.lane l).releases = true → p.stepBeat + 100000000 ≤ now → p.pinEn = false →
      ∃ t, exec (.coreSupplyStep l beat) s = .next t ∧ (t.lane l).blk.pwr.stepBeat = now ∧
        ((∃ h, p.hotBeat = some h ∧ now < h + 100000000) → (t.lane l).blk.pwr.core = min 900 (p.core + 10)) ∧
        ((∀ h, p.hotBeat = some h → h + 100000000 ≤ now) → (∃ w, p.warmBeat = some w ∧ now < w + 1000000000) →
          (t.lane l).blk.pwr.core = p.core) ∧
        ((∀ h, p.hotBeat = some h → h + 100000000 ≤ now) → (∀ w, p.warmBeat = some w → w + 1000000000 ≤ now) →
          s.pkg.resetBeat + 1000000000 ≤ now → (∀ m, p.marginBeat = some m → m + 6000000000 ≤ now) →
          (t.lane l).blk.pwr.core = max (max 600 p.floor) (p.core - 10))) ∧
    ((s.lane l).started = true → (s.lane l).releases = true → p.stepBeat + 100000000 ≤ now → p.pinEn = true →
      ∃ t, exec (.coreSupplyStep l beat) s = .next t ∧ (t.lane l).blk.pwr.core = p.core) ∧
    (s.pkg.inReset = false → s.a.blk.pwr.warn = false → s.b.blk.pwr.warn = false →
      ∃ t, exec (.supplyWarning beat) s = .next t ∧ (∀ k, (t.lane k).blk.pwr.warn = true ∧ (t.lane k).blk.pwr.finalDone = false ∧
        (t.lane k).blk.pwr.warns = (s.lane k).blk.pwr.warns + 1 ∧ (t.lane k).man.saveJob = none ∧
        ((s.lane k).collects = true → (t.lane k).hasBit 180 = true))) ∧
    (∃ t, exec (.warningCleared beat) s = .next t ∧ ∀ k, (t.lane k).blk.pwr.warn = false ∧ (t.lane k).blk.pwr.finalDone = false ∧
      (t.lane k).hasCause 180 = false ∧ (t.lane k).blk.flt.sticky = (s.lane k).blk.flt.sticky) ∧
    (exec (.finalSaveDone l beat) s =
      .next ((s.at_ beat).onLane l (fun x => x.completeFinal (w32 ((now - x.finalBeat) / 100))))) ∧
    (exec (.laneSupplyFault l beat) s = .next (((s.at_ beat).onLane l (fun x => { x with supplyFault := true })).raise l 179 true))

/-- VRST_RESET and RESET_RELEASE: a reset keeps flash, MRAM, fuses and the always-on domain, whose power-fail stamp it latches, and takes
everything else of both lanes to its reset value; the beat count is 0 at the release, which first blows the fuses of a life-cycle
transition in progress (R245, R317, R538, R549). -/
def Claims.ResetRowsComplete : Prop :=
  ∀ s : State,
    (s.pkg.inReset = false → s.pkg.transition = none → ∃ t, exec .vrstReset s = .next t ∧ t.pkg.inReset = true ∧ t.pkg.halted = false ∧
      t.pkg.life = s.pkg.life ∧ t.pkg.lcGen = s.pkg.lcGen ∧ t.pkg.order = s.pkg.order ∧ t.pkg.serial = s.pkg.serial ∧
      t.pkg.dom.kek = s.pkg.dom.kek ∧ t.pkg.dom.cal = s.pkg.dom.cal ∧ t.pkg.dom.busy = [] ∧
      t.pkg.dom.stamp = (if s.pkg.dom.timeLost then none else some s.pkg.dom.cal.ms) ∧
      (∀ l, (t.lane l).flash = (s.lane l).flash ∧ (t.lane l).mram = (s.lane l).mram ∧ (t.lane l).parts = [] ∧ (t.lane l).cores = [] ∧
        (t.lane l).blk.lane.role = .off ∧ (t.lane l).blk.flt.sticky = [] ∧
        (t.lane l).blk.pwr.resetCause = if s.a.blk.pwr.warn || s.b.blk.pwr.warn then 1 else 2)) ∧
    (∀ c b, s.pkg.inReset = false → s.pkg.transition = some (c, b) → b + fuseBeats ≤ s.pkg.beat →
      ∃ t, exec .vrstReset s = .next t ∧ t.pkg.life = c ∧ t.pkg.inReset = true ∧ t.pkg.transition = none) ∧
    (s.pkg.inReset = true → exec .vrstReset s = .next s) ∧
    (∀ r, s.pkg.inReset = true → exec (.resetRelease r) s = .next (s.onPkg (fun p => { p with
      inReset := false, released := true, beat := 0, resetBeat := 0, timeLostAtStart := p.dom.timeLost }))) ∧
    (∀ r c b, s.pkg.inReset = false → s.pkg.transition = some (c, b) → ∃ t, exec (.resetRelease r) s = .next t ∧ t.pkg.life = c ∧
      t.pkg.inReset = false ∧ t.pkg.beat = 0 ∧ t.pkg.transition = none ∧ ∀ l, (t.lane l).blk.lane.role = .off ∧
        (t.lane l).flash = (s.lane l).flash ∧ (t.lane l).blk.pwr.resetCause = 3) ∧
    (∀ r, s.pkg.inReset = false → s.pkg.transition = none → exec (.resetRelease r) s = .next s)

/-- The supply warning, the core supply and reset (R245, R317, R538, R544 to R549, R555, R556). -/
def Obligations.PowerAndResetRowsComplete : Prop :=
  Claims.PowerRowsComplete ∧ Claims.ResetRowsComplete

/-- FLASH_WRITE_COMPLETE: the oldest flash write of a lane is complete. A configuration, a pattern or a blob stands in flash; an image
that the lane alone writes, or that its partner has written too, fills the load slot, with its digest record, in each of them, and its
PROGRAM_LOAD is answered; an image that the partner has yet to write waits (R170, R240, R268, R358, R534). -/
def Claims.FlashWritesComplete : Prop :=
  ∀ (s : State) (l : LaneId) (beat b : Nat) (rest : List (FlashJob × Nat)),
    let x := s.lane l
    let y := s.lane l.other
    let s1 := (s.at_ beat).onLane l (fun x => { x with job := rest })
    (x.job = (.config, b) :: rest →
      exec (.flashWriteComplete l beat) s = .next (s1.onLane l (fun x => { x with flash := x.configFlash l }))) ∧
    (∀ n, x.job = (.pattern n, b) :: rest → exec (.flashWriteComplete l beat) s = .next (s1.onLane l (fun x => x.onFlash (fun f =>
      { f with patterns := oset f.patterns n (x.storedPattern n) })))) ∧
    (∀ n v, x.job = (.blob n (some v), b) :: rest → exec (.flashWriteComplete l beat) s = .next (s1.onLane l (fun x => x.onFlash (fun f =>
      { f with blobs := oset f.blobs n v })))) ∧
    (∀ n, x.job = (.blob n none, b) :: rest → exec (.flashWriteComplete l beat) s = .next (s1.onLane l (fun x => x.onFlash (fun f =>
      { f with blobs := odel f.blobs n })))) ∧
    (∀ w, x.job = (.image w, b) :: rest → x.imgWait = [] →
      (y.inService = false → y.imgWait = [] → ∃ t, exec (.flashWriteComplete l beat) s = .next t ∧
        ((t.lane l).part w.part).loaded = some w.image ∧ ((t.lane l).part w.part).current = (x.part w.part).current ∧
        (t.lane l).flash.loaded.lookup w.part = some (storeImage w.image w.bytes) ∧ (t.lane l).job = rest ∧ (t.lane l).imgWait = [] ∧
        (∀ o ∈ (t.lane l).man.outstanding, o.hdr ≠ w.hdr) ∧ t.lane l.other = s.lane l.other) ∧
      (y.inService = true → y.imgWait = [] → ∃ t, exec (.flashWriteComplete l beat) s = .next t ∧
        (t.lane l).imgWait = [w] ∧ (t.lane l).parts = x.parts ∧ (t.lane l).flash = x.flash) ∧
      (y.inService = true → y.imgWait = [w] → ∃ t, exec (.flashWriteComplete l beat) s = .next t ∧
        ∀ k, ((t.lane k).part w.part).loaded = some w.image ∧
          (t.lane k).flash.loaded.lookup w.part = some (storeImage w.image w.bytes) ∧ (t.lane k).imgWait = [])) ∧
    (x.job = [] → exec (.flashWriteComplete l beat) s = .next (s.at_ beat))

/-- BOOT_COMPLETE, STARTUP_SELF_TEST, LANE_ANNOUNCEMENT, PAIRING_TIMEOUT, STARTUP_CONFIGURATION and STARTUP_FRONT_ENDS: the steps of
Table 17-4. A start that finds no stored filter settings installs the filters of Table 10-4 (R393, R531, R552). -/
def Claims.StartStepsComplete : Prop :=
  ∀ (s : State) (l : LaneId) (beat : Nat),
    let now := max s.pkg.beat beat
    let x := s.lane l
    (∀ ver stages, s.pkg.inReset = false → x.booted = false → s.pkg.life ≠ .returned → s.pkg.life ≠ .void →
      exec (.bootComplete l true ver stages) s = .next (s.setLane l (({ x.measureBoot stages with booted := true, version := ver
        }).onLaneBlk (fun b => { b with role := .selftest }))) ∧
      exec (.bootComplete l false ver stages) s = .next (s.setLane l x)) ∧
    (∀ ok ver stages, s.pkg.inReset = false → x.booted = false → s.pkg.life = .returned ∨ s.pkg.life = .void →
      ∃ t, exec (.bootComplete l ok ver stages) s = .next t ∧ (t.lane l).mram = {} ∧ (t.lane l).flash.blobs = [] ∧
        (t.lane l).flash.running = [] ∧ (t.lane l).flash.loaded = [] ∧ (t.lane l).flash.heddle = [] ∧
        (t.lane l).flash.patterns = [] ∧ (t.lane l).blk.lane.role = if ok then .selftest else x.blk.lane.role) ∧
    (x.booted = true → x.tested = false → x.blk.lane.role = .selftest → x.blk.lane.rejoinStep = 0 →
      (∃ t, exec (.startupSelfTest l false beat) s = .next t ∧ (t.lane l).blk.lane.role = .off ∧ t.lane l.other = s.lane l.other) ∧
      ((s.lane l.other).inService = false → ∃ t, exec (.startupSelfTest l true beat) s = .next t ∧ (t.lane l).announced = true ∧
        (t.lane l).announceBeat = now ∧ (t.lane l.other).inbox = (s.lane l.other).inbox ++
          [.announce x.bootMeas x.version x.preferRecord.1 x.preferRecord.2.1 x.preferRecord.2.2]) ∧
      ((s.lane l.other).inService = true → ∃ t, exec (.startupSelfTest l true beat) s = .next t ∧
        (t.lane l).blk.lane.role = .selftest ∧ (t.lane l).blk.lane.rejoinStep = 1)) ∧
    ((x.inbox.any (fun m => match m with | .announce .. => true | _ => false)) = true → s.canPair = true →
      s.a.bootMeas = s.b.bootMeas → s.a.version = s.b.version →
      let r := if s.a.preferRecord.2.2 < s.b.preferRecord.2.2 then s.b.preferRecord else s.a.preferRecord
      let first := (preferred r.1).getD .a
      ∃ t, exec (.laneAnnouncement l beat) s = .next t ∧ (t.lane first).blk.lane.role = .active ∧
        (t.lane first.other).blk.lane.role = .standby ∧
        ∀ k, (t.lane k).blk.lane.paired = true ∧ (t.lane k).blk.lane.prefer = r.1 ∧ (t.lane k).blk.lane.holdoff = r.2.1) ∧
    (x.waitsPartner = true → x.announceBeat + pairBeats ≤ now → s.canPair = false → (s.lane l.other).inService = false →
      ∃ t, exec (.pairingTimeout l beat) s = .next t ∧ (t.lane l).blk.lane.role = .active ∧ (t.lane l).blk.lane.paired = false) ∧
    (now < x.announceBeat + pairBeats → exec (.pairingTimeout l beat) s = .next (s.at_ beat)) ∧
    (x.inService = true → x.configured = false → x.started = false →
      ∃ t, exec (.startupConfiguration l) s = .next t ∧ (t.lane l).configured = true ∧ (t.lane l).man.moduleId = x.flash.moduleId ∧
        (t.lane l).blk.pnt.cfg = x.flash.cfg ∧ (t.lane l).blk.pnt.owner = x.flash.owner ∧
        (t.lane l).blk.pwr.vwarn = x.flash.vwarn.getD 180 ∧ (t.lane l).blk.net.estate = x.flash.estate ∧
        (t.lane l).blk.net.floor = x.flash.floor ∧ (t.lane l).flash.blobs = x.flash.blobs ∧
        (x.flash.filters = none → (t.lane l).blk.net.filtVlan = [] ∧ (t.lane l).blk.net.filtAct = [(0, 0xF0FF0800#32),
          (1, 0xF0FF86DD#32), (2, 0xF2FF0806#32), (32, 0xF4FF0800#32), (33, 0xF4FF86DD#32), (34, 0xF6FF0806#32)]) ∧
        (∀ f, x.flash.filters = some f → (t.lane l).blk.net.filtVlan = f.1 ∧ (t.lane l).blk.net.filtAct = f.2) ∧
        t.lane l.other = s.lane l.other) ∧
    (x.inService = true → x.configured = true → x.started = false → s.pkg.life = .issued ∨ s.pkg.life = .sealed →
      ∃ t, exec (.startupFrontEnds l beat) s = .next t ∧ (t.lane l).started = true ∧ (t.lane l).blk.loop.en = true ∧
        (t.lane l).blk.nrg.en = (s.pkg.order ≠ .m00) ∧ (∀ r, r < 8 → (t.fe r).running = true) ∧
        ∃ v, t.lane l.other = { s.lane l.other with vectorIn := v })

/-- The steps of a start, and the completion of a flash write (R170, R240, R268, R358, R393, R531, R534, R552). -/
def Obligations.StartRowsComplete : Prop :=
  Claims.StartStepsComplete ∧ Claims.FlashWritesComplete
end

