-- ==== Sys2Proof/Laws/State.lean ====
section
/-! SUPPORT. What each named update of State and of a lane changes, field by field. -/

namespace Sys2Proof.Machine

/-! ### State -/

@[simp] theorem State.lane_setLane (s : State) (l : LaneId) (x : Lane) : (s.setLane l x).lane l = x := by cases l <;> rfl
@[simp] theorem State.lane_setLane_other (s : State) (l : LaneId) (x : Lane) : (s.setLane l x).lane l.other = s.lane l.other := by
  cases l <;> rfl
@[simp] theorem State.setLane_fields (s : State) (l : LaneId) (x : Lane) :
    (s.setLane l x).pkg = s.pkg ∧ (s.setLane l x).draws = s.draws ∧ (s.setLane l x).pending = s.pending := by
  cases l <;> exact ⟨rfl, rfl, rfl⟩
@[simp] theorem State.lane_onLane (s : State) (l : LaneId) (f : Lane → Lane) : (s.onLane l f).lane l = f (s.lane l) := by
  cases l <;> rfl
@[simp] theorem State.lane_onLane_other (s : State) (l : LaneId) (f : Lane → Lane) :
    (s.onLane l f).lane l.other = s.lane l.other := by cases l <;> rfl
@[simp] theorem State.lane_other_onLane (s : State) (l : LaneId) (f : Lane → Lane) :
    (s.onLane l.other f).lane l = s.lane l := by cases l <;> rfl
@[simp] theorem State.onLane_fields (s : State) (l : LaneId) (f : Lane → Lane) :
    (s.onLane l f).pkg = s.pkg ∧ (s.onLane l f).draws = s.draws ∧ (s.onLane l f).pending = s.pending := by
  cases l <;> exact ⟨rfl, rfl, rfl⟩
@[simp] theorem State.onPkg_fields (s : State) (f : Package → Package) :
    (s.onPkg f).pkg = f s.pkg ∧ (s.onPkg f).a = s.a ∧ (s.onPkg f).b = s.b ∧ (s.onPkg f).draws = s.draws ∧
    (s.onPkg f).pending = s.pending := ⟨rfl, rfl, rfl, rfl, rfl⟩
@[simp] theorem State.lane_onPkg (s : State) (f : Package → Package) (l : LaneId) : (s.onPkg f).lane l = s.lane l := by cases l <;> rfl
@[simp] theorem State.onDom_fields (s : State) (f : Domain → Domain) :
    (s.onDom f).pkg = { s.pkg with dom := f s.pkg.dom } ∧ (s.onDom f).a = s.a ∧ (s.onDom f).b = s.b ∧
    (s.onDom f).draws = s.draws ∧ (s.onDom f).pending = s.pending := ⟨rfl, rfl, rfl, rfl, rfl⟩
@[simp] theorem State.lane_onDom (s : State) (f : Domain → Domain) (l : LaneId) : (s.onDom f).lane l = s.lane l := by cases l <;> rfl
@[simp] theorem State.onFe_fields (s : State) (r : Nat) (f : FrontEnd → FrontEnd) :
    (s.onFe r f).pkg = { s.pkg with rfe := tmod {} s.pkg.rfe r f } ∧ (s.onFe r f).a = s.a ∧ (s.onFe r f).b = s.b ∧
    (s.onFe r f).draws = s.draws ∧ (s.onFe r f).pending = s.pending := ⟨rfl, rfl, rfl, rfl, rfl⟩
@[simp] theorem State.lane_onFe (s : State) (r : Nat) (f : FrontEnd → FrontEnd) (l : LaneId) : (s.onFe r f).lane l = s.lane l := by
  cases l <;> rfl
@[simp] theorem State.at_fields (s : State) (n : Nat) :
    (s.at_ n).pkg = { s.pkg with beat := max s.pkg.beat n } ∧ (s.at_ n).a = s.a ∧ (s.at_ n).b = s.b ∧
    (s.at_ n).draws = s.draws ∧ (s.at_ n).pending = s.pending := ⟨rfl, rfl, rfl, rfl, rfl⟩
@[simp] theorem State.lane_at (s : State) (n : Nat) (l : LaneId) : (s.at_ n).lane l = s.lane l := by cases l <;> rfl
@[simp] theorem State.fe_at (s : State) (n r : Nat) : (s.at_ n).fe r = s.fe r := rfl
@[simp] theorem State.active_at (s : State) (n : Nat) : (s.at_ n).active = s.active := rfl
@[simp] theorem State.fe_onLane (s : State) (l : LaneId) (f : Lane → Lane) (r : Nat) : (s.onLane l f).fe r = s.fe r := by
  cases l <;> rfl
@[simp] theorem State.lane_send (s : State) (l : LaneId) (m : Msg) :
    (s.send l m).lane l = { s.lane l with linkSeq := (s.lane l).linkSeq + 1 } := by cases l <;> rfl
@[simp] theorem State.lane_send_other (s : State) (l : LaneId) (m : Msg) :
    (s.send l m).lane l.other =
      (s.lane l.other).receive ((s.lane l.other).linkHead l (s.lane l).linkSeq m) m s.pkg.beat := by cases l <;> rfl
@[simp] theorem State.send_fields (s : State) (l : LaneId) (m : Msg) :
    (s.send l m).pkg = s.pkg ∧ (s.send l m).draws = s.draws ∧ (s.send l m).pending = s.pending := by
  cases l <;> exact ⟨rfl, rfl, rfl⟩
@[simp] theorem LaneId.other_other (l : LaneId) : l.other.other = l := by cases l <;> rfl
@[simp] theorem LaneId.other_ne (l : LaneId) : l.other ≠ l := by cases l <;> decide
@[simp] theorem LaneId.ne_other (l : LaneId) : l ≠ l.other := by cases l <;> decide

/-! ### Lanes -/

@[simp] theorem Lane.onPick_fields (x : Lane) (f : PickBlk → PickBlk) :
    (x.onPick f).blk.pick = f x.blk.pick ∧
    (x.onPick f).blk.pnt = x.blk.pnt ∧
    (x.onPick f).blk.hed = x.blk.hed ∧
    (x.onPick f).blk.loop = x.blk.loop ∧
    (x.onPick f).blk.nrg = x.blk.nrg ∧
    (x.onPick f).blk.net = x.blk.net ∧
    (x.onPick f).blk.can = x.blk.can ∧
    (x.onPick f).blk.flt = x.blk.flt ∧
    (x.onPick f).blk.recd = x.blk.recd ∧
    (x.onPick f).blk.key = x.blk.key ∧
    (x.onPick f).blk.pwr = x.blk.pwr ∧
    (x.onPick f).blk.lane = x.blk.lane ∧
    (x.onPick f).blk.rings = x.blk.rings ∧
    (x.onPick f).man = x.man ∧
    (x.onPick f).parts = x.parts ∧
    (x.onPick f).cores = x.cores ∧
    (x.onPick f).mbx = x.mbx ∧
    (x.onPick f).flash = x.flash ∧
    (x.onPick f).mram = x.mram ∧
    (x.onPick f).inbox = x.inbox ∧
    (x.onPick f).closed = x.closed ∧
    (x.onPick f).job = x.job ∧
    (x.onPick f).imgWait = x.imgWait ∧
    (x.onPick f).txRings = x.txRings ∧
    (x.onPick f).lostClocks = x.lostClocks ∧
    (x.onPick f).linkSeq = x.linkSeq ∧
    (x.onPick f).linkIn = x.linkIn :=
  ⟨rfl, rfl, rfl, rfl, rfl, rfl, rfl, rfl, rfl, rfl, rfl, rfl, rfl, rfl, rfl, rfl, rfl, rfl, rfl, rfl, rfl, rfl, rfl, rfl, rfl, rfl, rfl⟩

@[simp] theorem Lane.onPnt_fields (x : Lane) (f : PntBlk → PntBlk) :
    (x.onPnt f).blk.pick = x.blk.pick ∧
    (x.onPnt f).blk.pnt = f x.blk.pnt ∧
    (x.onPnt f).blk.hed = x.blk.hed ∧
    (x.onPnt f).blk.loop = x.blk.loop ∧
    (x.onPnt f).blk.nrg = x.blk.nrg ∧
    (x.onPnt f).blk.net = x.blk.net ∧
    (x.onPnt f).blk.can = x.blk.can ∧
    (x.onPnt f).blk.flt = x.blk.flt ∧
    (x.onPnt f).blk.recd = x.blk.recd ∧
    (x.onPnt f).blk.key = x.blk.key ∧
    (x.onPnt f).blk.pwr = x.blk.pwr ∧
    (x.onPnt f).blk.lane = x.blk.lane ∧
    (x.onPnt f).blk.rings = x.blk.rings ∧
    (x.onPnt f).man = x.man ∧
    (x.onPnt f).parts = x.parts ∧
    (x.onPnt f).cores = x.cores ∧
    (x.onPnt f).mbx = x.mbx ∧
    (x.onPnt f).flash = x.flash ∧
    (x.onPnt f).mram = x.mram ∧
    (x.onPnt f).inbox = x.inbox ∧
    (x.onPnt f).closed = x.closed ∧
    (x.onPnt f).job = x.job ∧
    (x.onPnt f).imgWait = x.imgWait ∧
    (x.onPnt f).txRings = x.txRings ∧
    (x.onPnt f).lostClocks = x.lostClocks ∧
    (x.onPnt f).linkSeq = x.linkSeq ∧
    (x.onPnt f).linkIn = x.linkIn :=
  ⟨rfl, rfl, rfl, rfl, rfl, rfl, rfl, rfl, rfl, rfl, rfl, rfl, rfl, rfl, rfl, rfl, rfl, rfl, rfl, rfl, rfl, rfl, rfl, rfl, rfl, rfl, rfl⟩

@[simp] theorem Lane.onHed_fields (x : Lane) (f : HedBlk → HedBlk) :
    (x.onHed f).blk.pick = x.blk.pick ∧
    (x.onHed f).blk.pnt = x.blk.pnt ∧
    (x.onHed f).blk.hed = f x.blk.hed ∧
    (x.onHed f).blk.loop = x.blk.loop ∧
    (x.onHed f).blk.nrg = x.blk.nrg ∧
    (x.onHed f).blk.net = x.blk.net ∧
    (x.onHed f).blk.can = x.blk.can ∧
    (x.onHed f).blk.flt = x.blk.flt ∧
    (x.onHed f).blk.recd = x.blk.recd ∧
    (x.onHed f).blk.key = x.blk.key ∧
    (x.onHed f).blk.pwr = x.blk.pwr ∧
    (x.onHed f).blk.lane = x.blk.lane ∧
    (x.onHed f).blk.rings = x.blk.rings ∧
    (x.onHed f).man = x.man ∧
    (x.onHed f).parts = x.parts ∧
    (x.onHed f).cores = x.cores ∧
    (x.onHed f).mbx = x.mbx ∧
    (x.onHed f).flash = x.flash ∧
    (x.onHed f).mram = x.mram ∧
    (x.onHed f).inbox = x.inbox ∧
    (x.onHed f).closed = x.closed ∧
    (x.onHed f).job = x.job ∧
    (x.onHed f).imgWait = x.imgWait ∧
    (x.onHed f).txRings = x.txRings ∧
    (x.onHed f).lostClocks = x.lostClocks ∧
    (x.onHed f).linkSeq = x.linkSeq ∧
    (x.onHed f).linkIn = x.linkIn :=
  ⟨rfl, rfl, rfl, rfl, rfl, rfl, rfl, rfl, rfl, rfl, rfl, rfl, rfl, rfl, rfl, rfl, rfl, rfl, rfl, rfl, rfl, rfl, rfl, rfl, rfl, rfl, rfl⟩

@[simp] theorem Lane.onLoopBlk_fields (x : Lane) (f : LoopBlk → LoopBlk) :
    (x.onLoopBlk f).blk.pick = x.blk.pick ∧
    (x.onLoopBlk f).blk.pnt = x.blk.pnt ∧
    (x.onLoopBlk f).blk.hed = x.blk.hed ∧
    (x.onLoopBlk f).blk.loop = f x.blk.loop ∧
    (x.onLoopBlk f).blk.nrg = x.blk.nrg ∧
    (x.onLoopBlk f).blk.net = x.blk.net ∧
    (x.onLoopBlk f).blk.can = x.blk.can ∧
    (x.onLoopBlk f).blk.flt = x.blk.flt ∧
    (x.onLoopBlk f).blk.recd = x.blk.recd ∧
    (x.onLoopBlk f).blk.key = x.blk.key ∧
    (x.onLoopBlk f).blk.pwr = x.blk.pwr ∧
    (x.onLoopBlk f).blk.lane = x.blk.lane ∧
    (x.onLoopBlk f).blk.rings = x.blk.rings ∧
    (x.onLoopBlk f).man = x.man ∧
    (x.onLoopBlk f).parts = x.parts ∧
    (x.onLoopBlk f).cores = x.cores ∧
    (x.onLoopBlk f).mbx = x.mbx ∧
    (x.onLoopBlk f).flash = x.flash ∧
    (x.onLoopBlk f).mram = x.mram ∧
    (x.onLoopBlk f).inbox = x.inbox ∧
    (x.onLoopBlk f).closed = x.closed ∧
    (x.onLoopBlk f).job = x.job ∧
    (x.onLoopBlk f).imgWait = x.imgWait ∧
    (x.onLoopBlk f).txRings = x.txRings ∧
    (x.onLoopBlk f).lostClocks = x.lostClocks ∧
    (x.onLoopBlk f).linkSeq = x.linkSeq ∧
    (x.onLoopBlk f).linkIn = x.linkIn :=
  ⟨rfl, rfl, rfl, rfl, rfl, rfl, rfl, rfl, rfl, rfl, rfl, rfl, rfl, rfl, rfl, rfl, rfl, rfl, rfl, rfl, rfl, rfl, rfl, rfl, rfl, rfl, rfl⟩

@[simp] theorem Lane.onNrg_fields (x : Lane) (f : NrgBlk → NrgBlk) :
    (x.onNrg f).blk.pick = x.blk.pick ∧
    (x.onNrg f).blk.pnt = x.blk.pnt ∧
    (x.onNrg f).blk.hed = x.blk.hed ∧
    (x.onNrg f).blk.loop = x.blk.loop ∧
    (x.onNrg f).blk.nrg = f x.blk.nrg ∧
    (x.onNrg f).blk.net = x.blk.net ∧
    (x.onNrg f).blk.can = x.blk.can ∧
    (x.onNrg f).blk.flt = x.blk.flt ∧
    (x.onNrg f).blk.recd = x.blk.recd ∧
    (x.onNrg f).blk.key = x.blk.key ∧
    (x.onNrg f).blk.pwr = x.blk.pwr ∧
    (x.onNrg f).blk.lane = x.blk.lane ∧
    (x.onNrg f).blk.rings = x.blk.rings ∧
    (x.onNrg f).man = x.man ∧
    (x.onNrg f).parts = x.parts ∧
    (x.onNrg f).cores = x.cores ∧
    (x.onNrg f).mbx = x.mbx ∧
    (x.onNrg f).flash = x.flash ∧
    (x.onNrg f).mram = x.mram ∧
    (x.onNrg f).inbox = x.inbox ∧
    (x.onNrg f).closed = x.closed ∧
    (x.onNrg f).job = x.job ∧
    (x.onNrg f).imgWait = x.imgWait ∧
    (x.onNrg f).txRings = x.txRings ∧
    (x.onNrg f).lostClocks = x.lostClocks ∧
    (x.onNrg f).linkSeq = x.linkSeq ∧
    (x.onNrg f).linkIn = x.linkIn :=
  ⟨rfl, rfl, rfl, rfl, rfl, rfl, rfl, rfl, rfl, rfl, rfl, rfl, rfl, rfl, rfl, rfl, rfl, rfl, rfl, rfl, rfl, rfl, rfl, rfl, rfl, rfl, rfl⟩

@[simp] theorem Lane.onNet_fields (x : Lane) (f : NetBlk → NetBlk) :
    (x.onNet f).blk.pick = x.blk.pick ∧
    (x.onNet f).blk.pnt = x.blk.pnt ∧
    (x.onNet f).blk.hed = x.blk.hed ∧
    (x.onNet f).blk.loop = x.blk.loop ∧
    (x.onNet f).blk.nrg = x.blk.nrg ∧
    (x.onNet f).blk.net = f x.blk.net ∧
    (x.onNet f).blk.can = x.blk.can ∧
    (x.onNet f).blk.flt = x.blk.flt ∧
    (x.onNet f).blk.recd = x.blk.recd ∧
    (x.onNet f).blk.key = x.blk.key ∧
    (x.onNet f).blk.pwr = x.blk.pwr ∧
    (x.onNet f).blk.lane = x.blk.lane ∧
    (x.onNet f).blk.rings = x.blk.rings ∧
    (x.onNet f).man = x.man ∧
    (x.onNet f).parts = x.parts ∧
    (x.onNet f).cores = x.cores ∧
    (x.onNet f).mbx = x.mbx ∧
    (x.onNet f).flash = x.flash ∧
    (x.onNet f).mram = x.mram ∧
    (x.onNet f).inbox = x.inbox ∧
    (x.onNet f).closed = x.closed ∧
    (x.onNet f).job = x.job ∧
    (x.onNet f).imgWait = x.imgWait ∧
    (x.onNet f).txRings = x.txRings ∧
    (x.onNet f).lostClocks = x.lostClocks ∧
    (x.onNet f).linkSeq = x.linkSeq ∧
    (x.onNet f).linkIn = x.linkIn :=
  ⟨rfl, rfl, rfl, rfl, rfl, rfl, rfl, rfl, rfl, rfl, rfl, rfl, rfl, rfl, rfl, rfl, rfl, rfl, rfl, rfl, rfl, rfl, rfl, rfl, rfl, rfl, rfl⟩

@[simp] theorem Lane.onCan_fields (x : Lane) (f : CanBlk → CanBlk) :
    (x.onCan f).blk.pick = x.blk.pick ∧
    (x.onCan f).blk.pnt = x.blk.pnt ∧
    (x.onCan f).blk.hed = x.blk.hed ∧
    (x.onCan f).blk.loop = x.blk.loop ∧
    (x.onCan f).blk.nrg = x.blk.nrg ∧
    (x.onCan f).blk.net = x.blk.net ∧
    (x.onCan f).blk.can = f x.blk.can ∧
    (x.onCan f).blk.flt = x.blk.flt ∧
    (x.onCan f).blk.recd = x.blk.recd ∧
    (x.onCan f).blk.key = x.blk.key ∧
    (x.onCan f).blk.pwr = x.blk.pwr ∧
    (x.onCan f).blk.lane = x.blk.lane ∧
    (x.onCan f).blk.rings = x.blk.rings ∧
    (x.onCan f).man = x.man ∧
    (x.onCan f).parts = x.parts ∧
    (x.onCan f).cores = x.cores ∧
    (x.onCan f).mbx = x.mbx ∧
    (x.onCan f).flash = x.flash ∧
    (x.onCan f).mram = x.mram ∧
    (x.onCan f).inbox = x.inbox ∧
    (x.onCan f).closed = x.closed ∧
    (x.onCan f).job = x.job ∧
    (x.onCan f).imgWait = x.imgWait ∧
    (x.onCan f).txRings = x.txRings ∧
    (x.onCan f).lostClocks = x.lostClocks ∧
    (x.onCan f).linkSeq = x.linkSeq ∧
    (x.onCan f).linkIn = x.linkIn :=
  ⟨rfl, rfl, rfl, rfl, rfl, rfl, rfl, rfl, rfl, rfl, rfl, rfl, rfl, rfl, rfl, rfl, rfl, rfl, rfl, rfl, rfl, rfl, rfl, rfl, rfl, rfl, rfl⟩

@[simp] theorem Lane.onFlt_fields (x : Lane) (f : FltBlk → FltBlk) :
    (x.onFlt f).blk.pick = x.blk.pick ∧
    (x.onFlt f).blk.pnt = x.blk.pnt ∧
    (x.onFlt f).blk.hed = x.blk.hed ∧
    (x.onFlt f).blk.loop = x.blk.loop ∧
    (x.onFlt f).blk.nrg = x.blk.nrg ∧
    (x.onFlt f).blk.net = x.blk.net ∧
    (x.onFlt f).blk.can = x.blk.can ∧
    (x.onFlt f).blk.flt = f x.blk.flt ∧
    (x.onFlt f).blk.recd = x.blk.recd ∧
    (x.onFlt f).blk.key = x.blk.key ∧
    (x.onFlt f).blk.pwr = x.blk.pwr ∧
    (x.onFlt f).blk.lane = x.blk.lane ∧
    (x.onFlt f).blk.rings = x.blk.rings ∧
    (x.onFlt f).man = x.man ∧
    (x.onFlt f).parts = x.parts ∧
    (x.onFlt f).cores = x.cores ∧
    (x.onFlt f).mbx = x.mbx ∧
    (x.onFlt f).flash = x.flash ∧
    (x.onFlt f).mram = x.mram ∧
    (x.onFlt f).inbox = x.inbox ∧
    (x.onFlt f).closed = x.closed ∧
    (x.onFlt f).job = x.job ∧
    (x.onFlt f).imgWait = x.imgWait ∧
    (x.onFlt f).txRings = x.txRings ∧
    (x.onFlt f).lostClocks = x.lostClocks ∧
    (x.onFlt f).linkSeq = x.linkSeq ∧
    (x.onFlt f).linkIn = x.linkIn :=
  ⟨rfl, rfl, rfl, rfl, rfl, rfl, rfl, rfl, rfl, rfl, rfl, rfl, rfl, rfl, rfl, rfl, rfl, rfl, rfl, rfl, rfl, rfl, rfl, rfl, rfl, rfl, rfl⟩

@[simp] theorem Lane.onRec_fields (x : Lane) (f : RecBlk → RecBlk) :
    (x.onRec f).blk.pick = x.blk.pick ∧
    (x.onRec f).blk.pnt = x.blk.pnt ∧
    (x.onRec f).blk.hed = x.blk.hed ∧
    (x.onRec f).blk.loop = x.blk.loop ∧
    (x.onRec f).blk.nrg = x.blk.nrg ∧
    (x.onRec f).blk.net = x.blk.net ∧
    (x.onRec f).blk.can = x.blk.can ∧
    (x.onRec f).blk.flt = x.blk.flt ∧
    (x.onRec f).blk.recd = f x.blk.recd ∧
    (x.onRec f).blk.key = x.blk.key ∧
    (x.onRec f).blk.pwr = x.blk.pwr ∧
    (x.onRec f).blk.lane = x.blk.lane ∧
    (x.onRec f).blk.rings = x.blk.rings ∧
    (x.onRec f).man = x.man ∧
    (x.onRec f).parts = x.parts ∧
    (x.onRec f).cores = x.cores ∧
    (x.onRec f).mbx = x.mbx ∧
    (x.onRec f).flash = x.flash ∧
    (x.onRec f).mram = x.mram ∧
    (x.onRec f).inbox = x.inbox ∧
    (x.onRec f).closed = x.closed ∧
    (x.onRec f).job = x.job ∧
    (x.onRec f).imgWait = x.imgWait ∧
    (x.onRec f).txRings = x.txRings ∧
    (x.onRec f).lostClocks = x.lostClocks ∧
    (x.onRec f).linkSeq = x.linkSeq ∧
    (x.onRec f).linkIn = x.linkIn :=
  ⟨rfl, rfl, rfl, rfl, rfl, rfl, rfl, rfl, rfl, rfl, rfl, rfl, rfl, rfl, rfl, rfl, rfl, rfl, rfl, rfl, rfl, rfl, rfl, rfl, rfl, rfl, rfl⟩

@[simp] theorem Lane.onKey_fields (x : Lane) (f : KeyBlk → KeyBlk) :
    (x.onKey f).blk.pick = x.blk.pick ∧
    (x.onKey f).blk.pnt = x.blk.pnt ∧
    (x.onKey f).blk.hed = x.blk.hed ∧
    (x.onKey f).blk.loop = x.blk.loop ∧
    (x.onKey f).blk.nrg = x.blk.nrg ∧
    (x.onKey f).blk.net = x.blk.net ∧
    (x.onKey f).blk.can = x.blk.can ∧
    (x.onKey f).blk.flt = x.blk.flt ∧
    (x.onKey f).blk.recd = x.blk.recd ∧
    (x.onKey f).blk.key = f x.blk.key ∧
    (x.onKey f).blk.pwr = x.blk.pwr ∧
    (x.onKey f).blk.lane = x.blk.lane ∧
    (x.onKey f).blk.rings = x.blk.rings ∧
    (x.onKey f).man = x.man ∧
    (x.onKey f).parts = x.parts ∧
    (x.onKey f).cores = x.cores ∧
    (x.onKey f).mbx = x.mbx ∧
    (x.onKey f).flash = x.flash ∧
    (x.onKey f).mram = x.mram ∧
    (x.onKey f).inbox = x.inbox ∧
    (x.onKey f).closed = x.closed ∧
    (x.onKey f).job = x.job ∧
    (x.onKey f).imgWait = x.imgWait ∧
    (x.onKey f).txRings = x.txRings ∧
    (x.onKey f).lostClocks = x.lostClocks ∧
    (x.onKey f).linkSeq = x.linkSeq ∧
    (x.onKey f).linkIn = x.linkIn :=
  ⟨rfl, rfl, rfl, rfl, rfl, rfl, rfl, rfl, rfl, rfl, rfl, rfl, rfl, rfl, rfl, rfl, rfl, rfl, rfl, rfl, rfl, rfl, rfl, rfl, rfl, rfl, rfl⟩

@[simp] theorem Lane.onPwr_fields (x : Lane) (f : PwrBlk → PwrBlk) :
    (x.onPwr f).blk.pick = x.blk.pick ∧
    (x.onPwr f).blk.pnt = x.blk.pnt ∧
    (x.onPwr f).blk.hed = x.blk.hed ∧
    (x.onPwr f).blk.loop = x.blk.loop ∧
    (x.onPwr f).blk.nrg = x.blk.nrg ∧
    (x.onPwr f).blk.net = x.blk.net ∧
    (x.onPwr f).blk.can = x.blk.can ∧
    (x.onPwr f).blk.flt = x.blk.flt ∧
    (x.onPwr f).blk.recd = x.blk.recd ∧
    (x.onPwr f).blk.key = x.blk.key ∧
    (x.onPwr f).blk.pwr = f x.blk.pwr ∧
    (x.onPwr f).blk.lane = x.blk.lane ∧
    (x.onPwr f).blk.rings = x.blk.rings ∧
    (x.onPwr f).man = x.man ∧
    (x.onPwr f).parts = x.parts ∧
    (x.onPwr f).cores = x.cores ∧
    (x.onPwr f).mbx = x.mbx ∧
    (x.onPwr f).flash = x.flash ∧
    (x.onPwr f).mram = x.mram ∧
    (x.onPwr f).inbox = x.inbox ∧
    (x.onPwr f).closed = x.closed ∧
    (x.onPwr f).job = x.job ∧
    (x.onPwr f).imgWait = x.imgWait ∧
    (x.onPwr f).txRings = x.txRings ∧
    (x.onPwr f).lostClocks = x.lostClocks ∧
    (x.onPwr f).linkSeq = x.linkSeq ∧
    (x.onPwr f).linkIn = x.linkIn :=
  ⟨rfl, rfl, rfl, rfl, rfl, rfl, rfl, rfl, rfl, rfl, rfl, rfl, rfl, rfl, rfl, rfl, rfl, rfl, rfl, rfl, rfl, rfl, rfl, rfl, rfl, rfl, rfl⟩

@[simp] theorem Lane.onLaneBlk_fields (x : Lane) (f : LaneBlk → LaneBlk) :
    (x.onLaneBlk f).blk.pick = x.blk.pick ∧
    (x.onLaneBlk f).blk.pnt = x.blk.pnt ∧
    (x.onLaneBlk f).blk.hed = x.blk.hed ∧
    (x.onLaneBlk f).blk.loop = x.blk.loop ∧
    (x.onLaneBlk f).blk.nrg = x.blk.nrg ∧
    (x.onLaneBlk f).blk.net = x.blk.net ∧
    (x.onLaneBlk f).blk.can = x.blk.can ∧
    (x.onLaneBlk f).blk.flt = x.blk.flt ∧
    (x.onLaneBlk f).blk.recd = x.blk.recd ∧
    (x.onLaneBlk f).blk.key = x.blk.key ∧
    (x.onLaneBlk f).blk.pwr = x.blk.pwr ∧
    (x.onLaneBlk f).blk.lane = f x.blk.lane ∧
    (x.onLaneBlk f).blk.rings = x.blk.rings ∧
    (x.onLaneBlk f).man = x.man ∧
    (x.onLaneBlk f).parts = x.parts ∧
    (x.onLaneBlk f).cores = x.cores ∧
    (x.onLaneBlk f).mbx = x.mbx ∧
    (x.onLaneBlk f).flash = x.flash ∧
    (x.onLaneBlk f).mram = x.mram ∧
    (x.onLaneBlk f).inbox = x.inbox ∧
    (x.onLaneBlk f).closed = x.closed ∧
    (x.onLaneBlk f).job = x.job ∧
    (x.onLaneBlk f).imgWait = x.imgWait ∧
    (x.onLaneBlk f).txRings = x.txRings ∧
    (x.onLaneBlk f).lostClocks = x.lostClocks ∧
    (x.onLaneBlk f).linkSeq = x.linkSeq ∧
    (x.onLaneBlk f).linkIn = x.linkIn :=
  ⟨rfl, rfl, rfl, rfl, rfl, rfl, rfl, rfl, rfl, rfl, rfl, rfl, rfl, rfl, rfl, rfl, rfl, rfl, rfl, rfl, rfl, rfl, rfl, rfl, rfl, rfl, rfl⟩

@[simp] theorem Lane.onMan_fields (x : Lane) (f : Manager → Manager) :
    (x.onMan f).blk.pick = x.blk.pick ∧
    (x.onMan f).blk.pnt = x.blk.pnt ∧
    (x.onMan f).blk.hed = x.blk.hed ∧
    (x.onMan f).blk.loop = x.blk.loop ∧
    (x.onMan f).blk.nrg = x.blk.nrg ∧
    (x.onMan f).blk.net = x.blk.net ∧
    (x.onMan f).blk.can = x.blk.can ∧
    (x.onMan f).blk.flt = x.blk.flt ∧
    (x.onMan f).blk.recd = x.blk.recd ∧
    (x.onMan f).blk.key = x.blk.key ∧
    (x.onMan f).blk.pwr = x.blk.pwr ∧
    (x.onMan f).blk.lane = x.blk.lane ∧
    (x.onMan f).blk.rings = x.blk.rings ∧
    (x.onMan f).man = f x.man ∧
    (x.onMan f).parts = x.parts ∧
    (x.onMan f).cores = x.cores ∧
    (x.onMan f).mbx = x.mbx ∧
    (x.onMan f).flash = x.flash ∧
    (x.onMan f).mram = x.mram ∧
    (x.onMan f).inbox = x.inbox ∧
    (x.onMan f).closed = x.closed ∧
    (x.onMan f).job = x.job ∧
    (x.onMan f).imgWait = x.imgWait ∧
    (x.onMan f).txRings = x.txRings ∧
    (x.onMan f).lostClocks = x.lostClocks ∧
    (x.onMan f).linkSeq = x.linkSeq ∧
    (x.onMan f).linkIn = x.linkIn :=
  ⟨rfl, rfl, rfl, rfl, rfl, rfl, rfl, rfl, rfl, rfl, rfl, rfl, rfl, rfl, rfl, rfl, rfl, rfl, rfl, rfl, rfl, rfl, rfl, rfl, rfl, rfl, rfl⟩

@[simp] theorem Lane.onFlash_fields (x : Lane) (f : Flash → Flash) :
    (x.onFlash f).blk.pick = x.blk.pick ∧
    (x.onFlash f).blk.pnt = x.blk.pnt ∧
    (x.onFlash f).blk.hed = x.blk.hed ∧
    (x.onFlash f).blk.loop = x.blk.loop ∧
    (x.onFlash f).blk.nrg = x.blk.nrg ∧
    (x.onFlash f).blk.net = x.blk.net ∧
    (x.onFlash f).blk.can = x.blk.can ∧
    (x.onFlash f).blk.flt = x.blk.flt ∧
    (x.onFlash f).blk.recd = x.blk.recd ∧
    (x.onFlash f).blk.key = x.blk.key ∧
    (x.onFlash f).blk.pwr = x.blk.pwr ∧
    (x.onFlash f).blk.lane = x.blk.lane ∧
    (x.onFlash f).blk.rings = x.blk.rings ∧
    (x.onFlash f).man = x.man ∧
    (x.onFlash f).parts = x.parts ∧
    (x.onFlash f).cores = x.cores ∧
    (x.onFlash f).mbx = x.mbx ∧
    (x.onFlash f).flash = f x.flash ∧
    (x.onFlash f).mram = x.mram ∧
    (x.onFlash f).inbox = x.inbox ∧
    (x.onFlash f).closed = x.closed ∧
    (x.onFlash f).job = x.job ∧
    (x.onFlash f).imgWait = x.imgWait ∧
    (x.onFlash f).txRings = x.txRings ∧
    (x.onFlash f).lostClocks = x.lostClocks ∧
    (x.onFlash f).linkSeq = x.linkSeq ∧
    (x.onFlash f).linkIn = x.linkIn :=
  ⟨rfl, rfl, rfl, rfl, rfl, rfl, rfl, rfl, rfl, rfl, rfl, rfl, rfl, rfl, rfl, rfl, rfl, rfl, rfl, rfl, rfl, rfl, rfl, rfl, rfl, rfl, rfl⟩

@[simp] theorem Lane.onMram_fields (x : Lane) (f : Mram → Mram) :
    (x.onMram f).blk.pick = x.blk.pick ∧
    (x.onMram f).blk.pnt = x.blk.pnt ∧
    (x.onMram f).blk.hed = x.blk.hed ∧
    (x.onMram f).blk.loop = x.blk.loop ∧
    (x.onMram f).blk.nrg = x.blk.nrg ∧
    (x.onMram f).blk.net = x.blk.net ∧
    (x.onMram f).blk.can = x.blk.can ∧
    (x.onMram f).blk.flt = x.blk.flt ∧
    (x.onMram f).blk.recd = x.blk.recd ∧
    (x.onMram f).blk.key = x.blk.key ∧
    (x.onMram f).blk.pwr = x.blk.pwr ∧
    (x.onMram f).blk.lane = x.blk.lane ∧
    (x.onMram f).blk.rings = x.blk.rings ∧
    (x.onMram f).man = x.man ∧
    (x.onMram f).parts = x.parts ∧
    (x.onMram f).cores = x.cores ∧
    (x.onMram f).mbx = x.mbx ∧
    (x.onMram f).flash = x.flash ∧
    (x.onMram f).mram = f x.mram ∧
    (x.onMram f).inbox = x.inbox ∧
    (x.onMram f).closed = x.closed ∧
    (x.onMram f).job = x.job ∧
    (x.onMram f).imgWait = x.imgWait ∧
    (x.onMram f).txRings = x.txRings ∧
    (x.onMram f).lostClocks = x.lostClocks ∧
    (x.onMram f).linkSeq = x.linkSeq ∧
    (x.onMram f).linkIn = x.linkIn :=
  ⟨rfl, rfl, rfl, rfl, rfl, rfl, rfl, rfl, rfl, rfl, rfl, rfl, rfl, rfl, rfl, rfl, rfl, rfl, rfl, rfl, rfl, rfl, rfl, rfl, rfl, rfl, rfl⟩

@[simp] theorem Lane.onRing_fields (x : Lane) (r : Nat) (f : Ring → Ring) :
    (x.onRing r f).blk.pick = x.blk.pick ∧
    (x.onRing r f).blk.pnt = x.blk.pnt ∧
    (x.onRing r f).blk.hed = x.blk.hed ∧
    (x.onRing r f).blk.loop = x.blk.loop ∧
    (x.onRing r f).blk.nrg = x.blk.nrg ∧
    (x.onRing r f).blk.net = x.blk.net ∧
    (x.onRing r f).blk.can = x.blk.can ∧
    (x.onRing r f).blk.flt = x.blk.flt ∧
    (x.onRing r f).blk.recd = x.blk.recd ∧
    (x.onRing r f).blk.key = x.blk.key ∧
    (x.onRing r f).blk.pwr = x.blk.pwr ∧
    (x.onRing r f).blk.lane = x.blk.lane ∧
    (x.onRing r f).blk.rings = tmod {} x.blk.rings r f ∧
    (x.onRing r f).man = x.man ∧
    (x.onRing r f).parts = x.parts ∧
    (x.onRing r f).cores = x.cores ∧
    (x.onRing r f).mbx = x.mbx ∧
    (x.onRing r f).flash = x.flash ∧
    (x.onRing r f).mram = x.mram ∧
    (x.onRing r f).inbox = x.inbox ∧
    (x.onRing r f).closed = x.closed ∧
    (x.onRing r f).job = x.job ∧
    (x.onRing r f).imgWait = x.imgWait ∧
    (x.onRing r f).txRings = x.txRings ∧
    (x.onRing r f).lostClocks = x.lostClocks ∧
    (x.onRing r f).linkSeq = x.linkSeq ∧
    (x.onRing r f).linkIn = x.linkIn :=
  ⟨rfl, rfl, rfl, rfl, rfl, rfl, rfl, rfl, rfl, rfl, rfl, rfl, rfl, rfl, rfl, rfl, rfl, rfl, rfl, rfl, rfl, rfl, rfl, rfl, rfl, rfl, rfl⟩

@[simp] theorem Lane.onPart_fields (x : Lane) (p : Nat) (f : Part → Part) :
    (x.onPart p f).blk.pick = x.blk.pick ∧
    (x.onPart p f).blk.pnt = x.blk.pnt ∧
    (x.onPart p f).blk.hed = x.blk.hed ∧
    (x.onPart p f).blk.loop = x.blk.loop ∧
    (x.onPart p f).blk.nrg = x.blk.nrg ∧
    (x.onPart p f).blk.net = x.blk.net ∧
    (x.onPart p f).blk.can = x.blk.can ∧
    (x.onPart p f).blk.flt = x.blk.flt ∧
    (x.onPart p f).blk.recd = x.blk.recd ∧
    (x.onPart p f).blk.key = x.blk.key ∧
    (x.onPart p f).blk.pwr = x.blk.pwr ∧
    (x.onPart p f).blk.lane = x.blk.lane ∧
    (x.onPart p f).blk.rings = x.blk.rings ∧
    (x.onPart p f).man = x.man ∧
    (x.onPart p f).parts = tmod {} x.parts p f ∧
    (x.onPart p f).cores = x.cores ∧
    (x.onPart p f).mbx = x.mbx ∧
    (x.onPart p f).flash = x.flash ∧
    (x.onPart p f).mram = x.mram ∧
    (x.onPart p f).inbox = x.inbox ∧
    (x.onPart p f).closed = x.closed ∧
    (x.onPart p f).job = x.job ∧
    (x.onPart p f).imgWait = x.imgWait ∧
    (x.onPart p f).txRings = x.txRings ∧
    (x.onPart p f).lostClocks = x.lostClocks ∧
    (x.onPart p f).linkSeq = x.linkSeq ∧
    (x.onPart p f).linkIn = x.linkIn :=
  ⟨rfl, rfl, rfl, rfl, rfl, rfl, rfl, rfl, rfl, rfl, rfl, rfl, rfl, rfl, rfl, rfl, rfl, rfl, rfl, rfl, rfl, rfl, rfl, rfl, rfl, rfl, rfl⟩

@[simp] theorem Lane.onCore_fields (x : Lane) (c : Nat) (f : Core → Core) :
    (x.onCore c f).blk.pick = x.blk.pick ∧
    (x.onCore c f).blk.pnt = x.blk.pnt ∧
    (x.onCore c f).blk.hed = x.blk.hed ∧
    (x.onCore c f).blk.loop = x.blk.loop ∧
    (x.onCore c f).blk.nrg = x.blk.nrg ∧
    (x.onCore c f).blk.net = x.blk.net ∧
    (x.onCore c f).blk.can = x.blk.can ∧
    (x.onCore c f).blk.flt = x.blk.flt ∧
    (x.onCore c f).blk.recd = x.blk.recd ∧
    (x.onCore c f).blk.key = x.blk.key ∧
    (x.onCore c f).blk.pwr = x.blk.pwr ∧
    (x.onCore c f).blk.lane = x.blk.lane ∧
    (x.onCore c f).blk.rings = x.blk.rings ∧
    (x.onCore c f).man = x.man ∧
    (x.onCore c f).parts = x.parts ∧
    (x.onCore c f).cores = tmod {} x.cores c f ∧
    (x.onCore c f).mbx = x.mbx ∧
    (x.onCore c f).flash = x.flash ∧
    (x.onCore c f).mram = x.mram ∧
    (x.onCore c f).inbox = x.inbox ∧
    (x.onCore c f).closed = x.closed ∧
    (x.onCore c f).job = x.job ∧
    (x.onCore c f).imgWait = x.imgWait ∧
    (x.onCore c f).txRings = x.txRings ∧
    (x.onCore c f).lostClocks = x.lostClocks ∧
    (x.onCore c f).linkSeq = x.linkSeq ∧
    (x.onCore c f).linkIn = x.linkIn :=
  ⟨rfl, rfl, rfl, rfl, rfl, rfl, rfl, rfl, rfl, rfl, rfl, rfl, rfl, rfl, rfl, rfl, rfl, rfl, rfl, rfl, rfl, rfl, rfl, rfl, rfl, rfl, rfl⟩

@[simp] theorem Lane.onSender_fields (x : Lane) (p : Nat) (f : Sender → Sender) :
    (x.onSender p f).blk.pick = x.blk.pick ∧
    (x.onSender p f).blk.pnt = x.blk.pnt ∧
    (x.onSender p f).blk.hed = x.blk.hed ∧
    (x.onSender p f).blk.loop = x.blk.loop ∧
    (x.onSender p f).blk.nrg = x.blk.nrg ∧
    (x.onSender p f).blk.net = x.blk.net ∧
    (x.onSender p f).blk.can = x.blk.can ∧
    (x.onSender p f).blk.flt = x.blk.flt ∧
    (x.onSender p f).blk.recd = x.blk.recd ∧
    (x.onSender p f).blk.key = x.blk.key ∧
    (x.onSender p f).blk.pwr = x.blk.pwr ∧
    (x.onSender p f).blk.lane = x.blk.lane ∧
    (x.onSender p f).blk.rings = x.blk.rings ∧
    (x.onSender p f).man = { x.man with senders := tmod {} x.man.senders p f } ∧
    (x.onSender p f).parts = x.parts ∧
    (x.onSender p f).cores = x.cores ∧
    (x.onSender p f).mbx = x.mbx ∧
    (x.onSender p f).flash = x.flash ∧
    (x.onSender p f).mram = x.mram ∧
    (x.onSender p f).inbox = x.inbox ∧
    (x.onSender p f).closed = x.closed ∧
    (x.onSender p f).job = x.job ∧
    (x.onSender p f).imgWait = x.imgWait ∧
    (x.onSender p f).txRings = x.txRings ∧
    (x.onSender p f).lostClocks = x.lostClocks ∧
    (x.onSender p f).linkSeq = x.linkSeq ∧
    (x.onSender p f).linkIn = x.linkIn :=
  ⟨rfl, rfl, rfl, rfl, rfl, rfl, rfl, rfl, rfl, rfl, rfl, rfl, rfl, rfl, rfl, rfl, rfl, rfl, rfl, rfl, rfl, rfl, rfl, rfl, rfl, rfl, rfl⟩

@[simp] theorem Lane.onLoop_fields (x : Lane) (n : Nat) (f : LoopSt → LoopSt) :
    (x.onLoop n f).blk.pick = x.blk.pick ∧
    (x.onLoop n f).blk.pnt = x.blk.pnt ∧
    (x.onLoop n f).blk.hed = x.blk.hed ∧
    (x.onLoop n f).blk.loop = { x.blk.loop with loops := tmod {} x.blk.loop.loops n f } ∧
    (x.onLoop n f).blk.nrg = x.blk.nrg ∧
    (x.onLoop n f).blk.net = x.blk.net ∧
    (x.onLoop n f).blk.can = x.blk.can ∧
    (x.onLoop n f).blk.flt = x.blk.flt ∧
    (x.onLoop n f).blk.recd = x.blk.recd ∧
    (x.onLoop n f).blk.key = x.blk.key ∧
    (x.onLoop n f).blk.pwr = x.blk.pwr ∧
    (x.onLoop n f).blk.lane = x.blk.lane ∧
    (x.onLoop n f).blk.rings = x.blk.rings ∧
    (x.onLoop n f).man = x.man ∧
    (x.onLoop n f).parts = x.parts ∧
    (x.onLoop n f).cores = x.cores ∧
    (x.onLoop n f).mbx = x.mbx ∧
    (x.onLoop n f).flash = x.flash ∧
    (x.onLoop n f).mram = x.mram ∧
    (x.onLoop n f).inbox = x.inbox ∧
    (x.onLoop n f).closed = x.closed ∧
    (x.onLoop n f).job = x.job ∧
    (x.onLoop n f).imgWait = x.imgWait ∧
    (x.onLoop n f).txRings = x.txRings ∧
    (x.onLoop n f).lostClocks = x.lostClocks ∧
    (x.onLoop n f).linkSeq = x.linkSeq ∧
    (x.onLoop n f).linkIn = x.linkIn :=
  ⟨rfl, rfl, rfl, rfl, rfl, rfl, rfl, rfl, rfl, rfl, rfl, rfl, rfl, rfl, rfl, rfl, rfl, rfl, rfl, rfl, rfl, rfl, rfl, rfl, rfl, rfl, rfl⟩

@[simp] theorem Lane.onGroup_fields (x : Lane) (g : Nat) (f : GroupSt → GroupSt) :
    (x.onGroup g f).blk.pick = x.blk.pick ∧
    (x.onGroup g f).blk.pnt = x.blk.pnt ∧
    (x.onGroup g f).blk.hed = x.blk.hed ∧
    (x.onGroup g f).blk.loop = { x.blk.loop with groups := tmod {} x.blk.loop.groups g f } ∧
    (x.onGroup g f).blk.nrg = x.blk.nrg ∧
    (x.onGroup g f).blk.net = x.blk.net ∧
    (x.onGroup g f).blk.can = x.blk.can ∧
    (x.onGroup g f).blk.flt = x.blk.flt ∧
    (x.onGroup g f).blk.recd = x.blk.recd ∧
    (x.onGroup g f).blk.key = x.blk.key ∧
    (x.onGroup g f).blk.pwr = x.blk.pwr ∧
    (x.onGroup g f).blk.lane = x.blk.lane ∧
    (x.onGroup g f).blk.rings = x.blk.rings ∧
    (x.onGroup g f).man = x.man ∧
    (x.onGroup g f).parts = x.parts ∧
    (x.onGroup g f).cores = x.cores ∧
    (x.onGroup g f).mbx = x.mbx ∧
    (x.onGroup g f).flash = x.flash ∧
    (x.onGroup g f).mram = x.mram ∧
    (x.onGroup g f).inbox = x.inbox ∧
    (x.onGroup g f).closed = x.closed ∧
    (x.onGroup g f).job = x.job ∧
    (x.onGroup g f).imgWait = x.imgWait ∧
    (x.onGroup g f).txRings = x.txRings ∧
    (x.onGroup g f).lostClocks = x.lostClocks ∧
    (x.onGroup g f).linkSeq = x.linkSeq ∧
    (x.onGroup g f).linkIn = x.linkIn :=
  ⟨rfl, rfl, rfl, rfl, rfl, rfl, rfl, rfl, rfl, rfl, rfl, rfl, rfl, rfl, rfl, rfl, rfl, rfl, rfl, rfl, rfl, rfl, rfl, rfl, rfl, rfl, rfl⟩

@[simp] theorem Lane.onCircuit_fields (x : Lane) (c : Nat) (f : Circuit → Circuit) :
    (x.onCircuit c f).blk.pick = x.blk.pick ∧
    (x.onCircuit c f).blk.pnt = x.blk.pnt ∧
    (x.onCircuit c f).blk.hed = x.blk.hed ∧
    (x.onCircuit c f).blk.loop = x.blk.loop ∧
    (x.onCircuit c f).blk.nrg = { x.blk.nrg with circuits := tmod {} x.blk.nrg.circuits c f } ∧
    (x.onCircuit c f).blk.net = x.blk.net ∧
    (x.onCircuit c f).blk.can = x.blk.can ∧
    (x.onCircuit c f).blk.flt = x.blk.flt ∧
    (x.onCircuit c f).blk.recd = x.blk.recd ∧
    (x.onCircuit c f).blk.key = x.blk.key ∧
    (x.onCircuit c f).blk.pwr = x.blk.pwr ∧
    (x.onCircuit c f).blk.lane = x.blk.lane ∧
    (x.onCircuit c f).blk.rings = x.blk.rings ∧
    (x.onCircuit c f).man = x.man ∧
    (x.onCircuit c f).parts = x.parts ∧
    (x.onCircuit c f).cores = x.cores ∧
    (x.onCircuit c f).mbx = x.mbx ∧
    (x.onCircuit c f).flash = x.flash ∧
    (x.onCircuit c f).mram = x.mram ∧
    (x.onCircuit c f).inbox = x.inbox ∧
    (x.onCircuit c f).closed = x.closed ∧
    (x.onCircuit c f).job = x.job ∧
    (x.onCircuit c f).imgWait = x.imgWait ∧
    (x.onCircuit c f).txRings = x.txRings ∧
    (x.onCircuit c f).lostClocks = x.lostClocks ∧
    (x.onCircuit c f).linkSeq = x.linkSeq ∧
    (x.onCircuit c f).linkIn = x.linkIn :=
  ⟨rfl, rfl, rfl, rfl, rfl, rfl, rfl, rfl, rfl, rfl, rfl, rfl, rfl, rfl, rfl, rfl, rfl, rfl, rfl, rfl, rfl, rfl, rfl, rfl, rfl, rfl, rfl⟩

@[simp] theorem Lane.onBus_fields (x : Lane) (n : Nat) (f : BusSt → BusSt) :
    (x.onBus n f).blk.pick = x.blk.pick ∧
    (x.onBus n f).blk.pnt = x.blk.pnt ∧
    (x.onBus n f).blk.hed = x.blk.hed ∧
    (x.onBus n f).blk.loop = x.blk.loop ∧
    (x.onBus n f).blk.nrg = x.blk.nrg ∧
    (x.onBus n f).blk.net = x.blk.net ∧
    (x.onBus n f).blk.can = { x.blk.can with bus := tmod {} x.blk.can.bus n f } ∧
    (x.onBus n f).blk.flt = x.blk.flt ∧
    (x.onBus n f).blk.recd = x.blk.recd ∧
    (x.onBus n f).blk.key = x.blk.key ∧
    (x.onBus n f).blk.pwr = x.blk.pwr ∧
    (x.onBus n f).blk.lane = x.blk.lane ∧
    (x.onBus n f).blk.rings = x.blk.rings ∧
    (x.onBus n f).man = x.man ∧
    (x.onBus n f).parts = x.parts ∧
    (x.onBus n f).cores = x.cores ∧
    (x.onBus n f).mbx = x.mbx ∧
    (x.onBus n f).flash = x.flash ∧
    (x.onBus n f).mram = x.mram ∧
    (x.onBus n f).inbox = x.inbox ∧
    (x.onBus n f).closed = x.closed ∧
    (x.onBus n f).job = x.job ∧
    (x.onBus n f).imgWait = x.imgWait ∧
    (x.onBus n f).txRings = x.txRings ∧
    (x.onBus n f).lostClocks = x.lostClocks ∧
    (x.onBus n f).linkSeq = x.linkSeq ∧
    (x.onBus n f).linkIn = x.linkIn :=
  ⟨rfl, rfl, rfl, rfl, rfl, rfl, rfl, rfl, rfl, rfl, rfl, rfl, rfl, rfl, rfl, rfl, rfl, rfl, rfl, rfl, rfl, rfl, rfl, rfl, rfl, rfl, rfl⟩

@[simp] theorem Lane.onSlot_fields (x : Lane) (n : Nat) (f : Slot → Slot) :
    (x.onSlot n f).blk.pick = x.blk.pick ∧
    (x.onSlot n f).blk.pnt = x.blk.pnt ∧
    (x.onSlot n f).blk.hed = x.blk.hed ∧
    (x.onSlot n f).blk.loop = x.blk.loop ∧
    (x.onSlot n f).blk.nrg = x.blk.nrg ∧
    (x.onSlot n f).blk.net = x.blk.net ∧
    (x.onSlot n f).blk.can = x.blk.can ∧
    (x.onSlot n f).blk.flt = x.blk.flt ∧
    (x.onSlot n f).blk.recd = x.blk.recd ∧
    (x.onSlot n f).blk.key = { x.blk.key with slots := tmod {} x.blk.key.slots n f } ∧
    (x.onSlot n f).blk.pwr = x.blk.pwr ∧
    (x.onSlot n f).blk.lane = x.blk.lane ∧
    (x.onSlot n f).blk.rings = x.blk.rings ∧
    (x.onSlot n f).man = x.man ∧
    (x.onSlot n f).parts = x.parts ∧
    (x.onSlot n f).cores = x.cores ∧
    (x.onSlot n f).mbx = x.mbx ∧
    (x.onSlot n f).flash = x.flash ∧
    (x.onSlot n f).mram = x.mram ∧
    (x.onSlot n f).inbox = x.inbox ∧
    (x.onSlot n f).closed = x.closed ∧
    (x.onSlot n f).job = x.job ∧
    (x.onSlot n f).imgWait = x.imgWait ∧
    (x.onSlot n f).txRings = x.txRings ∧
    (x.onSlot n f).lostClocks = x.lostClocks ∧
    (x.onSlot n f).linkSeq = x.linkSeq ∧
    (x.onSlot n f).linkIn = x.linkIn :=
  ⟨rfl, rfl, rfl, rfl, rfl, rfl, rfl, rfl, rfl, rfl, rfl, rfl, rfl, rfl, rfl, rfl, rfl, rfl, rfl, rfl, rfl, rfl, rfl, rfl, rfl, rfl, rfl⟩

@[simp] theorem Lane.onMbx_fields (x : Lane) (m : MbxId) (r : Reader) (f : Mbx → Mbx) :
    (x.onMbx m r f).blk.pick = x.blk.pick ∧
    (x.onMbx m r f).blk.pnt = x.blk.pnt ∧
    (x.onMbx m r f).blk.hed = x.blk.hed ∧
    (x.onMbx m r f).blk.loop = x.blk.loop ∧
    (x.onMbx m r f).blk.nrg = x.blk.nrg ∧
    (x.onMbx m r f).blk.net = x.blk.net ∧
    (x.onMbx m r f).blk.can = x.blk.can ∧
    (x.onMbx m r f).blk.flt = x.blk.flt ∧
    (x.onMbx m r f).blk.recd = x.blk.recd ∧
    (x.onMbx m r f).blk.key = x.blk.key ∧
    (x.onMbx m r f).blk.pwr = x.blk.pwr ∧
    (x.onMbx m r f).blk.lane = x.blk.lane ∧
    (x.onMbx m r f).blk.rings = x.blk.rings ∧
    (x.onMbx m r f).man = x.man ∧
    (x.onMbx m r f).parts = x.parts ∧
    (x.onMbx m r f).cores = x.cores ∧
    (x.onMbx m r f).mbx = tmod {} x.mbx (mbxKey m r) f ∧
    (x.onMbx m r f).flash = x.flash ∧
    (x.onMbx m r f).mram = x.mram ∧
    (x.onMbx m r f).inbox = x.inbox ∧
    (x.onMbx m r f).closed = x.closed ∧
    (x.onMbx m r f).job = x.job ∧
    (x.onMbx m r f).imgWait = x.imgWait ∧
    (x.onMbx m r f).txRings = x.txRings ∧
    (x.onMbx m r f).lostClocks = x.lostClocks ∧
    (x.onMbx m r f).linkSeq = x.linkSeq ∧
    (x.onMbx m r f).linkIn = x.linkIn :=
  ⟨rfl, rfl, rfl, rfl, rfl, rfl, rfl, rfl, rfl, rfl, rfl, rfl, rfl, rfl, rfl, rfl, rfl, rfl, rfl, rfl, rfl, rfl, rfl, rfl, rfl, rfl, rfl⟩

end Sys2Proof.Machine
end

