-- ==== Sys2Proof/Laws/Tables.lean ====
section
/-! SUPPORT. Tables and memories: a write is read back, leaves every other entry alone, and keeps the canonical form. -/

namespace Sys2Proof.Machine

variable {α : Type}

/-! ### Reading after a write -/

theorem tget_filter_ne {d : α} {k j : Nat} (hj : j ≠ k) : ∀ t : Tab α, tget d (t.filter (fun e => e.1 ≠ k)) j = tget d t j
  | [] => rfl
  | (i, w) :: r => by
    have ih := tget_filter_ne (d := d) hj r
    by_cases h : i = k
    · simpa [List.filter, h, tget, Ne.symm hj] using ih
    · by_cases h2 : i = j
      · simp [List.filter, tget, h2, hj]
      · simpa [List.filter, h, tget, h2] using ih

theorem tget_filter_same {d : α} {k : Nat} : ∀ t : Tab α, tget d (t.filter (fun e => e.1 ≠ k)) k = d
  | [] => rfl
  | (i, w) :: r => by
    have ih := tget_filter_same (d := d) (k := k) r
    by_cases h : i = k
    · simpa [List.filter, h] using ih
    · simpa [List.filter, h, tget] using ih

theorem tget_tins_other {d v : α} {k j : Nat} (hj : j ≠ k) : ∀ t : Tab α, tget d (tins k v t) j = tget d t j
  | [] => by simp [tins, tget, Ne.symm hj]
  | (i, w) :: r => by
    have ih := tget_tins_other (d := d) (v := v) hj r
    by_cases h : k < i
    · simp [tins, h, tget, Ne.symm hj]
    · simp [tins, h, tget, ih]

theorem tget_tins_same {d v : α} {k : Nat} : ∀ t : Tab α, (∀ e ∈ t, e.1 ≠ k) → tget d (tins k v t) k = v
  | [], _ => by simp [tins, tget]
  | (i, w) :: r, h => by
    have hi : i ≠ k := h (i, w) (by simp)
    have ih := tget_tins_same (d := d) (v := v) r (fun e he => h e (by simp [he]))
    by_cases h1 : k < i
    · simp [tins, h1, tget]
    · simp [tins, h1, tget, hi, ih]

variable [DecidableEq α]

/-- A write is read back. -/
@[simp] theorem tget_tput_same (d : α) (t : Tab α) (k : Nat) (v : α) : tget d (tput d t k v) k = v := by
  unfold tput
  by_cases hv : v = d
  · simp only [hv, if_true]; exact tget_filter_same t
  · simp only [hv, if_false]
    exact tget_tins_same _ (fun e he => by simpa using (List.mem_filter.mp he).2)

/-- A write leaves every other entry alone. -/
theorem tget_tput_other {d : α} {k j : Nat} (v : α) (hj : j ≠ k) (t : Tab α) : tget d (tput d t k v) j = tget d t j := by
  unfold tput
  by_cases hv : v = d
  · simp only [hv, if_true]; exact tget_filter_ne hj t
  · simp only [hv, if_false]; rw [tget_tins_other hj, tget_filter_ne hj]

/-- Both at once. -/
theorem tget_tput (d : α) (t : Tab α) (k j : Nat) (v : α) : tget d (tput d t k v) j = if j = k then v else tget d t j := by
  by_cases h : j = k
  · subst h; simp
  · simp [h, tget_tput_other v h]

/-- A change of one entry. -/
@[simp] theorem tget_tmod_same (d : α) (t : Tab α) (k : Nat) (f : α → α) : tget d (tmod d t k f) k = f (tget d t k) :=
  tget_tput_same d t k _
theorem tget_tmod_other {d : α} (t : Tab α) {k j : Nat} (f : α → α) (hj : j ≠ k) : tget d (tmod d t k f) j = tget d t j :=
  tget_tput_other _ hj t

/-- Bytes outside a write read as before. -/
theorem tget_tputList_other {d : α} : ∀ (vs : List α) (t : Tab α) (k j : Nat), (j < k ∨ k + vs.length ≤ j) →
    tget d (tputList d t k vs) j = tget d t j
  | [], _, _, _, _ => rfl
  | v :: vs, t, k, j, h => by
    simp only [List.length_cons] at h
    rw [tputList, tget_tputList_other vs _ _ _ (by omega), tget_tput_other v (by omega)]

theorem memWrite_other (m : Mem) (a b : Nat) (bs : List Byte) (h : b < a ∨ a + bs.length ≤ b) :
    tget 0 (memWrite m a bs) b = tget 0 m b := tget_tputList_other bs m a b h

/-- Setting an entry of a table without default is read back. -/
@[simp] theorem lookup_oset_same {β : Type} (k : Nat) (v : β) : ∀ (t : Tab β), (oset t k v).lookup k = some v
  | [] => by simp [oset]
  | (i, w) :: r => by
    simp only [oset]
    by_cases h1 : k < i
    · simp [h1]
    · by_cases h2 : k = i
      · simp [h2]
      · have : (k == i) = false := by simpa using h2
        simp only [h1, h2, if_false, List.lookup, this]
        exact lookup_oset_same k v r

/-! ### The canonical form -/

theorem tabWfFrom_mono {d : α} : ∀ {t : Tab α} {lo lo' : Nat}, lo' ≤ lo → tabWfFrom d lo t = true → tabWfFrom d lo' t = true
  | [], _, _, _, _ => rfl
  | (i, v) :: r, lo, lo', hl, h => by
    simp only [tabWfFrom, Bool.and_eq_true, decide_eq_true_eq] at h ⊢
    exact ⟨⟨by omega, h.1.2⟩, h.2⟩

theorem filter_wfFrom {d : α} (p : Nat × α → Bool) : ∀ {t : Tab α} {lo : Nat}, tabWfFrom d lo t = true →
    tabWfFrom d lo (t.filter p) = true
  | [], _, _ => rfl
  | (i, v) :: r, lo, h => by
    simp only [tabWfFrom, Bool.and_eq_true, decide_eq_true_eq] at h
    have ih := filter_wfFrom p h.2
    by_cases hp : p (i, v) = true
    · simp [List.filter, hp, tabWfFrom, h.1.1, h.1.2, ih]
    · simpa [List.filter, hp] using tabWfFrom_mono (by omega) ih

theorem tins_wfFrom {d v : α} {k : Nat} (hv : v ≠ d) : ∀ {t : Tab α} {lo : Nat}, tabWfFrom d lo t = true → lo ≤ k →
    (∀ e ∈ t, e.1 ≠ k) → tabWfFrom d lo (tins k v t) = true
  | [], lo, _, hk, _ => by simp [tins, tabWfFrom, hv, hk]
  | (i, w) :: r, lo, h, hk, hn => by
    simp only [tabWfFrom, Bool.and_eq_true, decide_eq_true_eq] at h
    have hi : i ≠ k := hn (i, w) (by simp)
    by_cases h1 : k < i
    · simp only [tins, h1, if_true, tabWfFrom, Bool.and_eq_true, decide_eq_true_eq]
      exact ⟨⟨hk, hv⟩, ⟨by omega, h.1.2⟩, h.2⟩
    · simp only [tins, h1, if_false, tabWfFrom, Bool.and_eq_true, decide_eq_true_eq]
      exact ⟨h.1, tins_wfFrom hv h.2 (by omega) (fun e he => hn e (by simp [he]))⟩

/-- A write keeps the canonical form. -/
theorem tput_wf {d : α} {t : Tab α} (k : Nat) (v : α) (h : tabWf d t = true) : tabWf d (tput d t k v) = true := by
  unfold tput
  by_cases hv : v = d
  · simp only [hv, if_true]; exact filter_wfFrom _ h
  · simp only [hv, if_false]
    exact tins_wfFrom hv (filter_wfFrom _ h) (Nat.zero_le k) (fun e he => by simpa using (List.mem_filter.mp he).2)

theorem tmod_wf {d : α} {t : Tab α} (k : Nat) (f : α → α) (h : tabWf d t = true) : tabWf d (tmod d t k f) = true :=
  tput_wf k _ h

theorem tputList_wf {d : α} : ∀ (vs : List α) (t : Tab α) (k : Nat), tabWf d t = true → tabWf d (tputList d t k vs) = true
  | [], _, _, h => h
  | v :: vs, _, k, h => tputList_wf vs _ (k + 1) (tput_wf k v h)

/-- Every write of bytes keeps a memory canonical. -/
theorem memWrite_wf {m : Mem} (a : Nat) (bs : List Byte) (h : Memory.wf m = true) : Memory.wf (memWrite m a bs) = true :=
  tputList_wf bs m a h

/-- A part of a canonical memory, addressed from 0, is canonical. -/
theorem shift_wfFrom {d : α} (a : Nat) : ∀ {t : Tab α} {lo : Nat}, tabWfFrom d lo t = true → (∀ e ∈ t, a ≤ e.1) →
    tabWfFrom d (lo - a) (t.map (fun c => (c.1 - a, c.2))) = true
  | [], _, _, _ => rfl
  | (i, v) :: r, lo, h, ha => by
    simp only [tabWfFrom, Bool.and_eq_true, decide_eq_true_eq] at h
    have hi : a ≤ i := ha (i, v) (by simp)
    have ih := shift_wfFrom a h.2 (fun e he => ha e (by simp [he]))
    simp only [List.map_cons, tabWfFrom, Bool.and_eq_true, decide_eq_true_eq]
    refine ⟨⟨by omega, h.1.2⟩, ?_⟩
    rwa [show i + 1 - a = i - a + 1 by omega] at ih

theorem memSlice_wf {m : Mem} (a n : Nat) (h : Memory.wf m = true) : Memory.wf (memSlice m a n) = true := by
  have := shift_wfFrom a (filter_wfFrom (fun c => decide (a ≤ c.1) && decide (c.1 < a + n)) h)
    (fun e he => by simpa using ((by simpa using (List.mem_filter.mp he).2 : a ≤ e.1 ∧ e.1 < a + n)).1)
  simpa [Memory.wf, memSlice, tabWf] using this

/-- The memories of the machine after reset are canonical. -/
theorem reset_memWf : (∀ k, Memory.wf (State.reset.a.core k).mem = true) ∧ (∀ p, Memory.wf (State.reset.a.part p).shared = true) ∧
    (∀ k, Memory.wf (State.reset.b.core k).mem = true) ∧ ∀ p, Memory.wf (State.reset.b.part p).shared = true :=
  ⟨fun _ => rfl, fun _ => rfl, fun _ => rfl, fun _ => rfl⟩

end Sys2Proof.Machine
end

