-- ==== Sys2Proof/Laws/Access.lean ====
section
/-! SUPPORT. An indexed part of the state that has been written is read back, and its neighbours are as they were. -/

namespace Sys2Proof.Machine

@[simp] theorem Lane.ring_onRing (x : Lane) (r : Nat) (f : Ring → Ring) : (x.onRing r f).ring r = f (x.ring r) :=
  tget_tmod_same _ _ _ _
@[simp] theorem Lane.part_onPart (x : Lane) (p : Nat) (f : Part → Part) : (x.onPart p f).part p = f (x.part p) :=
  tget_tmod_same _ _ _ _
@[simp] theorem Lane.core_onCore (x : Lane) (c : Nat) (f : Core → Core) : (x.onCore c f).core c = f (x.core c) :=
  tget_tmod_same _ _ _ _
@[simp] theorem Lane.sender_onSender (x : Lane) (p : Nat) (f : Sender → Sender) : (x.onSender p f).sender p = f (x.sender p) :=
  tget_tmod_same _ _ _ _
@[simp] theorem Lane.loop_onLoop (x : Lane) (n : Nat) (f : LoopSt → LoopSt) : (x.onLoop n f).loop n = f (x.loop n) :=
  tget_tmod_same _ _ _ _
@[simp] theorem Lane.group_onGroup (x : Lane) (g : Nat) (f : GroupSt → GroupSt) : (x.onGroup g f).group g = f (x.group g) :=
  tget_tmod_same _ _ _ _
@[simp] theorem Lane.circuit_onCircuit (x : Lane) (c : Nat) (f : Circuit → Circuit) :
    (x.onCircuit c f).circuit c = f (x.circuit c) := tget_tmod_same _ _ _ _
@[simp] theorem Lane.bus_onBus (x : Lane) (n : Nat) (f : BusSt → BusSt) : (x.onBus n f).bus n = f (x.bus n) :=
  tget_tmod_same _ _ _ _
@[simp] theorem Lane.slot_onSlot (x : Lane) (n : Nat) (f : Slot → Slot) : (x.onSlot n f).slot n = f (x.slot n) :=
  tget_tmod_same _ _ _ _
@[simp] theorem Lane.mailbox_onMbx (x : Lane) (m : MbxId) (r : Reader) (f : Mbx → Mbx) :
    (x.onMbx m r f).mailbox m r = f (x.mailbox m r) := tget_tmod_same _ _ _ _
@[simp] theorem State.fe_onFe (s : State) (r : Nat) (f : FrontEnd → FrontEnd) : (s.onFe r f).fe r = f (s.fe r) :=
  tget_tmod_same _ _ _ _

theorem Lane.ring_onRing_other (x : Lane) {r q : Nat} (f : Ring → Ring) (h : q ≠ r) : (x.onRing r f).ring q = x.ring q :=
  tget_tmod_other _ _ h
theorem Lane.part_onPart_other (x : Lane) {p q : Nat} (f : Part → Part) (h : q ≠ p) : (x.onPart p f).part q = x.part q :=
  tget_tmod_other _ _ h
theorem Lane.core_onCore_other (x : Lane) {c d : Nat} (f : Core → Core) (h : d ≠ c) : (x.onCore c f).core d = x.core d :=
  tget_tmod_other _ _ h
theorem Lane.sender_onSender_other (x : Lane) {p q : Nat} (f : Sender → Sender) (h : q ≠ p) :
    (x.onSender p f).sender q = x.sender q := tget_tmod_other _ _ h
theorem Lane.loop_onLoop_other (x : Lane) {n m : Nat} (f : LoopSt → LoopSt) (h : m ≠ n) : (x.onLoop n f).loop m = x.loop m :=
  tget_tmod_other _ _ h
theorem Lane.group_onGroup_other (x : Lane) {g k : Nat} (f : GroupSt → GroupSt) (h : k ≠ g) : (x.onGroup g f).group k = x.group k :=
  tget_tmod_other _ _ h
theorem State.fe_onFe_other (s : State) {r q : Nat} (f : FrontEnd → FrontEnd) (h : q ≠ r) : (s.onFe r f).fe q = s.fe q :=
  tget_tmod_other _ _ h

/-- The ports of a lane are two separate homes. -/
@[simp] theorem Lane.port_onPort (x : Lane) (n : Nat) (f : PortSt → PortSt) : (x.onPort n f).port n = f (x.port n) := by
  unfold Lane.onPort Lane.port
  by_cases h : n = 0 <;> simp [h]

end Sys2Proof.Machine
end

