-- ==== Sys2Proof/Laws/Commands.lean ====
section
/-! SUPPORT. How an accepted command reaches its meaning, and how it is answered. -/

namespace Sys2Proof.Machine

@[simp] theorem State.entered_pkg (s : State) (l : LaneId) (h : Hdr) (op : Op) : (s.entered l h op).pkg = s.pkg := by
  unfold State.entered; split <;> simp
@[simp] theorem State.entered_other (s : State) (l : LaneId) (h : Hdr) (op : Op) :
    (s.entered l h op).lane l.other = s.lane l.other := by
  unfold State.entered; split <;> simp
@[simp] theorem State.entered_blk (s : State) (l k : LaneId) (h : Hdr) (op : Op) :
    ((s.entered l h op).lane k).blk = (s.lane k).blk := by
  unfold State.entered; split
  · rfl
  · cases l <;> cases k <;> rfl
theorem State.earlyRefusal_pkg {s t : State} (h : Hdr) (op : Op) (hp : t.pkg = s.pkg) : t.earlyRefusal h op = s.earlyRefusal h op := by
  simp [State.earlyRefusal, hp]
theorem State.releasedEpoch_blk {s t : State} (ha : t.a.blk = s.a.blk) (hb : t.b.blk = s.b.blk) : t.releasedEpoch = s.releasedEpoch := by
  have h1 : t.a.leads = s.a.leads := by simp [Lane.leads, ha]
  have h2 : t.b.leads = s.b.leads := by simp [Lane.leads, hb]
  have h3 : t.activeLane = s.activeLane := by simp [State.activeLane, h1, h2]
  simp only [State.releasedEpoch, h3]
  cases s.activeLane <;> simp [State.lane, ha, hb]
@[simp] theorem State.entered_epoch (s : State) (l : LaneId) (h : Hdr) (op : Op) :
    (s.entered l h op).releasedEpoch = s.releasedEpoch :=
  State.releasedEpoch_blk (State.entered_blk s l .a h op) (State.entered_blk s l .b h op)

/-- A command that passes steps 3 to 10 of Table 09-5 executes. -/
theorem State.takeCommand_of_accepts {s : State} {l : LaneId} {h : Hdr} {op : Op} (ha : s.Accepts l h op) :
    s.takeCommand l h op s.releasedEpoch s.pkg.beat = (s.entered l h op).execute l h op s.releasedEpoch s.pkg.beat := by
  obtain ⟨hf, hz, hd, -, hk⟩ := ha
  have hadm : ∀ t : State, t.admitCommand l h op s.releasedEpoch s.pkg.beat = t.execute l h op s.releasedEpoch s.pkg.beat := by
    intro t
    generalize hn : (h.pick - s.releasedEpoch).toNat = d at hd
    simp only [State.admitCommand, hf, hz, hn]
    have h1 : ¬ (1000 < d ∧ d < 2147483648) := by omega
    have h2 : ¬ (1 ≤ d ∧ d ≤ 1000) := by omega
    simp [h1, h2]
  unfold State.takeCommand State.entered
  cases hs : h.sender with
  | none => simp [hadm]
  | some p =>
    obtain ⟨n, k, g, h1, h2, h3, h4⟩ := hk p hs
    simp [h1, h2, h3, hadm, Nat.not_le.mpr h4]

/-- With lane `l` alone in agreement, a command row is that command in lane `l`. -/
theorem State.command_alone {s : State} {l : LaneId} (hal : s.Alone l) {h : Hdr} {op : Op} (ha : s.Accepts l h op) :
    s.command h op = ((s.entered l h op).execute l h op s.releasedEpoch s.pkg.beat).onLane l Lane.reserve := by
  rw [← State.takeCommand_of_accepts ha]
  obtain ⟨h1, h2⟩ := hal
  cases l <;> simp only [State.lane, LaneId.other] at h1 h2 <;> simp [State.command, State.eachLane, h1, h2]

/-- With both lanes in agreement it is the command in lane A, then in lane B. -/
theorem State.command_both {s : State} (hb : s.Both) (h : Hdr) (op : Op) :
    s.command h op = (((s.takeCommand .a h op s.releasedEpoch s.pkg.beat).onLane .a Lane.reserve).takeCommand .b h op s.releasedEpoch
      s.pkg.beat).onLane .b Lane.reserve := by
  simp [State.command, State.eachLane, hb.1, hb.2]

/-- An operation that is done with OK is answered. -/
theorem State.execute_done {u t : State} {l : LaneId} {h : Hdr} {op : Op} {ps : List Byte} {e : Word} {n : Nat}
    (he : u.earlyRefusal h op = none) (hu : u.releasedEpoch = e) (hr : u.runOp l h e op = (t, .done .ok ps)) :
    u.execute l h op e n = u.answered t l h op ps := by
  subst hu
  simp [State.execute, he, hr, State.answered]

/-- An operation that answers later waits. -/
theorem State.execute_later {u t : State} {l : LaneId} {h : Hdr} {op : Op} {why : Waiting} {e : Word}
    (he : u.earlyRefusal h op = none) (hu : u.releasedEpoch = e) (hr : u.runOp l h e op = (t, .later why))
    (hp : t.pkg.beat = u.pkg.beat) (hw : ∀ p i, why ≠ .transfer p i) : u.execute l h op e u.pkg.beat = u.waits t l h op why := by
  subst hu
  simp only [State.execute, he, hr, State.waits, hp]
  cases why <;> rfl

/-- The two together: an accepted command whose meaning ends with OK. -/
theorem State.command_done {s : State} {l : LaneId} (hal : s.Alone l) {h : Hdr} {op : Op} (ha : s.Accepts l h op)
    {t : State} {ps : List Byte} (hr : (s.entered l h op).runOp l h s.releasedEpoch op = (t, .done .ok ps)) :
    s.command h op = ((s.entered l h op).answered t l h op ps).onLane l Lane.reserve := by
  rw [State.command_alone hal ha]
  exact congrArg (fun u => State.onLane u l Lane.reserve) <| State.execute_done (by rw [State.earlyRefusal_pkg h op (State.entered_pkg ..)]; exact ha.2.2.2.1) (by simp) hr

theorem State.command_later {s : State} {l : LaneId} (hal : s.Alone l) {h : Hdr} {op : Op} (ha : s.Accepts l h op)
    {t : State} {why : Waiting} (hr : (s.entered l h op).runOp l h s.releasedEpoch op = (t, .later why))
    (hp : t.pkg.beat = s.pkg.beat) (hw : ∀ p i, why ≠ .transfer p i) :
    s.command h op = ((s.entered l h op).waits t l h op why).onLane l Lane.reserve := by
  rw [State.command_alone hal ha]
  have := State.execute_later (e := s.releasedEpoch) (by rw [State.earlyRefusal_pkg h op (State.entered_pkg ..)]; exact ha.2.2.2.1)
    (by simp) hr (by simpa using hp) hw
  simpa using congrArg (fun u => State.onLane u l Lane.reserve) this

end Sys2Proof.Machine
end

