-- ==== Sys2Proof/Laws/Faults.lean ====
section
/-! SUPPORT. What setting a collector bit, and the reaction of its class, can do (R482 to R488). -/

namespace Sys2Proof.Machine

theorem mem_insSorted {k j : Nat} : ∀ {t : List Nat}, j ∈ insSorted k t ↔ j = k ∨ j ∈ t
  | [] => by simp [insSorted]
  | i :: r => by
    simp only [insSorted]
    split
    · simp
    · split
      · rename_i h; subst h; simp
      · simp [mem_insSorted (t := r)]; tauto

/-- A lane enters an event without touching its collector, its cores or its partitions. -/
@[simp] theorem Lane.takeEvent_keeps (x : Lane) (e : Event) :
    (x.takeEvent e).blk.flt = x.blk.flt ∧ (x.takeEvent e).cores = x.cores ∧ (x.takeEvent e).parts = x.parts ∧
    (x.takeEvent e).blk.lane = x.blk.lane ∧ (x.takeEvent e).blk.pwr = x.blk.pwr ∧ (x.takeEvent e).man = x.man := by
  simp only [Lane.takeEvent]; split <;> exact ⟨rfl, rfl, rfl, rfl, rfl, rfl⟩
@[simp] theorem Lane.enter_keeps (x : Lane) (l : LaneId) (k n p : Nat) (b : EventBody) :
    (x.enter l k n p b).blk.flt = x.blk.flt ∧ (x.enter l k n p b).cores = x.cores ∧ (x.enter l k n p b).parts = x.parts ∧
    (x.enter l k n p b).blk.lane = x.blk.lane ∧ (x.enter l k n p b).blk.pwr = x.blk.pwr := by
  simp only [Lane.enter, Lane.takeEvent_keeps]
  split <;> exact ⟨rfl, rfl, rfl, rfl, rfl⟩

/-- The sticky bits after a detection: bit `b` joins them unless it is reserved. -/
@[simp] theorem Lane.setBit_sticky (x : Lane) (l : LaneId) (b : Nat) (lasting : Bool) :
    (x.setBit l b lasting).blk.flt.sticky =
      if x.hasBit b || bitClass b = 0 then x.blk.flt.sticky else insSorted b x.blk.flt.sticky := by
  simp only [Lane.setBit]
  cases lasting <;> split <;> try rfl
  all_goals split <;> simp

/-- A detection changes neither the cores, the partitions, the lane's role nor its supply. -/
@[simp] theorem Lane.setBit_keeps (x : Lane) (l : LaneId) (b : Nat) (lasting : Bool) :
    (x.setBit l b lasting).cores = x.cores ∧ (x.setBit l b lasting).parts = x.parts ∧
    (x.setBit l b lasting).blk.lane = x.blk.lane ∧ (x.setBit l b lasting).blk.pwr = x.blk.pwr := by
  simp only [Lane.setBit]
  cases lasting <;> split <;> try exact ⟨rfl, rfl, rfl, rfl⟩
  all_goals split <;> simp

theorem Lane.hasBit_setBit (x : Lane) (l : LaneId) (b : Nat) (lasting : Bool) (h : bitClass b ≠ 0) :
    (x.setBit l b lasting).hasBit b = true := by
  by_cases hb : b ∈ x.blk.flt.sticky <;> simp [Lane.hasBit, mem_insSorted, h, hb]

theorem Lane.hasBit_setBit_other (x : Lane) (l : LaneId) {b c : Nat} (lasting : Bool) (h : c ≠ b) :
    (x.setBit l b lasting).hasBit c = x.hasBit c := by
  apply Bool.eq_iff_iff.mpr
  by_cases hb : b ∈ x.blk.flt.sticky <;> by_cases h0 : bitClass b = 0 <;> simp [Lane.hasBit, mem_insSorted, h, hb, h0]

/-- What a detection reported to one collector changes. -/
theorem State.flag_hasBit (s : State) (l : LaneId) {b : Nat} (lasting : Bool) (hc : (s.lane l).collects = true)
    (h : bitClass b ≠ 0) : ((s.flag l b lasting).lane l).hasBit b = true := by
  simp [State.flag, hc, Lane.hasBit_setBit, h]

theorem State.flag_hasBit_other (s : State) (l k : LaneId) {b c : Nat} (lasting : Bool) (h : c ≠ b ∨ k ≠ l) :
    ((s.flag l b lasting).lane k).hasBit c = (s.lane k).hasBit c := by
  by_cases hk : k = l
  · subst hk
    simp only [State.flag, State.lane_onLane]
    split
    · exact Lane.hasBit_setBit_other _ _ _ (h.resolve_right (by simp))
    · rfl
  · have : k = l.other := by cases k <;> cases l <;> simp_all [LaneId.other]
    subst this; simp [State.flag]

@[simp] theorem State.flag_keeps (s : State) (l k : LaneId) (b : Nat) (lasting : Bool) :
    ((s.flag l b lasting).lane k).cores = (s.lane k).cores ∧ ((s.flag l b lasting).lane k).parts = (s.lane k).parts ∧
    ((s.flag l b lasting).lane k).blk.lane = (s.lane k).blk.lane ∧ ((s.flag l b lasting).lane k).blk.pwr = (s.lane k).blk.pwr ∧
    (s.flag l b lasting).pkg = s.pkg := by
  cases k <;> cases l <;> by_cases ha : s.a.collects = true <;> by_cases hb : s.b.collects = true <;>
    simp [State.flag, State.onLane, State.setLane, State.lane, ha, hb]

/-- Entries mapped alike: what the map leaves alone reads as before. -/
theorem tget_map_snd {α β : Type} (g : α → α) (p : α → β) (hp : ∀ v, p (g v) = p v) (d : α) (k : Nat) : ∀ t : Tab α,
    p (tget d (t.map (fun e => (e.1, g e.2))) k) = p (tget d t k)
  | [] => rfl
  | (i, v) :: r => by
    by_cases h : i = k
    · simp [tget, h, hp]
    · simpa [tget, h] using tget_map_snd g p hp d k r

/-- Stopping a lane's engines leaves every memory and register of its cores as it was. -/
theorem Lane.stopEngines_core (x : Lane) (c : Nat) :
    (x.stopEngines.core c).mem = (x.core c).mem ∧ (x.stopEngines.core c).regs = (x.core c).regs :=
  ⟨tget_map_snd (fun k : Core => { k with run := .idle }) Core.mem (fun _ => rfl) {} c x.cores,
   tget_map_snd (fun k : Core => { k with run := .idle }) Core.regs (fun _ => rfl) {} c x.cores⟩
theorem Lane.stopEngines_part (x : Lane) (p : Nat) : (x.stopEngines.part p).shared = (x.part p).shared :=
  tget_map_snd (fun k : Part => { k with phase := .idle }) Part.shared (fun _ => rfl) {} p x.parts

end Sys2Proof.Machine
end

