-- ==== Sys2Proof/Laws/Forward.lean ====
section
/-! SUPPORT. What every operation over the state leaves alone or moves one way only: the queue, the fuses, the class G halt, the
beat count, the counter of free values, and the life cycle, which moves as Table 16-7 permits (R537). A lemma `f_fwd` carries the
relation over one operation `f`. -/

namespace Sys2Proof.Machine

/-- What holds of every operation, a reset included. -/
structure Onward (s t : State) : Prop where
  pending : t.pending = s.pending
  order : t.pkg.order = s.pkg.order
  serial : t.pkg.serial = s.pkg.serial
  life : s.lifeOk → t.lifeOk ∧ LifeReaches s.pkg.life t.pkg.life ∧ s.pkg.lcGen.toNat ≤ t.pkg.lcGen.toNat
  draws : s.draws ≤ t.draws

/-- What holds of every operation but a reset of the module and its release. -/
structure Fwd (s t : State) : Prop where
  kept : Onward s t
  inReset : t.pkg.inReset = s.pkg.inReset
  released : t.pkg.released = s.pkg.released
  resetBeat : t.pkg.resetBeat = s.pkg.resetBeat
  halted : s.pkg.halted = true → t.pkg.halted = true
  beat : s.pkg.beat ≤ t.pkg.beat

theorem LifeReaches.trans {a b c : LifeCycle} (h : LifeReaches a b) (k : LifeReaches b c) : LifeReaches a c := by
  induction k with
  | refl => exact h
  | tail _ h2 ih => exact .tail ih h2

theorem Onward.refl (s : State) : Onward s s := ⟨rfl, rfl, rfl, fun h => ⟨h, .refl _, Nat.le_refl _⟩, Nat.le_refl _⟩

theorem Onward.trans {s t u : State} (h : Onward s t) (k : Onward t u) : Onward s u :=
  ⟨k.1.trans h.1, k.2.trans h.2, k.3.trans h.3,
   fun o => ⟨(k.4 (h.4 o).1).1, (h.4 o).2.1.trans (k.4 (h.4 o).1).2.1, Nat.le_trans (h.4 o).2.2 (k.4 (h.4 o).1).2.2⟩,
   Nat.le_trans h.5 k.5⟩

theorem Onward.upd {r t : State} {p : Package} {x y : Lane} {n : Nat} (h : Onward r t) (h1 : p.order = t.pkg.order)
    (h2 : p.serial = t.pkg.serial) (h3 : p.life = t.pkg.life) (h4 : p.lcGen = t.pkg.lcGen) (h5 : p.transition = t.pkg.transition)
    (h6 : t.draws ≤ n) : Onward r { pkg := p, a := x, b := y, draws := n, pending := t.pending } :=
  h.trans ⟨rfl, h1, h2, fun o => by simpa [State.lifeOk, h3, h4, h5] using ⟨o, LifeReaches.refl _⟩, h6⟩

theorem Fwd.refl (s : State) : Fwd s s := ⟨.refl s, rfl, rfl, rfl, id, Nat.le_refl _⟩

theorem Fwd.trans {s t u : State} (h : Fwd s t) (k : Fwd t u) : Fwd s u :=
  ⟨h.1.trans k.1, k.2.trans h.2, k.3.trans h.3, k.4.trans h.4, fun x => k.5 (h.5 x), Nat.le_trans h.6 k.6⟩

/-- A change of anything else. -/
theorem Fwd.upd {r t : State} {p : Package} {x y : Lane} {n : Nat} (h : Fwd r t) (h1 : p.order = t.pkg.order)
    (h2 : p.serial = t.pkg.serial) (h3 : p.life = t.pkg.life) (h4 : p.lcGen = t.pkg.lcGen) (h5 : p.transition = t.pkg.transition)
    (h6 : p.inReset = t.pkg.inReset) (h7 : p.released = t.pkg.released) (h8 : p.resetBeat = t.pkg.resetBeat)
    (h9 : t.pkg.halted = true → p.halted = true) (h10 : t.pkg.beat ≤ p.beat) (h11 : t.draws ≤ n) :
    Fwd r { pkg := p, a := x, b := y, draws := n, pending := t.pending } :=
  h.trans ⟨(Onward.refl t).upd h1 h2 h3 h4 h5 h11, h6, h7, h8, h9, h10⟩

theorem Fwd.updLanes {r t : State} {x y : Lane} (h : Fwd r t) : Fwd r { t with a := x, b := y } :=
  h.upd rfl rfl rfl rfl rfl rfl rfl rfl id (Nat.le_refl _) (Nat.le_refl _)

theorem State.setLane_fwd {r : State} (s : State) (l : LaneId) (x : Lane) (h : Fwd r s) : Fwd r (s.setLane l x) := by
  cases l <;> exact h.updLanes
theorem State.onLane_fwd {r : State} (s : State) (l : LaneId) (f : Lane → Lane) (h : Fwd r s) : Fwd r (s.onLane l f) :=
  State.setLane_fwd s l _ h
theorem State.onPkg_fwd {r : State} (s : State) (f : Package → Package) (h : Fwd r s) (h1 : (f s.pkg).order = s.pkg.order)
    (h2 : (f s.pkg).serial = s.pkg.serial) (h3 : (f s.pkg).life = s.pkg.life) (h4 : (f s.pkg).lcGen = s.pkg.lcGen)
    (h5 : (f s.pkg).transition = s.pkg.transition) (h6 : (f s.pkg).inReset = s.pkg.inReset)
    (h7 : (f s.pkg).released = s.pkg.released) (h8 : (f s.pkg).resetBeat = s.pkg.resetBeat)
    (h9 : s.pkg.halted = true → (f s.pkg).halted = true) (h10 : s.pkg.beat ≤ (f s.pkg).beat) : Fwd r (s.onPkg f) :=
  h.upd h1 h2 h3 h4 h5 h6 h7 h8 h9 h10 (Nat.le_refl _)
theorem State.onDom_fwd {r : State} (s : State) (f : Domain → Domain) (h : Fwd r s) : Fwd r (s.onDom f) :=
  h.upd rfl rfl rfl rfl rfl rfl rfl rfl id (Nat.le_refl _) (Nat.le_refl _)
theorem State.onFe_fwd {r : State} (s : State) (n : Nat) (f : FrontEnd → FrontEnd) (h : Fwd r s) : Fwd r (s.onFe n f) :=
  h.upd rfl rfl rfl rfl rfl rfl rfl rfl id (Nat.le_refl _) (Nat.le_refl _)
theorem State.at_fwd {r : State} (s : State) (n : Nat) (h : Fwd r s) : Fwd r (s.at_ n) :=
  h.upd rfl rfl rfl rfl rfl rfl rfl rfl id (Nat.le_max_left _ _) (Nat.le_refl _)
theorem Fwd.foldl {r : State} {α : Type} (l : List α) (f : State → α → State) (hf : ∀ s a, Fwd r s → Fwd r (f s a)) (s : State)
    (h : Fwd r s) : Fwd r (l.foldl f s) := by
  induction l generalizing s with
  | nil => exact h
  | cons a l ih => exact ih _ (hf _ _ h)
theorem Onward.foldl {r : State} {α : Type} (l : List α) (f : State → α → State) (hf : ∀ s a, Onward r s → Onward r (f s a)) (s
    : State)
    (h : Onward r s) : Onward r (l.foldl f s) := by
  induction l generalizing s with
  | nil => exact h
  | cons a l ih => exact ih _ (hf _ _ h)
theorem State.eachLane_fwd {r : State} (s : State) (p : Lane → Bool) (f : LaneId → State → State) (h : Fwd r s)
    (hf : ∀ l t, Fwd r t → Fwd r (f l t)) : Fwd r (s.eachLane p f) := by
  unfold State.eachLane
  dsimp only
  split <;> split
  · exact hf _ _ (hf _ _ h)
  · exact hf _ _ h
  · exact hf _ _ h
  · exact h
theorem State.alone_fwd {r : State} (s : State) (l : LaneId) (q : Lane × Answer) (h : Fwd r s) : Fwd r (s.alone l q).1 :=
  State.setLane_fwd s l _ h
theorem State.guarded_fwd {r : State} (s : State) (h : Hdr) (c : Option Status) (f : State → State × Answer) (hs : Fwd r s)
    (hf : c = none → Fwd r (f s).1) : Fwd r (s.guarded h c f).1 := by
  unfold State.guarded withReserved
  cases c with
  | none => by_cases hh : h.reservedOk = true <;> simp [hh, hs, hf rfl]
  | some st => simp; split <;> first | exact hs | (rename_i hx; by_cases hh : h.reservedOk = true <;> simp [hh] at hx; split at hx <;> cases hx)


/-! ### Ops.lean -/

theorem State.send_fwd {r0 : State} (s : State) (l : LaneId) (m : Msg) (hfwd : Fwd r0 s) : Fwd r0 (State.send s l m) := by
  unfold State.send
  repeat' (first | with_reducible exact hfwd | with_reducible apply State.onLane_fwd)

theorem State.draw_fwd {r0 : State} (s : State) (hfwd : Fwd r0 s) : Fwd r0 (State.draw s).2 := by
  unfold State.draw
  iterate 30 (try any_goals first | with_reducible exact hfwd | exact rfl | exact id | exact Nat.le_refl _ | exact Nat.le_succ _ | (intro _) | split | with_reducible apply Fwd.upd)


/-! ### Flags.lean -/

theorem State.flag_fwd {r0 : State} (s : State) (l : LaneId) (b : Nat) (lasting : Bool) (hfwd : Fwd r0 s) : Fwd r0 (State.flag s
    l b lasting) := by
  unfold State.flag
  repeat' (first | with_reducible exact hfwd | with_reducible apply State.onLane_fwd)

theorem State.flagBoth_fwd {r0 : State} (s : State) (b : Nat) (lasting : Bool) (hfwd : Fwd r0 s) : Fwd r0 (State.flagBoth s b
    lasting) := by
  unfold State.flagBoth
  repeat' (first | with_reducible exact hfwd | with_reducible apply State.flag_fwd)

theorem State.endCauseBoth_fwd {r0 : State} (s : State) (b : Nat) (hfwd : Fwd r0 s) : Fwd r0 (State.endCauseBoth s b) := by
  unfold State.endCauseBoth
  iterate 30 (try any_goals first | with_reducible exact hfwd | exact rfl | exact id | exact Nat.le_refl _ | exact Nat.le_succ _ | (intro _) | split | with_reducible apply Fwd.upd)


/-! ### Calendar.lean -/

theorem State.postWrite_fwd {r0 : State} (s : State) (p : Post) (wait : Bool) (hfwd : Fwd r0 s) : Fwd r0 (State.postWrite s p
    wait) := by
  unfold State.postWrite
  repeat' (first | with_reducible exact hfwd | with_reducible apply State.onLane_fwd | with_reducible apply State.onDom_fwd | intro _ | split)


/-! ### Lanes.lean -/

theorem State.haltG_fwd {r0 : State} (s : State) (hfwd : Fwd r0 s) : Fwd r0 (State.haltG s) := by
  unfold State.haltG
  iterate 30 (try any_goals first | with_reducible exact hfwd | exact rfl | exact id | exact Nat.le_refl _ | exact Nat.le_succ _ | (intro _) | split | with_reducible apply Fwd.upd)

theorem State.cutFrames_fwd {r0 : State} (s : State) (l : LaneId) (hfwd : Fwd r0 s) : Fwd r0 (State.cutFrames s l) := by
  unfold State.cutFrames
  iterate 30 (try any_goals first | with_reducible exact hfwd | with_reducible apply State.onPkg_fwd | exact rfl | exact id | exact Nat.le_refl _)

theorem State.rejoinFail_fwd {r0 : State} (s : State) (l : LaneId) (hfwd : Fwd r0 s) : Fwd r0 (State.rejoinFail s l) := by
  unfold State.rejoinFail
  iterate 30 (try any_goals first | with_reducible exact hfwd | with_reducible apply State.onLane_fwd | with_reducible apply State.flag_fwd | exact rfl | exact id | exact Nat.le_refl _ | exact Nat.le_succ _ | (intro _) | split | with_reducible apply Fwd.upd)

theorem State.leaveService_fwd {r0 : State} (s : State) (l : LaneId) (b : Nat) (hfwd : Fwd r0 s) : Fwd r0 (State.leaveService s
    l b) := by
  unfold State.leaveService
  iterate 30 (try any_goals first | with_reducible exact hfwd | with_reducible apply State.onLane_fwd | with_reducible apply State.send_fwd | with_reducible apply State.haltG_fwd | with_reducible apply State.cutFrames_fwd | with_reducible apply State.rejoinFail_fwd | exact rfl | exact id | exact Nat.le_refl _ | exact Nat.le_succ _ | (intro _) | split | with_reducible apply Fwd.upd)

theorem State.raise_fwd {r0 : State} (s : State) (l : LaneId) (b : Nat) (lasting : Bool) (hfwd : Fwd r0 s) : Fwd r0 (State.raise
    s l b lasting) := by
  unfold State.raise
  repeat' (first | with_reducible exact hfwd | with_reducible apply State.flag_fwd | with_reducible apply State.haltG_fwd | with_reducible apply State.leaveService_fwd | intro _ | split)

theorem State.raiseBoth_fwd {r0 : State} (s : State) (b : Nat) (lasting : Bool) (hfwd : Fwd r0 s) : Fwd r0 (State.raiseBoth s b
    lasting) := by
  unfold State.raiseBoth
  repeat' (first | with_reducible exact hfwd | with_reducible apply State.raise_fwd)


/-! ### Replies.lean -/

theorem State.sendPacket_fwd {r0 : State} (s : State) (l : LaneId) (via : Via) (dst : Source) (packet : List Byte) (hfwd : Fwd
    r0 s) : Fwd r0 (State.sendPacket s l via dst packet) := by
  unfold State.sendPacket
  iterate 30 (try any_goals first | with_reducible exact hfwd | with_reducible apply State.onLane_fwd | with_reducible apply State.onPkg_fwd | exact rfl | exact id | exact Nat.le_refl _ | exact Nat.le_succ _ | (intro _) | split)

theorem State.sendReply_fwd {r0 : State} (s : State) (l : LaneId) (h : Hdr) (packet : List Byte) (hfwd : Fwd r0 s) : Fwd r0
    (State.sendReply s l h packet) := by
  unfold State.sendReply
  repeat' (first | with_reducible exact hfwd | with_reducible apply State.sendPacket_fwd)

theorem State.replyWith_fwd {r0 : State} (s : State) (l : LaneId) (key : Option (List Byte)) (h : Hdr) (opcode : Nat) (st :
    Status) (params : List Byte) (epoch : Word) (hfwd : Fwd r0 s) : Fwd r0 (State.replyWith s l key h opcode st params epoch) := by
  unfold State.replyWith
  repeat' (first | with_reducible exact hfwd | with_reducible apply State.onLane_fwd | with_reducible apply State.sendReply_fwd | intro _ | split)

theorem State.reply_fwd {r0 : State} (s : State) (l : LaneId) (h : Hdr) (opcode : Nat) (st : Status) (params : List Byte) (epoch
    : Word) (hfwd : Fwd r0 s) : Fwd r0 (State.reply s l h opcode st params epoch) := by
  unfold State.reply
  repeat' (first | with_reducible exact hfwd | with_reducible apply State.replyWith_fwd)

theorem State.replyUnprotected_fwd {r0 : State} (s : State) (l : LaneId) (h : Hdr) (opcode : Nat) (st : Status) (params : List
    Byte) (epoch : Word) (hfwd : Fwd r0 s) : Fwd r0 (State.replyUnprotected s l h opcode st params epoch) := by
  unfold State.replyUnprotected
  repeat' (first | with_reducible exact hfwd | with_reducible apply State.sendReply_fwd)

theorem State.finish_fwd {r0 : State} (s : State) (l : LaneId) (o : Outstanding) (st : Status) (params : List Byte) (hfwd : Fwd
    r0 s) : Fwd r0 (State.finish s l o st params) := by
  unfold State.finish
  repeat' (first | with_reducible exact hfwd | with_reducible apply State.setLane_fwd | with_reducible apply State.reply_fwd)

theorem State.finishAll_fwd {r0 : State} (s : State) (l : LaneId) (why : Waiting) (st : Status) (params : List Byte) (hfwd : Fwd
    r0 s) : Fwd r0 (State.finishAll s l why st params) := by
  unfold State.finishAll
  repeat' (first | with_reducible exact hfwd | with_reducible apply State.finish_fwd | with_reducible (refine Fwd.foldl _ _ (fun _ _ hfwd => ?_) _ ?_))


/-! ### Net.lean -/

theorem State.txStart_fwd {r0 : State} (s : State) (l : LaneId) (n now : Nat) (hfwd : Fwd r0 s) : Fwd r0 (State.txStart s l n
    now) := by
  unfold State.txStart
  iterate 30 (try any_goals first | with_reducible exact hfwd | with_reducible apply State.onLane_fwd | with_reducible apply State.onPkg_fwd | exact rfl | exact id | exact Nat.le_refl _ | exact Nat.le_succ _ | (intro _) | split | with_reducible apply Fwd.upd)

theorem State.txUnderrun_fwd {r0 : State} (s : State) (l : LaneId) (n now : Nat) (hfwd : Fwd r0 s) : Fwd r0 (State.txUnderrun s
    l n now) := by
  unfold State.txUnderrun
  iterate 30 (try any_goals first | with_reducible exact hfwd | with_reducible apply State.onLane_fwd | with_reducible apply State.onPkg_fwd | with_reducible apply State.flag_fwd | exact rfl | exact id | exact Nat.le_refl _ | exact Nat.le_succ _ | (intro _) | split | with_reducible apply Fwd.upd)

theorem State.speedDecision_fwd {r0 : State} (s : State) (l : LaneId) (n : Nat) (up : Bool) (now : Nat) (hfwd : Fwd r0 s) : Fwd
    r0 (State.speedDecision s l n up now) := by
  unfold State.speedDecision
  iterate 30 (try any_goals first | with_reducible exact hfwd | with_reducible apply State.onLane_fwd | exact rfl | exact id | exact Nat.le_refl _ | exact Nat.le_succ _ | (intro _) | split | with_reducible apply Fwd.upd)

theorem State.linkUp_fwd {r0 : State} (s : State) (l : LaneId) (n now : Nat) (hfwd : Fwd r0 s) : Fwd r0 (State.linkUp s l n now)
    := by
  unfold State.linkUp
  repeat' (first | with_reducible exact hfwd | with_reducible apply State.onLane_fwd | intro _ | split)

theorem State.linkLoss_fwd {r0 : State} (s : State) (l : LaneId) (n : Nat) (hfwd : Fwd r0 s) : Fwd r0 (State.linkLoss s l n) := by
  unfold State.linkLoss
  repeat' (first | with_reducible exact hfwd | with_reducible apply State.onLane_fwd | with_reducible apply State.flag_fwd | intro _ | split)

theorem State.renegTimeout_fwd {r0 : State} (s : State) (l : LaneId) (n now : Nat) (hfwd : Fwd r0 s) : Fwd r0
    (State.renegTimeout s l n now) := by
  unfold State.renegTimeout
  repeat' (first | with_reducible exact hfwd | with_reducible apply State.onLane_fwd | with_reducible apply State.flag_fwd | intro _ | split)

theorem State.takeSp_fwd {r0 : State} (s : State) (l : LaneId) (b : List Byte) (hfwd : Fwd r0 s) : Fwd r0 (State.takeSp s l b) := by
  unfold State.takeSp
  iterate 30 (try any_goals first | with_reducible exact hfwd | with_reducible apply State.onLane_fwd | with_reducible apply State.onPkg_fwd | exact rfl | exact id | exact Nat.le_refl _ | exact Nat.le_succ _ | (intro _) | split)

theorem State.drainSpFrom_fwd {r0 : State} (l : LaneId) (bs : List (List Byte)) (s : State) (hfwd : Fwd r0 s) :
    Fwd r0 (State.drainSpFrom l bs s) := by
  induction bs generalizing s with
  | nil => exact hfwd
  | cons b r ih =>
    unfold State.drainSpFrom
    split
    · exact State.onPkg_fwd _ _ (State.onLane_fwd _ _ _ hfwd) rfl rfl rfl rfl rfl rfl rfl rfl id (Nat.le_refl _)
    · exact ih _ (State.takeSp_fwd _ _ _ (State.onPkg_fwd _ _ hfwd rfl rfl rfl rfl rfl rfl rfl rfl id (Nat.le_refl _)))

theorem State.drainSp_fwd {r0 : State} (s : State) (hfwd : Fwd r0 s) : Fwd r0 (State.drainSp s) := by
  unfold State.drainSp
  split
  · exact hfwd
  · exact State.drainSpFrom_fwd _ _ _ hfwd

theorem State.spWrite_fwd {r0 : State} (s : State) (bytes : List Byte) (length : Nat) (complete : Bool) (hfwd : Fwd r0 s) : Fwd
    r0 (State.spWrite s bytes length complete) := by
  unfold State.spWrite
  iterate 30 (try any_goals first | with_reducible exact hfwd | with_reducible apply State.onPkg_fwd | with_reducible apply State.drainSp_fwd | exact rfl | exact id | exact Nat.le_refl _ | exact Nat.le_succ _ | (intro _) | split)

theorem State.spRead_fwd {r0 : State} (s : State) (complete : Bool) (hfwd : Fwd r0 s) : Fwd r0 (State.spRead s complete) := by
  unfold State.spRead
  iterate 30 (try any_goals first | with_reducible exact hfwd | with_reducible apply State.onPkg_fwd | exact rfl | exact id | exact Nat.le_refl _)

theorem State.spStatus_fwd {r0 : State} (s : State) (hfwd : Fwd r0 s) : Fwd r0 (State.spStatus s) := by
  unfold State.spStatus
  iterate 30 (try any_goals first | with_reducible exact hfwd | with_reducible apply State.onPkg_fwd | exact rfl | exact id | exact Nat.le_refl _)

theorem State.eventResend_fwd {r0 : State} (s : State) (l : LaneId) (p now : Nat) (hfwd : Fwd r0 s) : Fwd r0 (State.eventResend
    s l p now) := by
  unfold State.eventResend
  repeat' (first | with_reducible exact hfwd | with_reducible apply State.onLane_fwd | with_reducible apply State.sendPacket_fwd | with_reducible (refine Fwd.foldl _ _ (fun _ _ hfwd => ?_) _ ?_) | intro _ | split)

theorem State.subscriptionEnd_fwd {r0 : State} (s : State) (l : LaneId) (p now : Nat) (hfwd : Fwd r0 s) : Fwd r0
    (State.subscriptionEnd s l p now) := by
  unfold State.subscriptionEnd
  repeat' (first | with_reducible exact hfwd | with_reducible apply State.onLane_fwd | with_reducible apply State.flag_fwd | intro _ | split)


/-! ### Can.lean -/

theorem State.canTake_fwd {r0 : State} (s : State) (l : LaneId) (hfwd : Fwd r0 s) : Fwd r0 (State.canTake s l) := by
  unfold State.canTake
  iterate 30 (try any_goals first | with_reducible exact hfwd | with_reducible apply State.onLane_fwd | exact rfl | exact id | exact Nat.le_refl _ | exact Nat.le_succ _ | (intro _) | split | with_reducible apply Fwd.upd)

theorem State.canComplete_fwd {r0 : State} (s : State) (l : LaneId) (n m : Nat) (hfwd : Fwd r0 s) : Fwd r0 (State.canComplete s
    l n m) := by
  unfold State.canComplete
  iterate 30 (try any_goals first | with_reducible exact hfwd | with_reducible apply State.onLane_fwd | with_reducible apply State.onPkg_fwd | exact rfl | exact id | exact Nat.le_refl _ | exact Nat.le_succ _ | (intro _) | split | with_reducible apply Fwd.upd)

theorem State.enterBusOff_fwd {r0 : State} (s : State) (l : LaneId) (n now : Nat) (hfwd : Fwd r0 s) : Fwd r0 (State.enterBusOff
    s l n now) := by
  unfold State.enterBusOff
  iterate 30 (try any_goals first | with_reducible exact hfwd | with_reducible apply State.onLane_fwd | with_reducible apply State.flag_fwd | with_reducible (refine Fwd.foldl _ _ (fun _ _ hfwd => ?_) _ ?_) | exact rfl | exact id | exact Nat.le_refl _ | exact Nat.le_succ _ | (intro _) | split | with_reducible apply Fwd.upd)

theorem State.busRecovered_fwd {r0 : State} (s : State) (l : LaneId) (n : Nat) (hfwd : Fwd r0 s) : Fwd r0 (State.busRecovered s
    l n) := by
  unfold State.busRecovered
  iterate 30 (try any_goals first | with_reducible exact hfwd | with_reducible apply State.onLane_fwd | with_reducible apply State.flag_fwd | exact rfl | exact id | exact Nat.le_refl _ | exact Nat.le_succ _ | (intro _) | split | with_reducible apply Fwd.upd)

theorem State.busError_fwd {r0 : State} (s : State) (l : LaneId) (n tec rec now : Nat) (hfwd : Fwd r0 s) : Fwd r0
    (State.busError s l n tec rec now) := by
  unfold State.busError
  iterate 30 (try any_goals first | with_reducible exact hfwd | with_reducible apply State.onLane_fwd | with_reducible apply State.flag_fwd | with_reducible apply State.enterBusOff_fwd | exact rfl | exact id | exact Nat.le_refl _ | exact Nat.le_succ _ | (intro _) | split | with_reducible apply Fwd.upd)


/-! ### Keys.lean -/

theorem State.runKeyLoad_fwd {r0 : State} (s : State) (l : LaneId) (slot : Nat) (blob : List Byte) (b : BlobInfo) (hfwd : Fwd r0
    s) : Fwd r0 (State.runKeyLoad s l slot blob b).1 := by
  unfold State.runKeyLoad
  repeat' (first | with_reducible exact hfwd | with_reducible apply State.onLane_fwd)

theorem State.stillTripped_fwd {r0 : State} (s : State) (hfwd : Fwd r0 s) : Fwd r0 s.stillTripped.2 := by
  unfold State.stillTripped
  split
  · exact hfwd
  · dsimp only
    split
    · exact State.draw_fwd _ hfwd
    · exact State.onDom_fwd s.draw.2 (fun d => { d with tripped := [] }) (State.draw_fwd _ hfwd)

theorem State.escrowCheck_fwd {r0 : State} (s : State) (h : Hdr) (blob : List Byte) (hfwd : Fwd r0 s) : Fwd r0
    (State.escrowCheck s h blob).2 := by
  unfold State.escrowCheck
  repeat' (first | with_reducible exact hfwd | with_reducible apply State.stillTripped_fwd | intro _ | split)

theorem State.runEscrow_fwd {r0 : State} (s : State) (l : LaneId) (h : Hdr) (e : Word) (blob : List Byte) (hfwd : Fwd r0 s) :
    Fwd r0 (s.runEscrow l h e blob).1 := by
  unfold State.runEscrow
  dsimp only
  cases hd : s.decidedKey l h e with
  | some d =>
    cases hs : d.map keyStatus with
    | none => simpa [hs] using State.onLane_fwd _ _ _ hfwd
    | some st => by_cases ha : st = .authFail <;> simp [hs, ha, hfwd, State.onLane_fwd]
  | none =>
    have h1 := State.escrowCheck_fwd s h blob hfwd
    have h2 : Fwd r0 ((s.escrowCheck h blob).2.onPkg (fun p => { p with keyExec := some (l, h, e, (s.escrowCheck h blob).1.map Status.code) })) :=
      State.onPkg_fwd _ _ h1 rfl rfl rfl rfl rfl rfl rfl rfl id (Nat.le_refl _)
    cases hs : (s.escrowCheck h blob).1 with
    | none =>
      simp only [hs] at h2
      simpa [hs] using State.onLane_fwd _ _ _ (State.onDom_fwd _ _ (State.draw_fwd _ h2))
    | some st =>
      simp only [hs] at h2
      by_cases ha : st = .authFail
      · simpa [hs, ha] using State.onLane_fwd _ l (fun x => x.onKey (fun k => { k with authFails := k.authFails + 1 })) (ha ▸ h2)
      · simpa [hs, ha] using h2

theorem State.runGenerate_fwd {r0 : State} (s : State) (l : LaneId) (h : Hdr) (e : Word) (hfwd : Fwd r0 s) : Fwd r0
    (State.runGenerate s l h e).1 := by
  unfold State.runGenerate
  iterate 30 (try any_goals first | with_reducible exact hfwd | with_reducible apply State.onLane_fwd | with_reducible apply State.onPkg_fwd | with_reducible apply State.onDom_fwd | with_reducible apply State.draw_fwd | with_reducible apply State.stillTripped_fwd | exact rfl | exact id | exact Nat.le_refl _ | exact Nat.le_succ _ | (intro _) | split | with_reducible apply Fwd.upd)

theorem State.runMeasurement_fwd {r0 : State} (s : State) (l : LaneId) (nonce : List Byte) (hfwd : Fwd r0 s) : Fwd r0
    (State.runMeasurement s l nonce).1 := by
  unfold State.runMeasurement
  repeat' (first | with_reducible exact hfwd | with_reducible apply State.onLane_fwd)

theorem State.driveTamper_fwd {r0 : State} (s : State) (bits : Word) (hfwd : Fwd r0 s) : Fwd r0 (State.driveTamper s bits) := by
  unfold State.driveTamper
  iterate 30 (try any_goals first | with_reducible exact hfwd | with_reducible apply State.onDom_fwd | exact rfl | exact id | exact Nat.le_refl _ | exact Nat.le_succ _ | (intro _) | split | with_reducible apply Fwd.upd)

theorem State.tamper_fwd {r0 : State} (s : State) (t : TamperSource) (hfwd : Fwd r0 s) : Fwd r0 (State.tamper s t) := by
  unfold State.tamper
  repeat' (first | with_reducible exact hfwd | with_reducible apply State.onDom_fwd | with_reducible apply State.flagBoth_fwd | with_reducible apply State.driveTamper_fwd | intro _ | split)

/-- A transition in progress stays open when a command moves the life cycle on. -/
theorem lifeStep_trans {a b c : LifeCycle} (h : lifeStep a b = true) (hb : b ≠ .void) (hr : b ≠ .returned) (hc : lifeStep a c =
    true)
    (hn : c = .void ∨ c = .returned) : lifeStep b c = true := by
  cases a <;> cases b <;> cases c <;> simp_all [lifeStep]

/-- A move of the life cycle to a state that is neither RETURNED nor VOID. -/
theorem Fwd.ofMove {s : State} {p : Package} {c : LifeCycle} (hok : lifeStep s.pkg.life c = true) (hv : c ≠ .void) (hr : c ≠
    .returned)
    (hl : p.life = c) (ht : p.transition = s.pkg.transition) (hg : p.lcGen = s.pkg.lcGen ∨ p.lcGen.toNat = s.pkg.lcGen.toNat + 1 ∧ s.pkg.lcGen.toNat < 15)
    (h2 : p.order = s.pkg.order) (h3 : p.serial = s.pkg.serial) (h6 : p.inReset = s.pkg.inReset) (h7 : p.released = s.pkg.released)
    (h8 : p.resetBeat = s.pkg.resetBeat) (h9 : p.halted = s.pkg.halted) (h10 : p.beat = s.pkg.beat) : Fwd s { s with pkg := p } := by
  refine ⟨⟨rfl, h2, h3, fun o => ⟨⟨fun d b e => ?_, ?_⟩, .tail (.refl _) (by simpa [hl] using hok), ?_⟩, Nat.le_refl _⟩, h6, h7, h8, by simp [h9], by simp [h10]⟩
  · obtain ⟨o1, o2⟩ := o.1 d b (by simpa [ht] using e)
    exact ⟨by simpa [hl] using lifeStep_trans hok hv hr o1 o2, o2⟩
  · have := o.2
    rcases hg with hg | ⟨hg, hg2⟩ <;> simp [hg] <;> omega
  · rcases hg with hg | ⟨hg, hg2⟩ <;> simp [hg]

/-- A transition to RETURNED or VOID begins. -/
theorem Fwd.ofTransition {s : State} {p : Package} {c : LifeCycle} {b : Nat} (hok : lifeStep s.pkg.life c = true) (hv : c =
    .void ∨ c = .returned)
    (hl : p.life = s.pkg.life) (ht : p.transition = some (c, b)) (hg : p.lcGen = s.pkg.lcGen)
    (h2 : p.order = s.pkg.order) (h3 : p.serial = s.pkg.serial) (h6 : p.inReset = s.pkg.inReset) (h7 : p.released = s.pkg.released)
    (h8 : p.resetBeat = s.pkg.resetBeat) (h9 : p.halted = s.pkg.halted) (h10 : p.beat = s.pkg.beat) : Fwd s { s with pkg := p } := by
  refine ⟨⟨rfl, h2, h3, fun o => ⟨⟨fun d b e => ?_, ?_⟩, ?_, ?_⟩, Nat.le_refl _⟩, h6, h7, h8, by simp [h9], by simp [h10]⟩
  · obtain ⟨rfl, -⟩ : c = d ∧ _ := by simpa [ht] using e
    exact ⟨by simpa [hl] using hok, hv⟩
  · simpa [hg] using o.2
  · rw [hl]; exact .refl _
  · simp [hg]

theorem State.runAdvance_fwd {r0 : State} (s : State) (l : LaneId) (h : Hdr) (e : Word) (n : Nat) (k : Word) (c : LifeCycle)
    (hc : lifeOf n = some c) (ha : s.advanceStatus l h e n k = none) (hfwd : Fwd r0 s) : Fwd r0 (s.runAdvance l h e c).1 := by
  unfold State.runAdvance
  dsimp only
  cases hd : s.decidedKey l h e with
  | some d => simp; split <;> first | exact State.onLane_fwd _ _ _ hfwd | exact hfwd
  | none =>
    have hok : s.transitionOk c = true := by
      simp only [State.advanceStatus, hd, State.checkAdvance, hc] at ha
      split at ha
      · cases ha
      · split at ha
        · cases ha
        · rename_i h1; simp at h1; exact h1.1
    have hst : lifeStep s.pkg.life c = true := by
      cases hl : s.pkg.life <;> cases c <;> simp_all [State.transitionOk, lifeStep]
    refine hfwd.trans ?_
    cases c with
    | wafer => cases hl : s.pkg.life <;> simp_all [State.transitionOk]
    | maker => cases hl : s.pkg.life <;> simp_all [State.transitionOk]
    | issued =>
      by_cases hm : s.pkg.life = .maker
      · simp only [hm, reduceIte, Option.isSome_none, Bool.false_eq_true, reduceCtorEq, decide_false, Bool.or_self]
        exact Fwd.ofMove hst (by decide) (by decide) rfl rfl (.inl rfl) rfl rfl rfl rfl rfl rfl rfl
      · have hg : s.pkg.lcGen.toNat < 15 := by
          cases hl : s.pkg.life <;> simp_all [State.transitionOk]
        simp only [hm, reduceIte, Option.isSome_none, Bool.false_eq_true, reduceCtorEq, decide_false, Bool.or_self]
        refine Fwd.ofMove hst (by decide) (by decide) rfl rfl (.inr ⟨?_, hg⟩) rfl rfl rfl rfl rfl rfl rfl
        show (s.pkg.lcGen + 1).toNat = _
        bv_omega
    | sealed => 
      simp only [reduceIte, Option.isSome_none, Bool.false_eq_true, reduceCtorEq, decide_false, Bool.or_self]
      exact Fwd.ofMove hst (by decide) (by decide) rfl rfl (.inl rfl) rfl rfl rfl rfl rfl rfl rfl
    | returned =>
      simp only [reduceIte, Option.isSome_none, Bool.false_eq_true, reduceCtorEq, decide_false, decide_true, Bool.or_false]
      refine State.onLane_fwd _ _ _ (State.driveTamper_fwd _ _ ?_)
      exact Fwd.ofTransition hst (.inr rfl) rfl rfl rfl rfl rfl rfl rfl rfl rfl rfl
    | void =>
      simp only [reduceIte, Option.isSome_none, Bool.false_eq_true, reduceCtorEq, decide_false, decide_true, Bool.or_true]
      refine State.onLane_fwd _ _ _ (State.driveTamper_fwd _ _ ?_)
      exact Fwd.ofTransition hst (.inl rfl) rfl rfl rfl rfl rfl rfl rfl rfl rfl rfl


/-! ### Points.lean -/

theorem State.countDisagree_fwd {r0 : State} (s : State) (hfwd : Fwd r0 s) : Fwd r0 (State.countDisagree s) := by
  unfold State.countDisagree
  iterate 30 (try any_goals first | with_reducible exact hfwd | exact rfl | exact id | exact Nat.le_refl _ | exact Nat.le_succ _ | (intro _) | split | with_reducible apply Fwd.upd)

theorem State.renewCause_fwd {r0 : State} (s : State) (b : Nat) (hfwd : Fwd r0 s) : Fwd r0
    (State.renewCause s b) := by
  unfold State.renewCause
  iterate 40 (try any_goals first | with_reducible exact hfwd | exact hfwd | exact rfl | exact id | exact Nat.le_refl _ | exact Nat.le_succ _ | (intro _) | split | with_reducible apply Fwd.upd)

theorem State.afterCompare_fwd {r0 : State} (s : State) (r : Nat) (hfwd : Fwd r0 s) : Fwd r0
    (State.afterCompare s r) := by
  unfold State.afterCompare
  iterate 40 (try any_goals first | with_reducible exact hfwd | with_reducible apply State.countDisagree_fwd | with_reducible apply State.renewCause_fwd | with_reducible apply State.endCauseBoth_fwd | exact rfl | exact id | exact Nat.le_refl _ | exact Nat.le_succ _ | (intro _) | split | with_reducible apply Fwd.upd)

theorem State.receiveUpdate_fwd {r0 : State} (s : State) (l : LaneId) (u : Update) (now : Nat) (hfwd : Fwd r0 s) : Fwd r0
    (State.receiveUpdate s l u now) := by
  unfold State.receiveUpdate
  iterate 40 (try any_goals first | with_reducible exact hfwd | with_reducible apply State.onFe_fwd | with_reducible apply State.afterCompare_fwd | exact rfl | exact id | exact Nat.le_refl _ | exact Nat.le_succ _ | (intro _) | split | with_reducible apply Fwd.upd)

theorem State.selectLane_fwd {r0 : State} (s : State) (l : LaneId) (hfwd : Fwd r0 s) : Fwd r0 (State.selectLane s l) := by
  unfold State.selectLane
  iterate 30 (try any_goals first | with_reducible exact hfwd | with_reducible apply State.onPkg_fwd | with_reducible (refine Fwd.foldl _ _ (fun _ _ hfwd => ?_) _ ?_) | exact rfl | exact id | exact Nat.le_refl _)

theorem State.regionFrame_fwd {r0 : State} (s : State) (r : Nat) (samples : List UnitSample) (hfwd : Fwd r0 s) : Fwd r0
    (State.regionFrame s r samples) := by
  unfold State.regionFrame
  iterate 30 (try any_goals first | with_reducible exact hfwd | with_reducible apply State.onFe_fwd | with_reducible apply State.flagBoth_fwd | with_reducible apply State.endCauseBoth_fwd | with_reducible (refine Fwd.foldl _ _ (fun _ _ hfwd => ?_) _ ?_) | exact rfl | exact id | exact Nat.le_refl _ | exact Nat.le_succ _ | (intro _) | split | with_reducible apply Fwd.upd)

theorem State.sampleFrame_fwd {r0 : State} (s : State) (l : LaneId) (r : Nat) (linkOk : Bool) (hfwd : Fwd r0 s) : Fwd r0
    (State.sampleFrame s l r linkOk) := by
  unfold State.sampleFrame
  repeat' (first | with_reducible exact hfwd | with_reducible apply State.onLane_fwd | with_reducible apply State.send_fwd | intro _ | split)

theorem State.linkError_fwd {r0 : State} (s : State) (l : LaneId) (hfwd : Fwd r0 s) : Fwd r0 (State.linkError s l) := by
  unfold State.linkError
  iterate 30 (try any_goals first | with_reducible exact hfwd | with_reducible apply State.onLane_fwd | with_reducible apply State.raise_fwd | exact rfl | exact id | exact Nat.le_refl _ | exact Nat.le_succ _ | (intro _) | split | with_reducible apply Fwd.upd)

theorem State.unresolved_fwd {r0 : State} (s : State) (l : LaneId) (hfwd : Fwd r0 s) : Fwd r0 (State.unresolved s l) := by
  unfold State.unresolved
  iterate 30 (try any_goals first | with_reducible exact hfwd | with_reducible apply State.onLane_fwd | with_reducible apply State.raise_fwd | exact rfl | exact id | exact Nat.le_refl _ | exact Nat.le_succ _ | (intro _) | split | with_reducible apply Fwd.upd)

theorem State.frameCheck_fwd {r0 : State} (s : State) (l : LaneId) (r : Nat) (resentOk : Bool) (hfwd : Fwd r0 s) : Fwd r0
    (State.frameCheck s l r resentOk) := by
  unfold State.frameCheck
  iterate 30 (try any_goals first | with_reducible exact hfwd | with_reducible apply State.onLane_fwd | with_reducible apply State.linkError_fwd | with_reducible apply State.unresolved_fwd | exact rfl | exact id | exact Nat.le_refl _ | exact Nat.le_succ _ | (intro _) | split | with_reducible apply Fwd.upd)

theorem State.outputUpdate_fwd {r0 : State} (s : State) (l : LaneId) (r now : Nat) (hfwd : Fwd r0 s) : Fwd r0
    (State.outputUpdate s l r now) := by
  unfold State.outputUpdate
  repeat' (first | with_reducible exact hfwd | with_reducible apply State.onLane_fwd | with_reducible apply State.receiveUpdate_fwd | intro _ | split)

theorem State.regionUpdateTimer_fwd {r0 : State} (s : State) (l : LaneId) (r now : Nat) (hfwd : Fwd r0 s) : Fwd r0
    (State.regionUpdateTimer s l r now) := by
  unfold State.regionUpdateTimer
  repeat' (first | with_reducible exact hfwd | with_reducible apply State.onLane_fwd | intro _ | split)

theorem State.updateTimeout_fwd {r0 : State} (s : State) (l : LaneId) (r now : Nat) (hfwd : Fwd r0 s) : Fwd r0
    (State.updateTimeout s l r now) := by
  unfold State.updateTimeout
  iterate 40 (try any_goals first | with_reducible exact hfwd | with_reducible apply State.onFe_fwd | with_reducible apply State.afterCompare_fwd | exact rfl | exact id | exact Nat.le_refl _ | exact Nat.le_succ _ | (intro _) | split)

theorem State.disagreementWindow_fwd {r0 : State} (s : State) (r now : Nat) (hfwd : Fwd r0 s) : Fwd r0 (State.disagreementWindow
    s r now) := by
  unfold State.disagreementWindow
  repeat' (first | with_reducible exact hfwd | with_reducible apply State.onFe_fwd | with_reducible apply State.raiseBoth_fwd | intro _ | split)

theorem State.testOne_fwd {r0 : State} (s : State) (r ms now : Nat) (t : SlotResult) (hfwd : Fwd r0 s) :
    Fwd r0 (s.testOne r ms now t) := by
  unfold State.testOne
  extract_lets i p ty ok cnt s1 c f out others clean s2 s3 s4
  split
  · exact hfwd
  · have h2 : Fwd r0 s2 := State.onFe_fwd _ _ _ (hfwd.updLanes (x := cnt s.a) (y := cnt s.b))
    have h3 : Fwd r0 s3 := by
      show Fwd r0 (if ok then (if f.overcurrent.contains i then s2 else s2.endCauseBoth (bitUnit p)) else s2.raiseBoth (bitUnit p) true)
      clear_value s2
      split
      · split
        · exact h2
        · exact State.endCauseBoth_fwd _ _ h2
      · exact State.raiseBoth_fwd _ _ _ h2
    have h4 : Fwd r0 s4 := by
      show Fwd r0 (if !ok && others then s3.raiseBoth (bitCluster c) true
        else if 8 ≤ clean then s3.endCauseBoth (bitCluster c) else s3)
      clear_value s3
      split
      · exact State.raiseBoth_fwd _ _ _ h3
      · split
        · exact State.endCauseBoth_fwd _ _ h3
        · exact h3
    clear_value s4
    split
    · split
      · exact State.flagBoth_fwd _ _ _ h4
      · exact State.endCauseBoth_fwd _ _ h4
    · exact h4

theorem State.testSlot_fwd {r0 : State} (s : State) (r ms now : Nat) (results : List SlotResult) (hfwd : Fwd r0 s) : Fwd r0
    (State.testSlot s r ms now results) := by
  unfold State.testSlot
  repeat' (first | with_reducible exact hfwd | with_reducible apply State.testOne_fwd | with_reducible (refine Fwd.foldl _ _ (fun _ _ hfwd => ?_) _ ?_) | intro _ | split)

theorem State.overcurrent_fwd {r0 : State} (s : State) (p now : Nat) (hfwd : Fwd r0 s) : Fwd r0 (State.overcurrent s p now) := by
  unfold State.overcurrent
  repeat' (first | with_reducible exact hfwd | with_reducible apply State.onFe_fwd | with_reducible apply State.raiseBoth_fwd | intro _ | split)

theorem State.readbackFault_fwd {r0 : State} (s : State) (p : Nat) (hfwd : Fwd r0 s) : Fwd r0 (State.readbackFault s p) := by
  unfold State.readbackFault
  repeat' (first | with_reducible exact hfwd | with_reducible apply State.onFe_fwd | with_reducible apply State.raiseBoth_fwd | intro _ | split)

theorem State.fieldFault_fwd {r0 : State} (s : State) (r : Nat) (k : FieldSupply) (hfwd : Fwd r0 s) : Fwd r0 (State.fieldFault s
    r k) := by
  unfold State.fieldFault
  repeat' (first | with_reducible exact hfwd | with_reducible apply State.onFe_fwd | with_reducible apply State.raiseBoth_fwd | intro _ | split)

theorem State.fieldRestored_fwd {r0 : State} (s : State) (r : Nat) (hfwd : Fwd r0 s) : Fwd r0 (State.fieldRestored s r) := by
  unfold State.fieldRestored
  repeat' (first | with_reducible exact hfwd | with_reducible apply State.onFe_fwd | with_reducible apply State.endCauseBoth_fwd | with_reducible (refine Fwd.foldl _ _ (fun _ _ hfwd => ?_) _ ?_) | intro _ | split)

theorem State.frontEndRestart_fwd {r0 : State} (s : State) (r : Nat) (hfwd : Fwd r0 s) : Fwd r0 (State.frontEndRestart s r) := by
  unfold State.frontEndRestart
  repeat' (first | with_reducible exact hfwd | with_reducible apply State.onFe_fwd | with_reducible apply State.endCauseBoth_fwd | intro _ | split)

theorem State.noHeartbeats_fwd {r0 : State} (s : State) (r now : Nat) (hfwd : Fwd r0 s) : Fwd r0 (State.noHeartbeats s r now) := by
  unfold State.noHeartbeats
  iterate 30 (try any_goals first | with_reducible exact hfwd | with_reducible apply State.onFe_fwd | exact rfl | exact id | exact Nat.le_refl _ | exact Nat.le_succ _ | (intro _) | split | with_reducible apply Fwd.upd)


/-! ### Loops.lean -/

theorem State.computeLoop_fwd {r0 : State} (s : State) (l : LaneId) (m : SampleMsg) (prev : Option (List Nat)) (n : Nat) (hfwd :
    Fwd r0 s) : Fwd r0 (State.computeLoop s l m prev n) := by
  unfold State.computeLoop
  repeat' (first | with_reducible exact hfwd | with_reducible apply State.onLane_fwd | with_reducible apply State.raise_fwd | with_reducible (refine Fwd.foldl _ _ (fun _ _ hfwd => ?_) _ ?_) | intro _ | split)

theorem State.computeSample_fwd {r0 : State} (s : State) (l : LaneId) (m : SampleMsg) (hfwd : Fwd r0 s) : Fwd r0
    (State.computeSample s l m) := by
  unfold State.computeSample
  repeat' (first | with_reducible exact hfwd | with_reducible apply State.onLane_fwd | with_reducible apply State.computeLoop_fwd | with_reducible (refine Fwd.foldl _ _ (fun _ _ hfwd => ?_) _ ?_))

theorem State.meetInstant_fwd {r0 : State} (s : State) (l : LaneId) (g sample now : Nat) (hfwd : Fwd r0 s) : Fwd r0
    (State.meetInstant s l g sample now) := by
  unfold State.meetInstant
  iterate 30 (try any_goals first | with_reducible exact hfwd | with_reducible apply State.onLane_fwd | with_reducible apply State.raise_fwd | exact rfl | exact id | exact Nat.le_refl _ | exact Nat.le_succ _ | (intro _) | split | with_reducible apply Fwd.upd)

theorem State.sampleInstant_fwd {r0 : State} (s : State) (g now : Nat) (hfwd : Fwd r0 s) : Fwd r0 (State.sampleInstant s g now)
    := by
  unfold State.sampleInstant
  iterate 30 (try any_goals first | with_reducible exact hfwd | with_reducible apply State.onLane_fwd | with_reducible apply State.send_fwd | with_reducible apply State.computeSample_fwd | with_reducible apply State.meetInstant_fwd | exact rfl | exact id | exact Nat.le_refl _ | exact Nat.le_succ _ | (intro _) | split | with_reducible apply Fwd.upd)

theorem State.sampleMessage_fwd {r0 : State} (s : State) (l : LaneId) (g : Nat) (hfwd : Fwd r0 s) : Fwd r0 (State.sampleMessage
    s l g) := by
  unfold State.sampleMessage
  repeat' (first | with_reducible exact hfwd | with_reducible apply State.onLane_fwd | intro _ | split)

theorem State.sampleComputation_fwd {r0 : State} (s : State) (l : LaneId) (g : Nat) (hfwd : Fwd r0 s) : Fwd r0
    (State.sampleComputation s l g) := by
  unfold State.sampleComputation
  iterate 40 (try any_goals first | with_reducible exact hfwd | with_reducible apply State.computeSample_fwd | exact rfl | exact id | exact Nat.le_refl _ | exact Nat.le_succ _ | (intro _) | split | with_reducible apply Fwd.upd)

theorem State.onTimeJudgement_fwd {r0 : State} (s : State) (g complete now : Nat) (hfwd : Fwd r0 s) : Fwd r0
    (State.onTimeJudgement s g complete now) := by
  unfold State.onTimeJudgement
  iterate 30 (try any_goals first | with_reducible exact hfwd | with_reducible apply State.onLane_fwd | with_reducible apply State.send_fwd | with_reducible apply State.raise_fwd | exact rfl | exact id | exact Nat.le_refl _ | exact Nat.le_succ _ | (intro _) | split | with_reducible apply Fwd.upd)

theorem State.judgementMessage_fwd {r0 : State} (s : State) (l : LaneId) (g : Nat) (hfwd : Fwd r0 s) : Fwd r0
    (State.judgementMessage s l g) := by
  unfold State.judgementMessage
  iterate 40 (try any_goals first | with_reducible exact hfwd | with_reducible apply State.onLane_fwd | exact rfl | exact id | exact Nat.le_refl _ | exact Nat.le_succ _ | (intro _) | split | with_reducible apply Fwd.upd)

theorem State.outputPhase_fwd {r0 : State} (s : State) (l : LaneId) (g now : Nat) (hfwd : Fwd r0 s) : Fwd r0 (State.outputPhase
    s l g now) := by
  unfold State.outputPhase
  iterate 30 (try any_goals first | with_reducible exact hfwd | with_reducible apply State.onLane_fwd | exact rfl | exact id | exact Nat.le_refl _ | exact Nat.le_succ _ | (intro _) | split | with_reducible apply Fwd.upd)

theorem State.lateSample_fwd {r0 : State} (s : State) (l : LaneId) (g now : Nat) (hfwd : Fwd r0 s) : Fwd r0 (State.lateSample s
    l g now) := by
  unfold State.lateSample
  iterate 30 (try any_goals first | with_reducible exact hfwd | with_reducible apply State.onLane_fwd | with_reducible apply State.leaveService_fwd | exact rfl | exact id | exact Nat.le_refl _ | exact Nat.le_succ _ | (intro _) | split | with_reducible apply Fwd.upd)

theorem State.lateSampleWindow_fwd {r0 : State} (s : State) (l : LaneId) (g now : Nat) (hfwd : Fwd r0 s) : Fwd r0
    (State.lateSampleWindow s l g now) := by
  unfold State.lateSampleWindow
  repeat' (first | with_reducible exact hfwd | with_reducible apply State.onLane_fwd | with_reducible apply State.raise_fwd | intro _ | split)


/-! ### Heddle.lean -/

theorem State.endCommit_fwd {r0 : State} (s : State) (l : LaneId) (r : Nat) (st : Status) (params : List Byte) (hfwd : Fwd r0 s)
    : Fwd r0 (State.endCommit s l r st params) := by
  unfold State.endCommit
  repeat' (first | with_reducible exact hfwd | with_reducible apply State.onLane_fwd | with_reducible apply State.finishAll_fwd)

theorem State.endCommits_fwd {r0 : State} (s : State) (r : Nat) (st : Status) (hfwd : Fwd r0 s) : Fwd r0 (State.endCommits s r
    st) := by
  unfold State.endCommits
  iterate 30 (try any_goals first | with_reducible exact hfwd | with_reducible apply State.endCommit_fwd | exact rfl | exact id | exact Nat.le_refl _ | exact Nat.le_succ _ | (intro _) | split | with_reducible apply Fwd.upd)

theorem State.heddleCompare_fwd {r0 : State} (s : State) (l : LaneId) (r : Nat) (hfwd : Fwd r0 s) : Fwd r0
    (State.heddleCompare s l r) := by
  unfold State.heddleCompare
  iterate 40 (try any_goals first | with_reducible exact hfwd | with_reducible apply State.commit_fwd | with_reducible apply State.onLane_fwd | with_reducible apply State.endCommits_fwd | with_reducible apply State.endCommit_fwd | exact rfl | exact id | exact Nat.le_refl _ | exact Nat.le_succ _ | (intro _) | split | with_reducible apply Fwd.upd)

theorem State.heddlePersist_fwd {r0 : State} (s : State) (l : LaneId) (r : Nat) (hfwd : Fwd r0 s) : Fwd r0 (State.heddlePersist
    s l r) := by
  unfold State.heddlePersist
  have h0 := State.heddleCompare_fwd s l r hfwd
  generalize s.heddleCompare l r = t at h0 ⊢
  dsimp only
  iterate 30 (try any_goals first | with_reducible exact h0 | with_reducible apply State.onLane_fwd | with_reducible apply State.onFe_fwd | with_reducible apply State.endCommits_fwd | (intro _) | split)

theorem State.sendVector_fwd {r0 : State} (s : State) (r : Nat) (hfwd : Fwd r0 s) : Fwd r0 (State.sendVector s r) := by
  unfold State.sendVector
  iterate 30 (try any_goals first | with_reducible exact hfwd | with_reducible apply State.onFe_fwd | exact rfl | exact id | exact Nat.le_refl _ | exact Nat.le_succ _ | (intro _) | split | with_reducible apply Fwd.upd)

theorem State.literalsMoved_fwd {r0 : State} (s : State) (r : Nat) (hfwd : Fwd r0 s) : Fwd r0
    (State.literalsMoved s r) := by
  unfold State.literalsMoved
  iterate 40 (try any_goals first | with_reducible exact hfwd | with_reducible apply State.sendVector_fwd | with_reducible apply State.onFe_fwd | exact rfl | exact id | exact Nat.le_refl _ | exact Nat.le_succ _ | (intro _) | split)

theorem State.allLiteralsMoved_fwd {r0 : State} (s : State) (hfwd : Fwd r0 s) : Fwd r0
    (State.allLiteralsMoved s) := by
  unfold State.allLiteralsMoved
  iterate 40 (try any_goals first | with_reducible exact hfwd | with_reducible apply State.literalsMoved_fwd | with_reducible (refine Fwd.foldl _ _ (fun _ _ hfwd => ?_) _ ?_))

theorem State.planeCheck_fwd {r0 : State} (s : State) (r : Nat) (hfwd : Fwd r0 s) : Fwd r0
    (State.planeCheck s r) := by
  unfold State.planeCheck
  iterate 40 (try any_goals first | with_reducible exact hfwd | with_reducible apply State.raiseBoth_fwd | exact rfl | exact id | exact Nat.le_refl _ | exact Nat.le_succ _ | (intro _) | split)

theorem State.switchInhibits_fwd {r0 : State} (s : State) (r : Nat) (hfwd : Fwd r0 s) : Fwd r0
    (State.switchInhibits s r) := by
  unfold State.switchInhibits
  iterate 40 (try any_goals first | with_reducible exact hfwd | exact hfwd | exact rfl | exact id | exact Nat.le_refl _ | exact Nat.le_succ _ | (intro _) | split | with_reducible apply Fwd.upd)

theorem State.heddleSwitch_fwd {r0 : State} (s : State) (r : Nat) (im : HedImage) (hfwd : Fwd r0 s) : Fwd r0 (State.heddleSwitch
    s r im) :=
  State.switchInhibits_fwd _ _ (State.literalsMoved_fwd _ _ (State.endCauseBoth_fwd _ _ (State.onFe_fwd _ _ _ hfwd.updLanes)))

theorem State.heddleVerify_fwd {r0 : State} (s : State) (l : LaneId) (r : Nat) (reported : Word) (hfwd : Fwd r0 s) : Fwd r0
    (State.heddleVerify s l r reported) := by
  unfold State.heddleVerify
  iterate 30 (try any_goals first | with_reducible exact hfwd | with_reducible apply State.onLane_fwd | with_reducible apply State.endCommits_fwd | with_reducible apply State.heddleSwitch_fwd | exact rfl | exact id | exact Nat.le_refl _ | exact Nat.le_succ _ | (intro _) | split | with_reducible apply Fwd.upd)

theorem State.heddleOverlapEnd_fwd {r0 : State} (s : State) (r : Nat) (hfwd : Fwd r0 s) : Fwd r0 (State.heddleOverlapEnd s r) :=
  State.switchInhibits_fwd _ _ (State.onFe_fwd _ _ _ hfwd.updLanes)

theorem State.heddleMark_fwd {r0 : State} (s : State) (l : LaneId) (r now : Nat) (hfwd : Fwd r0 s) : Fwd r0 (State.heddleMark s
    l r now) := by
  unfold State.heddleMark
  repeat' (first | with_reducible exact hfwd | with_reducible apply State.onLane_fwd | with_reducible apply State.endCommit_fwd | intro _ | split)

theorem State.thresholdCrossing_fwd {r0 : State} (s : State) (p codeA codeB : Nat) (hfwd : Fwd r0 s) : Fwd r0
    (State.thresholdCrossing s p codeA codeB) := by
  unfold State.thresholdCrossing
  iterate 40 (try any_goals first | with_reducible exact hfwd | with_reducible apply State.planeCheck_fwd | with_reducible apply State.onFe_fwd | with_reducible apply State.literalsMoved_fwd | exact rfl | exact id | exact Nat.le_refl _ | exact Nat.le_succ _ | (intro _) | split)

theorem State.vectorRefresh_fwd {r0 : State} (s : State) (r : Nat) (hfwd : Fwd r0 s) : Fwd r0
    (State.vectorRefresh s r) := by
  unfold State.vectorRefresh
  iterate 40 (try any_goals first | with_reducible exact hfwd | with_reducible apply State.planeCheck_fwd | with_reducible apply State.sendVector_fwd | exact rfl | exact id | exact Nat.le_refl _ | exact Nat.le_succ _ | (intro _) | split)

theorem State.literalVector_fwd {r0 : State} (s : State) (l : LaneId) (r now : Nat) (hfwd : Fwd r0 s) : Fwd r0
    (State.literalVector s l r now) := by
  unfold State.literalVector
  repeat' (first | with_reducible exact hfwd | with_reducible apply State.onLane_fwd | intro _ | split)

theorem State.vectorTimeout_fwd {r0 : State} (s : State) (l : LaneId) (r now : Nat) (hfwd : Fwd r0 s) : Fwd r0
    (State.vectorTimeout s l r now) := by
  unfold State.vectorTimeout
  repeat' (first | with_reducible exact hfwd | with_reducible apply State.onLane_fwd | intro _ | split)

theorem State.inhibitMessage_fwd {r0 : State} (s : State) (l : LaneId) (r : Nat) (hfwd : Fwd r0 s) : Fwd r0
    (State.inhibitMessage s l r) := by
  unfold State.inhibitMessage
  iterate 40 (try any_goals first | with_reducible exact hfwd | with_reducible apply State.onLane_fwd | with_reducible apply State.onFe_fwd | with_reducible apply State.countDisagree_fwd | with_reducible apply State.renewCause_fwd | exact rfl | exact id | exact Nat.le_refl _ | exact Nat.le_succ _ | (intro _) | split | with_reducible apply Fwd.upd)

theorem State.crcCheck_fwd {r0 : State} (s : State) (r : Nat) (a b : Word) (hfwd : Fwd r0 s) : Fwd r0 (State.crcCheck s r a b) := by
  unfold State.crcCheck
  iterate 30 (try any_goals first | with_reducible exact hfwd | with_reducible apply State.endCauseBoth_fwd | with_reducible apply State.raiseBoth_fwd | exact rfl | exact id | exact Nat.le_refl _ | exact Nat.le_succ _ | (intro _) | split | with_reducible apply Fwd.upd)

theorem State.crossCrcCheck_fwd {r0 : State} (s : State) (l : LaneId) (r : Nat) (crc : Word) (hfwd : Fwd r0 s) : Fwd r0
    (State.crossCrcCheck s l r crc) := by
  unfold State.crossCrcCheck
  repeat' (first | with_reducible exact hfwd | with_reducible apply State.raise_fwd | intro _ | split)

theorem State.walkingVector_fwd {r0 : State} (s : State) (r : Nat) (passed : Bool) (hfwd : Fwd r0 s) : Fwd r0
    (State.walkingVector s r passed) := by
  unfold State.walkingVector
  iterate 40 (try any_goals first | with_reducible exact hfwd | with_reducible apply State.raiseBoth_fwd | with_reducible apply State.planeCheck_fwd | with_reducible apply State.endCauseBoth_fwd | exact rfl | exact id | exact Nat.le_refl _ | exact Nat.le_succ _ | (intro _) | split)


/-! ### Meter.lean -/

theorem State.decimatorBlock_fwd {r0 : State} (s : State) (l : LaneId) (vin iin : List Nat) (hfwd : Fwd r0 s) : Fwd r0
    (State.decimatorBlock s l vin iin) := by
  unfold State.decimatorBlock
  iterate 40 (try any_goals first | with_reducible exact hfwd | with_reducible apply State.setLane_fwd | with_reducible apply State.onLane_fwd | with_reducible apply State.send_fwd | exact rfl | exact id | exact Nat.le_refl _ | exact Nat.le_succ _ | (intro _) | split | with_reducible apply Fwd.upd)

theorem State.blockCheck_fwd {r0 : State} (s : State) (l : LaneId) (hfwd : Fwd r0 s) : Fwd r0 (State.blockCheck s l) := by
  unfold State.blockCheck
  iterate 30 (try any_goals first | with_reducible exact hfwd | with_reducible apply State.onLane_fwd | with_reducible apply State.raise_fwd | exact rfl | exact id | exact Nat.le_refl _ | exact Nat.le_succ _ | (intro _) | split | with_reducible apply Fwd.upd)

theorem State.applyMeter_fwd {r0 : State} (s : State) (l : LaneId) (c : MeterChange) (hfwd : Fwd r0 s) : Fwd r0
    (State.applyMeter s l c) := by
  unfold State.applyMeter
  repeat' (first | with_reducible exact hfwd | with_reducible apply State.onLane_fwd | with_reducible apply State.finish_fwd | with_reducible (refine Fwd.foldl _ _ (fun _ _ hfwd => ?_) _ ?_) | intro _ | split)

theorem State.answerWindows_fwd {r0 : State} (s : State) (l : LaneId) (hfwd : Fwd r0 s) : Fwd r0
    (State.answerWindows s l) := by
  unfold State.answerWindows
  iterate 40 (try any_goals first | with_reducible exact hfwd | with_reducible apply State.finish_fwd | with_reducible (refine Fwd.foldl _ _ (fun _ _ hfwd => ?_) _ ?_) | exact rfl | exact id | exact Nat.le_refl _ | exact Nat.le_succ _ | (intro _) | split)

theorem State.completeWindow_fwd {r0 : State} (s : State) (l : LaneId) (w : Nat) (pick : Word) (hfwd : Fwd r0 s) : Fwd r0
    (State.completeWindow s l w pick) := by
  unfold State.completeWindow
  iterate 40 (try any_goals first | with_reducible exact hfwd | with_reducible apply State.onLane_fwd | with_reducible apply State.applyMeter_fwd | with_reducible apply State.answerWindows_fwd | with_reducible (refine Fwd.foldl _ _ (fun _ _ hfwd => ?_) _ ?_))

theorem State.windowEnd_fwd {r0 : State} (s : State) (now : Nat) (hfwd : Fwd r0 s) : Fwd r0 (State.windowEnd s now) := by
  unfold State.windowEnd
  iterate 30 (try any_goals first | with_reducible exact hfwd | with_reducible apply State.send_fwd | with_reducible apply State.completeWindow_fwd | exact rfl | exact id | exact Nat.le_refl _ | exact Nat.le_succ _ | (intro _) | split | with_reducible apply Fwd.upd)

theorem State.windowMessage_fwd {r0 : State} (s : State) (l : LaneId) (hfwd : Fwd r0 s) : Fwd r0 (State.windowMessage s l) := by
  unfold State.windowMessage
  iterate 30 (try any_goals first | with_reducible exact hfwd | with_reducible apply State.onLane_fwd | with_reducible apply State.completeWindow_fwd | exact rfl | exact id | exact Nat.le_refl _ | exact Nat.le_succ _ | (intro _) | split | with_reducible apply Fwd.upd)


/-! ### Cycles.lean -/

theorem State.takeBack_fwd {r0 : State} (s : State) (l : LaneId) (hfwd : Fwd r0 s) : Fwd r0 (State.takeBack s l) := by
  unfold State.takeBack
  repeat' (first | with_reducible exact hfwd | with_reducible apply State.onLane_fwd | with_reducible apply State.selectLane_fwd)

theorem State.p0Start_fwd {r0 : State} (s : State) (l : LaneId) (cycle : Nat) (hfwd : Fwd r0 s) : Fwd r0 (State.p0Start s l
    cycle) := by
  unfold State.p0Start
  iterate 30 (try any_goals first | with_reducible exact hfwd | with_reducible apply State.onLane_fwd | with_reducible apply State.send_fwd | with_reducible apply State.takeBack_fwd | exact rfl | exact id | exact Nat.le_refl _ | exact Nat.le_succ _ | (intro _) | split | with_reducible apply Fwd.upd)

theorem State.requestPick_fwd {r0 : State} (s : State) (l : LaneId) (who : Requester) (count : Nat) (hfwd : Fwd r0 s) : Fwd r0
    (State.requestPick s l who count) := by
  unfold State.requestPick
  iterate 30 (try any_goals first | with_reducible exact hfwd | with_reducible apply State.onPkg_fwd | exact rfl | exact id | exact Nat.le_refl _)

theorem State.jointStart_fwd {r0 : State} (s : State) (l : LaneId) (p : Nat) (hfwd : Fwd r0 s) : Fwd r0
    (State.jointStart s l p) := by
  unfold State.jointStart
  iterate 40 (try any_goals first | with_reducible exact hfwd | with_reducible apply State.ready_fwd | with_reducible apply State.onLane_fwd | with_reducible apply State.requestPick_fwd | with_reducible apply State.send_fwd | with_reducible apply State.finishAll_fwd | with_reducible apply State.p0Start_fwd | exact rfl | exact id | exact Nat.le_refl _ | exact Nat.le_succ _ | (intro _) | split | with_reducible apply Fwd.upd)

theorem State.ready_fwd {r0 : State} (s : State) (l : LaneId) (p now : Nat) (hfwd : Fwd r0 s) : Fwd r0 (State.ready s l p now) := by
  unfold State.ready
  iterate 30 (try any_goals first | with_reducible exact hfwd | with_reducible apply State.onLane_fwd | with_reducible apply State.send_fwd | with_reducible apply State.jointStart_fwd | exact rfl | exact id | exact Nat.le_refl _ | exact Nat.le_succ _ | (intro _) | split | with_reducible apply Fwd.upd)

theorem State.readyReceived_fwd {r0 : State} (s : State) (l : LaneId) (p : Nat) (hfwd : Fwd r0 s) : Fwd r0 (State.readyReceived
    s l p) := by
  unfold State.readyReceived
  repeat' (first | with_reducible exact hfwd | with_reducible apply State.onLane_fwd | with_reducible apply State.jointStart_fwd | with_reducible apply State.ready_fwd | intro _ | split)

theorem State.readyLate_fwd {r0 : State} (s : State) (l : LaneId) (p now : Nat) (hfwd : Fwd r0 s) : Fwd r0 (State.readyLate s l
    p now) := by
  unfold State.readyLate
  iterate 30 (try any_goals first | with_reducible exact hfwd | with_reducible apply State.onLane_fwd | with_reducible apply State.ready_fwd | exact rfl | exact id | exact Nat.le_refl _ | exact Nat.le_succ _ | (intro _) | split | with_reducible apply Fwd.upd)

theorem State.lateWindow_fwd {r0 : State} (s : State) (l : LaneId) (p now : Nat) (hfwd : Fwd r0 s) : Fwd r0 (State.lateWindow s
    l p now) := by
  unfold State.lateWindow
  repeat' (first | with_reducible exact hfwd | with_reducible apply State.onLane_fwd | with_reducible apply State.raise_fwd | intro _ | split)

theorem State.cycleRunStart_fwd {r0 : State} (s : State) (l : LaneId) (p now : Nat) (hfwd : Fwd r0 s) : Fwd r0
    (State.cycleRunStart s l p now) := by
  unfold State.cycleRunStart
  iterate 30 (try any_goals first | with_reducible exact hfwd | with_reducible apply State.onLane_fwd | with_reducible (refine Fwd.foldl _ _ (fun _ _ hfwd => ?_) _ ?_) | exact rfl | exact id | exact Nat.le_refl _ | exact Nat.le_succ _ | (intro _) | split | with_reducible apply Fwd.upd)

theorem State.postAlarms_fwd {r0 : State} (s : State) (l : LaneId) (words : List (Nat × Word)) (hfwd : Fwd r0 s) : Fwd r0
    (State.postAlarms s l words) := by
  unfold State.postAlarms
  repeat' (first | with_reducible exact hfwd | with_reducible apply State.postWrite_fwd | with_reducible (refine Fwd.foldl _ _ (fun _ _ hfwd => ?_) _ ?_) | intro _ | split)

theorem State.completeExchange_fwd {r0 : State} (s : State) (l : LaneId) (p : Nat) (e : Exchange) (hfwd : Fwd r0 s) : Fwd r0
    (State.completeExchange s l p e) := by
  unfold State.completeExchange
  repeat' (first | with_reducible exact hfwd | with_reducible apply State.onLane_fwd | with_reducible apply State.finishAll_fwd | intro _ | split)

theorem State.commit_fwd {r0 : State} (s : State) (l : LaneId) (p now : Nat) (hfwd : Fwd r0 s) : Fwd r0
    (State.commit s l p now) := by
  unfold State.commit
  iterate 40 (try any_goals first | with_reducible exact hfwd | with_reducible apply State.watchdog_fwd | with_reducible apply State.onLane_fwd | with_reducible apply State.postAlarms_fwd | with_reducible apply State.send_fwd | with_reducible apply State.completeExchange_fwd | with_reducible (refine Fwd.foldl _ _ (fun _ _ hfwd => ?_) _ ?_) | exact rfl | exact id | exact Nat.le_refl _ | exact Nat.le_succ _ | (intro _) | split | with_reducible apply Fwd.upd)

theorem State.coreReturn_fwd {r0 : State} (s : State) (l : LaneId) (c now : Nat) (hfwd : Fwd r0 s) : Fwd r0 (State.coreReturn s
    l c now) := by
  unfold State.coreReturn
  iterate 30 (try any_goals first | with_reducible exact hfwd | with_reducible apply State.onLane_fwd | with_reducible apply State.commit_fwd | exact rfl | exact id | exact Nat.le_refl _ | exact Nat.le_succ _ | (intro _) | split | with_reducible apply Fwd.upd)

theorem State.abortExchangeIn_fwd {r0 : State} (s : State) (l : LaneId) (p : Nat) (st : Status) (hfwd : Fwd r0 s) : Fwd r0
    (State.abortExchangeIn s l p st) := by
  unfold State.abortExchangeIn
  repeat' (first | with_reducible exact hfwd | with_reducible apply State.onLane_fwd | with_reducible apply State.finishAll_fwd | intro _ | split)

theorem State.abortExchange_fwd {r0 : State} (s : State) (p : Nat) (st : Status) (hfwd : Fwd r0 s) : Fwd r0 (State.abortExchange
    s p st) := by
  unfold State.abortExchange
  repeat' (first | with_reducible exact hfwd | with_reducible apply State.abortExchangeIn_fwd)

theorem State.enterSafe_fwd {r0 : State} (s : State) (l : LaneId) (p : Nat) (hfwd : Fwd r0 s) : Fwd r0 (State.enterSafe s l p) := by
  unfold State.enterSafe
  repeat' (first | with_reducible exact hfwd | with_reducible apply State.onLane_fwd | with_reducible apply State.abortExchangeIn_fwd)

theorem State.programFault_fwd {r0 : State} (s : State) (l : LaneId) (p c : Nat) (pc word : Word) (hfwd : Fwd r0 s) : Fwd r0
    (State.programFault s l p c pc word) := by
  unfold State.programFault
  repeat' (first | with_reducible exact hfwd | with_reducible apply State.onLane_fwd | with_reducible apply State.raise_fwd | with_reducible apply State.enterSafe_fwd)

theorem State.overrunIn_fwd {r0 : State} (s : State) (l : LaneId) (p : Nat) (hfwd : Fwd r0 s) : Fwd r0 (State.overrunIn s l p) := by
  unfold State.overrunIn
  repeat' (first | with_reducible exact hfwd | with_reducible apply State.onLane_fwd | with_reducible apply State.raise_fwd | with_reducible apply State.enterSafe_fwd)

theorem State.watchdog_fwd {r0 : State} (s : State) (p now : Nat) (hfwd : Fwd r0 s) : Fwd r0 (State.watchdog s p now) := by
  unfold State.watchdog
  iterate 30 (try any_goals first | with_reducible exact hfwd | with_reducible apply State.send_fwd | with_reducible apply State.overrunIn_fwd | exact rfl | exact id | exact Nat.le_refl _ | exact Nat.le_succ _ | (intro _) | split | with_reducible apply Fwd.upd)

theorem State.overrunNotice_fwd {r0 : State} (s : State) (l : LaneId) (p : Nat) (hfwd : Fwd r0 s) : Fwd r0 (State.overrunNotice
    s l p) := by
  unfold State.overrunNotice
  repeat' (first | with_reducible exact hfwd | with_reducible apply State.onLane_fwd | with_reducible apply State.overrunIn_fwd | intro _ | split)

theorem State.digestDiffers_fwd {r0 : State} (s : State) (l : LaneId) (hfwd : Fwd r0 s) : Fwd r0 (State.digestDiffers s l) := by
  unfold State.digestDiffers
  repeat' (first | with_reducible exact hfwd | with_reducible apply State.onLane_fwd)

theorem State.compareDigest_fwd {r0 : State} (s : State) (l : LaneId) (p : Nat) (hfwd : Fwd r0 s) : Fwd r0 (State.compareDigest
    s l p) := by
  unfold State.compareDigest
  iterate 30 (try any_goals first | with_reducible exact hfwd | with_reducible apply State.onLane_fwd | with_reducible apply State.ready_fwd | with_reducible apply State.digestDiffers_fwd | exact rfl | exact id | exact Nat.le_refl _ | exact Nat.le_succ _ | (intro _) | split | with_reducible apply Fwd.upd)

theorem State.digestWindow_fwd {r0 : State} (s : State) (l : LaneId) (now : Nat) (hfwd : Fwd r0 s) : Fwd r0 (State.digestWindow
    s l now) := by
  unfold State.digestWindow
  iterate 30 (try any_goals first | with_reducible exact hfwd | with_reducible apply State.raise_fwd | exact rfl | exact id | exact Nat.le_refl _ | exact Nat.le_succ _ | (intro _) | split | with_reducible apply Fwd.upd)

theorem State.agreePlan_fwd {r0 : State} (s : State) (l : LaneId) (p : Nat) (hfwd : Fwd r0 s) : Fwd r0 (State.agreePlan s l p) := by
  unfold State.agreePlan
  iterate 30 (try any_goals first | with_reducible exact hfwd | with_reducible apply State.onLane_fwd | with_reducible apply State.send_fwd | with_reducible apply State.flag_fwd | with_reducible apply State.abortExchange_fwd | exact rfl | exact id | exact Nat.le_refl _ | exact Nat.le_succ _ | (intro _) | split | with_reducible apply Fwd.upd)

theorem State.exchangeStaged_fwd {r0 : State} (s : State) (l : LaneId) (p : Nat) (digestOk : Bool) (hfwd : Fwd r0 s) : Fwd r0
    (State.exchangeStaged s l p digestOk) := by
  unfold State.exchangeStaged
  iterate 30 (try any_goals first | with_reducible exact hfwd | with_reducible apply State.onLane_fwd | with_reducible apply State.send_fwd | with_reducible apply State.flag_fwd | with_reducible apply State.abortExchange_fwd | with_reducible apply State.agreePlan_fwd | exact rfl | exact id | exact Nat.le_refl _ | exact Nat.le_succ _ | (intro _) | split | with_reducible apply Fwd.upd)

theorem State.planReceived_fwd {r0 : State} (s : State) (l : LaneId) (p : Nat) (hfwd : Fwd r0 s) : Fwd r0 (State.planReceived s
    l p) := by
  unfold State.planReceived
  repeat' (first | with_reducible exact hfwd | with_reducible apply State.onLane_fwd | with_reducible apply State.agreePlan_fwd | intro _ | split)

theorem State.installReceived_fwd {r0 : State} (s : State) (l : LaneId) (p : Nat) (hfwd : Fwd r0 s) : Fwd r0
    (State.installReceived s l p) := by
  unfold State.installReceived
  repeat' (first | with_reducible exact hfwd | with_reducible apply State.onLane_fwd | intro _ | split)

theorem State.exchangeTimeout_fwd {r0 : State} (s : State) (l : LaneId) (p now : Nat) (hfwd : Fwd r0 s) : Fwd r0
    (State.exchangeTimeout s l p now) := by
  unfold State.exchangeTimeout
  repeat' (first | with_reducible exact hfwd | with_reducible apply State.abortExchange_fwd | intro _ | split)

theorem State.partitionStarting_fwd {r0 : State} (s : State) (l : LaneId) (p : Nat) (hfwd : Fwd r0 s) : Fwd r0
    (State.partitionStarting s l p) := by
  unfold State.partitionStarting
  iterate 30 (try any_goals first | with_reducible exact hfwd | with_reducible apply State.onLane_fwd | with_reducible apply State.ready_fwd | with_reducible apply State.abortExchangeIn_fwd | exact rfl | exact id | exact Nat.le_refl _ | exact Nat.le_succ _ | (intro _) | split | with_reducible apply Fwd.upd)

theorem State.savePeriodExpiry_fwd {r0 : State} (s : State) (now : Nat) (hfwd : Fwd r0 s) : Fwd r0 (State.savePeriodExpiry s
    now) := by
  unfold State.savePeriodExpiry
  iterate 30 (try any_goals first | with_reducible exact hfwd | exact rfl | exact id | exact Nat.le_refl _ | exact Nat.le_succ _ | (intro _) | split | with_reducible apply Fwd.upd)

theorem State.saveComplete_fwd {r0 : State} (s : State) (l : LaneId) (hfwd : Fwd r0 s) : Fwd r0 (State.saveComplete s l) := by
  unfold State.saveComplete
  repeat' (first | with_reducible exact hfwd | with_reducible apply State.onLane_fwd | with_reducible apply State.finishAll_fwd | with_reducible (refine Fwd.foldl _ _ (fun _ _ hfwd => ?_) _ ?_) | intro _ | split)

theorem State.finishCmd_fwd {r0 : State} (s : State) (l : LaneId) (h : Hdr) (st : Status) (params : List Byte) (hfwd : Fwd r0 s)
    : Fwd r0 (State.finishCmd s l h st params) := by
  unfold State.finishCmd
  repeat' (first | with_reducible exact hfwd | with_reducible apply State.finish_fwd | with_reducible (refine Fwd.foldl _ _ (fun _ _ hfwd => ?_) _ ?_))

theorem State.takeImage_fwd {r0 : State} (s : State) (l : LaneId) (w : NewImage) (hfwd : Fwd r0 s) : Fwd r0
    (State.takeImage s l w) := by
  unfold State.takeImage
  iterate 40 (try any_goals first | with_reducible exact hfwd | with_reducible apply State.onLane_fwd | with_reducible apply State.finishCmd_fwd)

theorem State.settleImages_fwd {r0 : State} (s : State) (hfwd : Fwd r0 s) : Fwd r0
    (State.settleImages s) := by
  unfold State.settleImages
  iterate 40 (try any_goals first | with_reducible exact hfwd | with_reducible apply State.takeImage_fwd | with_reducible (refine Fwd.foldl _ _ (fun _ _ hfwd => ?_) _ ?_))

theorem State.failImage_fwd {r0 : State} (s : State) (h : Hdr) (hfwd : Fwd r0 s) : Fwd r0
    (State.failImage s h) := by
  unfold State.failImage
  iterate 40 (try any_goals first | with_reducible exact hfwd | with_reducible apply State.finishCmd_fwd | exact rfl | exact id | exact Nat.le_refl _ | exact Nat.le_succ _ | (intro _) | split | with_reducible apply Fwd.upd)

theorem State.writeRetry_fwd {r0 : State} (s : State) (l : LaneId) (readBackOk : Bool) (hfwd : Fwd r0 s) : Fwd r0
    (State.writeRetry s l readBackOk) := by
  unfold State.writeRetry
  iterate 40 (try any_goals first | with_reducible exact hfwd | with_reducible apply State.onLane_fwd | with_reducible apply State.flag_fwd | with_reducible apply State.failImage_fwd | exact rfl | exact id | exact Nat.le_refl _ | exact Nat.le_succ _ | (intro _) | split | with_reducible apply Fwd.upd)

theorem State.startWaiting_fwd {r0 : State} (s : State) (l : LaneId) (hfwd : Fwd r0 s) : Fwd r0 (State.startWaiting s l) := by
  unfold State.startWaiting
  iterate 30 (try any_goals first | with_reducible exact hfwd | with_reducible apply State.onLane_fwd | with_reducible apply State.flag_fwd | with_reducible (refine Fwd.foldl _ _ (fun _ _ hfwd => ?_) _ ?_) | exact rfl | exact id | exact Nat.le_refl _ | exact Nat.le_succ _ | (intro _) | split | with_reducible apply Fwd.upd)


/-! ### Clock.lean -/

theorem State.postOutcome_fwd {r0 : State} (s : State) (l : LaneId) (h : Hdr) (st : Status) (hfwd : Fwd r0 s) : Fwd r0
    (State.postOutcome s l h st) := by
  unfold State.postOutcome
  iterate 30 (try any_goals first | with_reducible exact hfwd | with_reducible apply State.onLane_fwd | with_reducible apply State.onPkg_fwd | with_reducible apply State.finish_fwd | with_reducible (refine Fwd.foldl _ _ (fun _ _ hfwd => ?_) _ ?_) | exact rfl | exact id | exact Nat.le_refl _ | exact Nat.le_succ _ | (intro _) | split | with_reducible apply Fwd.upd)

theorem State.postRtc_fwd {r0 : State} (s : State) (p : Post) (wait : Bool) (hfwd : Fwd r0 s) : Fwd r0 (State.postRtc s p wait)
    := by
  unfold State.postRtc
  repeat' (first | with_reducible exact hfwd | with_reducible apply State.postWrite_fwd | with_reducible apply State.postOutcome_fwd | intro _ | split)

theorem State.nextRtcPost_fwd {r0 : State} (s : State) (l : LaneId) (r : PwReg) (hfwd : Fwd r0 s) : Fwd r0 (State.nextRtcPost s
    l r) := by
  unfold State.nextRtcPost
  repeat' (first | with_reducible exact hfwd | with_reducible apply State.onLane_fwd | with_reducible apply State.postRtc_fwd | intro _ | split)

theorem State.setGo_fwd {r0 : State} (s : State) (l : LaneId) (v : Word) (hfwd : Fwd r0 s) : Fwd r0 (State.setGo s l v) := by
  unfold State.setGo
  iterate 30 (try any_goals first | with_reducible exact hfwd | with_reducible apply State.onLane_fwd | with_reducible apply State.postRtc_fwd | exact rfl | exact id | exact Nat.le_refl _ | exact Nat.le_succ _ | (intro _) | split | with_reducible apply Fwd.upd)

theorem State.postedWrite_fwd {r0 : State} (s : State) (l : LaneId) (r : PwReg) (v : Word) (hfwd : Fwd r0 s) : Fwd r0
    (State.postedWrite s l r v) := by
  unfold State.postedWrite
  repeat' (first | with_reducible exact hfwd | with_reducible apply State.onLane_fwd | with_reducible apply State.postRtc_fwd | with_reducible apply State.setGo_fwd | intro _ | split)

theorem State.applyPost_fwd {r0 : State} (s : State) (p : Post) (hfwd : Fwd r0 s) : Fwd r0 (State.applyPost s p) := by
  unfold State.applyPost
  iterate 30 (try any_goals first | with_reducible exact hfwd | with_reducible apply State.onDom_fwd | with_reducible apply State.eachLane_fwd | with_reducible apply State.startWaiting_fwd | with_reducible apply State.setGo_fwd | exact rfl | exact id | exact Nat.le_refl _ | exact Nat.le_succ _ | (intro _) | split | with_reducible apply Fwd.upd)

theorem State.keepAlarms_fwd {r0 : State} (s : State) (r : PwReg) (hfwd : Fwd r0 s) : Fwd r0 (State.keepAlarms s r) := by
  unfold State.keepAlarms
  iterate 30 (try any_goals first | with_reducible exact hfwd | exact rfl | exact id | exact Nat.le_refl _ | exact Nat.le_succ _ | (intro _) | split | with_reducible apply Fwd.upd)

theorem State.postTaken_fwd {r0 : State} (s : State) (l : LaneId) (r : PwReg) (hfwd : Fwd r0 s) : Fwd r0 (State.postTaken s l r)
    := by
  unfold State.postTaken
  repeat' (first | with_reducible exact hfwd | with_reducible apply State.onDom_fwd | with_reducible apply State.postOutcome_fwd | with_reducible apply State.nextRtcPost_fwd | with_reducible apply State.applyPost_fwd | with_reducible apply State.keepAlarms_fwd | intro _ | split)

theorem State.dropPosts_fwd {r0 : State} (s : State) (hfwd : Fwd r0 s) : Fwd r0 (State.dropPosts s) := by
  unfold State.dropPosts
  iterate 30 (try any_goals first | with_reducible exact hfwd | with_reducible apply State.onLane_fwd | with_reducible apply State.onDom_fwd | with_reducible apply State.postOutcome_fwd | with_reducible (refine Fwd.foldl _ _ (fun _ _ hfwd => ?_) _ ?_) | exact rfl | exact id | exact Nat.le_refl _ | exact Nat.le_succ _ | (intro _) | split | with_reducible apply Fwd.upd)

theorem State.rtcTick_fwd {r0 : State} (s : State) (hfwd : Fwd r0 s) : Fwd r0 (State.rtcTick s) := by
  unfold State.rtcTick
  iterate 30 (try any_goals first | with_reducible exact hfwd | with_reducible apply State.onDom_fwd | with_reducible apply State.flagBoth_fwd | exact rfl | exact id | exact Nat.le_refl _ | exact Nat.le_succ _ | (intro _) | split | with_reducible apply Fwd.upd)

theorem State.wrapEpoch_fwd {r0 : State} (s : State) (hfwd : Fwd r0 s) : Fwd r0 (State.wrapEpoch s) := by
  unfold State.wrapEpoch
  repeat' (first | with_reducible exact hfwd | with_reducible apply State.onDom_fwd | with_reducible apply State.flagBoth_fwd | intro _ | split)

theorem State.rtcAlarm_fwd {r0 : State} (s : State) (n : Nat) (hfwd : Fwd r0 s) : Fwd r0 (State.rtcAlarm s n) := by
  unfold State.rtcAlarm
  repeat' (first | with_reducible exact hfwd | with_reducible apply State.onLane_fwd | with_reducible apply State.onDom_fwd | with_reducible apply State.eachLane_fwd | intro _ | split)

theorem State.cellReading_fwd {r0 : State} (s : State) (mv : Nat) (hfwd : Fwd r0 s) : Fwd r0 (State.cellReading s mv) := by
  unfold State.cellReading
  repeat' (first | with_reducible exact hfwd | with_reducible apply State.onDom_fwd | with_reducible apply State.flagBoth_fwd | intro _ | split)

theorem State.t3Restored_fwd {r0 : State} (s : State) (hfwd : Fwd r0 s) : Fwd r0 (State.t3Restored s) := by
  unfold State.t3Restored
  repeat' (first | with_reducible exact hfwd | with_reducible apply State.onDom_fwd | with_reducible apply State.endCauseBoth_fwd | intro _ | split)

theorem State.runPost_fwd {r0 : State} (s : State) (l : LaneId) (h : Hdr) (e : Word) (r : PwReg) (words : List Word) (params :
    List Byte) (hfwd : Fwd r0 s) : Fwd r0 (State.runPost s l h e r words params).1 := by
  unfold State.runPost
  iterate 30 (try any_goals first | with_reducible exact hfwd | with_reducible apply State.onPkg_fwd | with_reducible apply State.postRtc_fwd | exact rfl | exact id | exact Nat.le_refl _ | exact Nat.le_succ _ | (intro _) | split)

theorem State.runTimeSet_fwd {r0 : State} (s : State) (l : LaneId) (h : Hdr) (e : Word) (d : DateTime) (hfwd : Fwd r0 s) : Fwd
    r0 (State.runTimeSet s l h e d).1 := by
  unfold State.runTimeSet
  repeat' (first | with_reducible exact hfwd | with_reducible apply State.onLane_fwd | with_reducible apply State.setGo_fwd | with_reducible apply State.runPost_fwd)

theorem State.runTimeTrim_fwd {r0 : State} (s : State) (l : LaneId) (h : Hdr) (e : Word) (t : Int) (hfwd : Fwd r0 s) : Fwd r0
    (State.runTimeTrim s l h e t).1 := by
  unfold State.runTimeTrim
  repeat' (first | with_reducible exact hfwd | with_reducible apply State.runPost_fwd)


/-! ### Forces.lean -/

theorem State.applyOwners_fwd {r0 : State} (s : State) (l : LaneId) (hfwd : Fwd r0 s) : Fwd r0
    (State.applyOwners s l) := by
  unfold State.applyOwners
  iterate 40 (try any_goals first | with_reducible exact hfwd | with_reducible apply State.onLane_fwd | with_reducible apply State.flag_fwd | with_reducible (refine Fwd.foldl _ _ (fun _ _ hfwd => ?_) _ ?_) | exact rfl | exact id | exact Nat.le_refl _ | exact Nat.le_succ _ | (intro _) | split | with_reducible apply Fwd.upd)

theorem State.giveCapture_fwd {r0 : State} (s : State) (l : LaneId) (o : Outstanding) (a b : List Byte) (hfwd : Fwd r0 s) : Fwd r0
    (State.giveCapture s l o a b) := by
  unfold State.giveCapture
  iterate 40 (try any_goals first | with_reducible exact hfwd | with_reducible apply State.finish_fwd | with_reducible apply State.onLane_fwd | exact rfl | exact id | exact Nat.le_refl _ | exact Nat.le_succ _ | (intro _) | split)

theorem State.jointReply_fwd {r0 : State} (s : State) (l : LaneId) (h : Hdr) (e : Word) (op : Op) (hfwd : Fwd r0 s) :
    Fwd r0 (s.jointReply l h e op).1 := by
  have hp : ∀ v : List (Hdr × Word × Nat × List Byte), Fwd r0 (s.onPkg (fun p => { p with outcomes := v })) :=
    fun v => State.onPkg_fwd s _ hfwd rfl rfl rfl rfl rfl rfl rfl rfl id (Nat.le_refl _)
  unfold State.jointReply
  dsimp only
  split
  · exact Fwd.foldl _ _ (fun _ _ ht => State.giveCapture_fwd _ _ _ _ _ ht) _ (hp _)
  · split
    · exact hfwd
    · split <;> exact hp _

theorem State.settleCaptures_fwd {r0 : State} (s : State) (l : LaneId) (hfwd : Fwd r0 s) : Fwd r0
    (State.settleCaptures s l) := by
  unfold State.settleCaptures
  iterate 40 (try any_goals first | with_reducible exact hfwd | with_reducible apply State.giveCapture_fwd | with_reducible (refine Fwd.foldl _ _ (fun _ _ hfwd => ?_) _ ?_))


/-! ### Rejoin.lean -/

theorem State.keepalive_fwd {r0 : State} (s : State) (l : LaneId) (sub : Nat) (hfwd : Fwd r0 s) : Fwd r0 (State.keepalive s l
    sub) := by
  unfold State.keepalive
  repeat' (first | with_reducible exact hfwd | with_reducible apply State.onLane_fwd | intro _ | split)

theorem State.linkLost_fwd {r0 : State} (s : State) (l : LaneId) (hfwd : Fwd r0 s) : Fwd r0 (State.linkLost s l) := by
  unfold State.linkLost
  iterate 30 (try any_goals first | with_reducible exact hfwd | with_reducible apply State.rejoinFail_fwd | with_reducible apply State.raise_fwd | exact rfl | exact id | exact Nat.le_refl _ | exact Nat.le_succ _ | (intro _) | split | with_reducible apply Fwd.upd)

theorem State.subLinkLoss_fwd {r0 : State} (s : State) (l : LaneId) (sub : Nat) (hfwd : Fwd r0 s) : Fwd r0 (State.subLinkLoss s
    l sub) := by
  unfold State.subLinkLoss
  iterate 30 (try any_goals first | with_reducible exact hfwd | with_reducible apply State.onLane_fwd | with_reducible apply State.flag_fwd | with_reducible apply State.linkLost_fwd | exact rfl | exact id | exact Nat.le_refl _ | exact Nat.le_succ _ | (intro _) | split | with_reducible apply Fwd.upd)

theorem State.heartbeatToggle_fwd {r0 : State} (s : State) (l : LaneId) (hfwd : Fwd r0 s) : Fwd r0 (State.heartbeatToggle s l) := by
  unfold State.heartbeatToggle
  repeat' (first | with_reducible exact hfwd | with_reducible apply State.onLane_fwd | intro _ | split)

theorem State.partnerLeft_fwd {r0 : State} (s : State) (l : LaneId) (hfwd : Fwd r0 s) : Fwd r0
    (State.partnerLeft s l) := by
  unfold State.partnerLeft
  iterate 40 (try any_goals first | with_reducible exact hfwd | with_reducible apply State.onLane_fwd | with_reducible apply State.settleCaptures_fwd | with_reducible apply State.onPkg_fwd | with_reducible apply State.selectLane_fwd | with_reducible apply State.abortExchangeIn_fwd | with_reducible apply State.settleImages_fwd | with_reducible apply State.flag_fwd | with_reducible (refine Fwd.foldl _ _ (fun _ _ hfwd => ?_) _ ?_) | exact rfl | exact id | exact Nat.le_refl _ | exact Nat.le_succ _ | (intro _) | split | with_reducible apply Fwd.upd)

theorem State.heartbeatMissing_fwd {r0 : State} (s : State) (l : LaneId) (hfwd : Fwd r0 s) : Fwd r0 (State.heartbeatMissing s l)
    := by
  unfold State.heartbeatMissing
  iterate 30 (try any_goals first | with_reducible exact hfwd | with_reducible apply State.onLane_fwd | with_reducible apply State.flag_fwd | with_reducible apply State.cutFrames_fwd | with_reducible apply State.partnerLeft_fwd | exact rfl | exact id | exact Nat.le_refl _ | exact Nat.le_succ _ | (intro _) | split | with_reducible apply Fwd.upd)

theorem State.seeFaultLine_fwd {r0 : State} (s : State) (l : LaneId) (hfwd : Fwd r0 s) : Fwd r0 (State.seeFaultLine s l) := by
  unfold State.seeFaultLine
  iterate 30 (try any_goals first | with_reducible exact hfwd | with_reducible apply State.haltG_fwd | with_reducible apply State.partnerLeft_fwd | exact rfl | exact id | exact Nat.le_refl _ | exact Nat.le_succ _ | (intro _) | split | with_reducible apply Fwd.upd)

theorem State.seeNotice_fwd {r0 : State} (s : State) (l : LaneId) (hfwd : Fwd r0 s) : Fwd r0 (State.seeNotice s l) := by
  unfold State.seeNotice
  repeat' (first | with_reducible exact hfwd | with_reducible apply State.onLane_fwd | with_reducible apply State.partnerLeft_fwd | intro _ | split)

theorem State.rejoinReset_fwd {r0 : State} (s : State) (l : LaneId) (hfwd : Fwd r0 s) : Fwd r0 (State.rejoinReset s l) := by
  unfold State.rejoinReset
  iterate 30 (try any_goals first | with_reducible exact hfwd | with_reducible apply State.onLane_fwd | exact rfl | exact id | exact Nat.le_refl _ | exact Nat.le_succ _ | (intro _) | split | with_reducible apply Fwd.upd)

theorem State.rejoinSelfTest_fwd {r0 : State} (s : State) (l : LaneId) (passed : Bool) (hfwd : Fwd r0 s) : Fwd r0
    (State.rejoinSelfTest s l passed) := by
  unfold State.rejoinSelfTest
  iterate 30 (try any_goals first | with_reducible exact hfwd | with_reducible apply State.onLane_fwd | with_reducible apply State.rejoinFail_fwd | exact rfl | exact id | exact Nat.le_refl _ | exact Nat.le_succ _ | (intro _) | split | with_reducible apply Fwd.upd)

theorem State.rejoinKeys_fwd {r0 : State} (s : State) (l : LaneId) (hfwd : Fwd r0 s) : Fwd r0 (State.rejoinKeys s l) := by
  unfold State.rejoinKeys
  iterate 30 (try any_goals first | with_reducible exact hfwd | with_reducible apply State.onLane_fwd | with_reducible apply State.rejoinFail_fwd | exact rfl | exact id | exact Nat.le_refl _ | exact Nat.le_succ _ | (intro _) | split | with_reducible apply Fwd.upd)

theorem State.rejoinPreCopy_fwd {r0 : State} (s : State) (l : LaneId) (hfwd : Fwd r0 s) : Fwd r0 (State.rejoinPreCopy s l) := by
  unfold State.rejoinPreCopy
  iterate 30 (try any_goals first | with_reducible exact hfwd | with_reducible apply State.onLane_fwd | with_reducible apply State.rejoinFail_fwd | exact rfl | exact id | exact Nat.le_refl _ | exact Nat.le_succ _ | (intro _) | split | with_reducible apply Fwd.upd)

theorem State.rejoinFinalCopy_fwd {r0 : State} (s : State) (l : LaneId) (p : Nat) (hfwd : Fwd r0 s) : Fwd r0
    (State.rejoinFinalCopy s l p) := by
  unfold State.rejoinFinalCopy
  iterate 30 (try any_goals first | with_reducible exact hfwd | with_reducible apply State.onLane_fwd | with_reducible apply State.ready_fwd | with_reducible (refine Fwd.foldl _ _ (fun _ _ hfwd => ?_) _ ?_) | exact rfl | exact id | exact Nat.le_refl _ | exact Nat.le_succ _ | (intro _) | split | with_reducible apply Fwd.upd)

theorem State.rejoinEngineState_fwd {r0 : State} (s : State) (l : LaneId) (g : Nat) (hfwd : Fwd r0 s) : Fwd r0
    (State.rejoinEngineState s l g) := by
  unfold State.rejoinEngineState
  iterate 30 (try any_goals first | with_reducible exact hfwd | with_reducible apply State.onLane_fwd | with_reducible (refine Fwd.foldl _ _ (fun _ _ hfwd => ?_) _ ?_) | exact rfl | exact id | exact Nat.le_refl _ | exact Nat.le_succ _ | (intro _) | split | with_reducible apply Fwd.upd)

theorem State.rejoinJoin_fwd {r0 : State} (s : State) (l : LaneId) (hfwd : Fwd r0 s) : Fwd r0 (State.rejoinJoin s l) := by
  unfold State.rejoinJoin
  iterate 30 (try any_goals first | with_reducible exact hfwd | with_reducible apply State.onLane_fwd | with_reducible apply State.onPkg_fwd | with_reducible apply State.rejoinFail_fwd | exact rfl | exact id | exact Nat.le_refl _ | exact Nat.le_succ _ | (intro _) | split | with_reducible apply Fwd.upd)


/-! ### Settings.lean -/

theorem State.takeSetting_fwd {r0 : State} (s : State) (l : LaneId) (i : SettingItem) (hfwd : Fwd r0 s) : Fwd r0
    (State.takeSetting s l i) := by
  unfold State.takeSetting
  repeat' (first | with_reducible exact hfwd | with_reducible apply State.onLane_fwd | with_reducible apply State.postRtc_fwd | intro _ | split)

theorem State.runModuleSet_fwd {r0 : State} (s : State) (l : LaneId) (now : Nat) (items : List SettingItem) (hfwd : Fwd r0 s) :
    Fwd r0 (State.runModuleSet s l now items).1 := by
  unfold State.runModuleSet
  repeat' (first | with_reducible exact hfwd | with_reducible apply State.onLane_fwd | with_reducible apply State.takeSetting_fwd | with_reducible (refine Fwd.foldl _ _ (fun _ _ hfwd => ?_) _ ?_))


/-! ### Bulk.lean -/

theorem State.endTransfer_fwd {r0 : State} (s : State) (l : LaneId) (p id : Nat) (st : Status) (params : List Byte) (hfwd : Fwd
    r0 s) : Fwd r0 (State.endTransfer s l p id st params) := by
  unfold State.endTransfer
  repeat' (first | with_reducible exact hfwd | with_reducible apply State.onLane_fwd | with_reducible apply State.finishAll_fwd)

theorem State.imageArrived_fwd {r0 : State} (s : State) (l : LaneId) (p : Nat) (t : Transfer) (part : Nat) (bs : List Byte)
    (hfwd : Fwd r0 s) : Fwd r0 (State.imageArrived s l p t part bs) := by
  unfold State.imageArrived
  repeat' (first | with_reducible exact hfwd | with_reducible apply State.onLane_fwd | with_reducible apply State.endTransfer_fwd | intro _ | split)

theorem State.transferDone_fwd {r0 : State} (s : State) (l : LaneId) (p : Nat) (t : Transfer) (e : Word) (hfwd : Fwd r0 s) : Fwd
    r0 (State.transferDone s l p t e) := by
  unfold State.transferDone
  repeat' (first | with_reducible exact hfwd | with_reducible apply State.onLane_fwd | with_reducible apply State.endTransfer_fwd | with_reducible apply State.imageArrived_fwd | intro _ | split)

theorem State.dropSegment_fwd {r0 : State} (s : State) (l : LaneId) (pair : Nat) (hfwd : Fwd r0 s) : Fwd r0 (State.dropSegment s
    l pair) := by
  unfold State.dropSegment
  repeat' (first | with_reducible exact hfwd | with_reducible apply State.onLane_fwd)

theorem State.takeSegment_fwd {r0 : State} (s : State) (l : LaneId) (pair p : Nat) (params : List Byte) (e : Word) (hfwd : Fwd
    r0 s) : Fwd r0 (State.takeSegment s l pair p params e) := by
  unfold State.takeSegment
  iterate 30 (try any_goals first | with_reducible exact hfwd | with_reducible apply State.onLane_fwd | with_reducible apply State.endTransfer_fwd | with_reducible apply State.transferDone_fwd | with_reducible apply State.dropSegment_fwd | exact rfl | exact id | exact Nat.le_refl _ | exact Nat.le_succ _ | (intro _) | split | with_reducible apply Fwd.upd)

theorem State.bulkSegment_fwd {r0 : State} (s : State) (l : LaneId) (hfwd : Fwd r0 s) : Fwd r0 (State.bulkSegment s l) := by
  unfold State.bulkSegment
  iterate 30 (try any_goals first | with_reducible exact hfwd | with_reducible apply State.onLane_fwd | with_reducible apply State.dropSegment_fwd | with_reducible apply State.takeSegment_fwd | exact rfl | exact id | exact Nat.le_refl _ | exact Nat.le_succ _ | (intro _) | split | with_reducible apply Fwd.upd)

theorem State.bulkTimeout_fwd {r0 : State} (s : State) (l : LaneId) (p id : Nat) (hfwd : Fwd r0 s) : Fwd r0 (State.bulkTimeout s
    l p id) := by
  unfold State.bulkTimeout
  repeat' (first | with_reducible exact hfwd | with_reducible apply State.endTransfer_fwd | intro _ | split)


/-! ### Events.lean -/

theorem State.sendEvents_fwd {r0 : State} (s : State) (l : LaneId) (p : Nat) (hfwd : Fwd r0 s) : Fwd r0 (State.sendEvents s l p)
    := by
  unfold State.sendEvents
  iterate 30 (try any_goals first | with_reducible exact hfwd | with_reducible apply State.onLane_fwd | with_reducible apply State.sendPacket_fwd | with_reducible (refine Fwd.foldl _ _ (fun _ _ hfwd => ?_) _ ?_) | exact rfl | exact id | exact Nat.le_refl _ | exact Nat.le_succ _ | (intro _) | split | with_reducible apply Fwd.upd)

theorem State.exportEvents_fwd {r0 : State} (s : State) (l : LaneId) (epoch : Word) (es : List Event) (hfwd : Fwd r0 s) : Fwd r0
    (State.exportEvents s l epoch es) := by
  unfold State.exportEvents
  repeat' (first | with_reducible exact hfwd | with_reducible apply State.onLane_fwd | with_reducible apply State.sendEvents_fwd | with_reducible (refine Fwd.foldl _ _ (fun _ _ hfwd => ?_) _ ?_) | intro _ | split)


/-! ### Commands.lean -/

theorem State.runPick_fwd {r0 : State} (s : State) (l : LaneId) (h : Hdr) (hfwd : Fwd r0 s) : Fwd r0 (State.runPick s l h).1 := by
  unfold State.runPick
  repeat' (first | with_reducible exact hfwd | with_reducible apply State.requestPick_fwd)

theorem State.runSubscribe_fwd {r0 : State} (s : State) (l : LaneId) (h : Hdr) (f : Option Subscription → Option Subscription)
    (hfwd : Fwd r0 s) : Fwd r0 (State.runSubscribe s l h f).1 := by
  unfold State.runSubscribe
  repeat' (first | with_reducible exact hfwd | with_reducible apply State.onLane_fwd | with_reducible apply State.sendEvents_fwd)

theorem State.endOvercurrents_fwd {r0 : State} (s : State) (hfwd : Fwd r0 s) : Fwd r0 s.endOvercurrents := by
  unfold State.endOvercurrents
  refine Fwd.foldl _ _ (fun t a ht => ?_) _ hfwd
  refine Fwd.foldl _ _ (fun u b hu => ?_) _ ht
  split
  · exact State.endCauseBoth_fwd _ _ hu
  · exact hu

theorem State.enableStages_fwd {r0 : State} (s : State) (bits : List Nat) (hfwd : Fwd r0 s) : Fwd r0 (State.enableStages s bits)
    := by
  unfold State.enableStages
  repeat' (first | with_reducible exact hfwd | with_reducible apply State.onFe_fwd | with_reducible apply State.overcurrent_fwd | with_reducible (refine Fwd.foldl _ _ (fun _ _ hfwd => ?_) _ ?_) | intro _ | split)

theorem State.ackFaults_fwd {r0 : State} (s : State) (e : Word) (scope index : Nat) (hfwd : Fwd r0 s) :
    Fwd r0 (s.ackFaults e scope index).1 := by
  unfold State.ackFaults
  have h0 := State.endOvercurrents_fwd s hfwd
  generalize s.endOvercurrents = t at h0 ⊢
  extract_lets s0 before s1 after gone
  have h1 : Fwd r0 s1 := h0.updLanes
  clear_value s1 gone after before
  split
  · exact hfwd
  · dsimp only
    exact State.allLiteralsMoved_fwd _ (State.enableStages_fwd _ _ h1)

theorem State.runFaultAck_fwd {r0 : State} (s : State) (l : LaneId) (h : Hdr) (e : Word) (scope index : Nat) (hfwd : Fwd r0 s) :
    Fwd r0 (s.runFaultAck l h e scope index).1 := by
  unfold State.runFaultAck
  extract_lets give q r t
  have hg : ∀ u code bs, Fwd r0 u → Fwd r0 (give u code bs).1 := by
    intro u code bs hu
    show Fwd r0 (if code = 0 then _ else _ : State × Answer).1
    split
    · dsimp only; split
      · exact State.onLane_fwd _ _ _ hu
      · exact hu
    · exact hu
  clear_value give
  split
  · exact hg _ _ _ (State.onPkg_fwd _ _ hfwd rfl rfl rfl rfl rfl rfl rfl rfl id (Nat.le_refl _))
  · refine hg _ _ _ ?_
    have hq : Fwd r0 q.1 := State.ackFaults_fwd _ _ _ _ hfwd
    show Fwd r0 (if (q.1.lane l.other).releases then q.1.onPkg _ else q.1)
    clear_value q
    split
    · exact State.onPkg_fwd _ _ hq rfl rfl rfl rfl rfl rfl rfl rfl id (Nat.le_refl _)
    · exact hq

theorem State.runRecFreeze_fwd {r0 : State} (s : State) (l : LaneId) (hfwd : Fwd r0 s) : Fwd r0 (State.runRecFreeze s l).1 := by
  unfold State.runRecFreeze
  repeat' (first | with_reducible exact hfwd | with_reducible apply State.onLane_fwd)

theorem State.bulkRead_fwd {r0 : State} (s : State) (l : LaneId) (h : Hdr) (e : Word) (a : PatternArgs) (hfwd : Fwd r0 s) : Fwd
    r0 (State.bulkRead s l h e a).1 := by
  unfold State.bulkRead
  repeat' (first | with_reducible exact hfwd | with_reducible apply State.onLane_fwd | intro _ | split)

theorem State.runOp_fwd {r0 : State} (s : State) (l : LaneId) (h : Hdr) (e : Word) (op : Op) (hfwd : Fwd r0 s) :
    Fwd r0 (s.runOp l h e op).1 := by
  unfold State.runOp
  cases op <;> dsimp only
  case keyLoad =>
    split
    · dsimp only; split
      · exact State.onLane_fwd _ _ _ hfwd
      · exact hfwd
    · exact State.runKeyLoad_fwd _ _ _ _ _ hfwd
  case escrowRestore => exact State.runEscrow_fwd _ _ _ _ _ hfwd
  case kekGenerate =>
    split
    · exact hfwd
    · exact State.runGenerate_fwd _ _ _ _ hfwd
  case kekWrap => split <;> exact hfwd
  case badSelector => exact hfwd
  case unknown => exact hfwd
  case lifecycleAdvance c k =>
    refine State.guarded_fwd _ _ _ _ hfwd (fun hn => ?_)
    split
    · rename_i v hv; exact State.runAdvance_fwd _ _ _ _ _ _ _ hv hn hfwd
    · exact hfwd
  case patternRead =>
    refine State.guarded_fwd _ _ _ _ hfwd (fun _ => ?_)
    split
    · exact hfwd
    · exact State.bulkRead_fwd _ _ _ _ _ hfwd
  case patternWrite =>
    refine State.guarded_fwd _ _ _ _ hfwd (fun _ => ?_)
    split
    · exact State.setLane_fwd _ _ _ hfwd
    · exact State.alone_fwd _ _ _ hfwd
  all_goals
    refine State.guarded_fwd _ _ _ _ hfwd (fun _ => ?_)
    first
    | exact hfwd
    | exact State.alone_fwd _ _ _ hfwd
    | exact State.jointReply_fwd _ _ _ _ _ hfwd
    | exact State.heddleCompare_fwd _ _ _ (State.alone_fwd _ _ _ hfwd)
    | exact State.runMeasurement_fwd _ _ _ hfwd
    | exact State.runPick_fwd _ _ _ hfwd
    | exact State.runSubscribe_fwd _ _ _ _ hfwd
    | exact State.runRecFreeze_fwd _ _ hfwd
    | exact State.runTimeSet_fwd _ _ _ _ _ hfwd
    | exact State.runTimeTrim_fwd _ _ _ _ _ hfwd
    | exact State.runFaultAck_fwd _ _ _ _ _ _ hfwd
    | exact State.runModuleSet_fwd _ _ _ _ hfwd
   

theorem State.execute_fwd {r0 : State} (s : State) (l : LaneId) (h : Hdr) (op : Op) (e : Word) (entry : Nat) (hfwd : Fwd r0 s) :
    Fwd r0 (s.execute l h op e entry) := by
  unfold State.execute
  have hq := State.runOp_fwd s l h e op hfwd
  generalize s.runOp l h e op = q at hq ⊢
  dsimp only
  split
  · exact State.replyWith_fwd _ _ _ _ _ _ _ _ hfwd
  · split
    · refine State.replyWith_fwd _ _ _ _ _ _ _ _ ?_
      split
      · exact State.onLane_fwd _ _ _ hq
      · exact hq
    · split
      · split
        · exact State.replyWith_fwd _ _ _ _ _ _ _ _ (State.onLane_fwd _ _ _ hq)
        · exact State.onLane_fwd _ _ _ hq
      · rename_i hx; revert hx; intro hx; split <;> first | exact State.replyWith_fwd _ _ _ _ _ _ _ _ (State.onLane_fwd _ _ _ hq) | exact State.onLane_fwd _ _ _ hq
    · exact hq

theorem State.admitCommand_fwd {r0 : State} (s : State) (l : LaneId) (h : Hdr) (op : Op) (e : Word) (entry : Nat) (hfwd : Fwd r0
    s) : Fwd r0 (State.admitCommand s l h op e entry) := by
  unfold State.admitCommand
  iterate 30 (try any_goals first | with_reducible exact hfwd | with_reducible apply State.onLane_fwd | with_reducible apply State.reply_fwd | with_reducible apply State.execute_fwd | exact rfl | exact id | exact Nat.le_refl _ | exact Nat.le_succ _ | (intro _) | split | with_reducible apply Fwd.upd)

theorem State.takeCommand_fwd {r0 : State} (s : State) (l : LaneId) (h : Hdr) (op : Op) (e : Word) (entry : Nat) (hfwd : Fwd r0
    s) : Fwd r0 (State.takeCommand s l h op e entry) := by
  unfold State.takeCommand
  iterate 30 (try any_goals first | with_reducible exact hfwd | with_reducible apply State.onLane_fwd | with_reducible apply State.sendReply_fwd | with_reducible apply State.reply_fwd | with_reducible apply State.replyUnprotected_fwd | with_reducible apply State.admitCommand_fwd | exact rfl | exact id | exact Nat.le_refl _ | exact Nat.le_succ _ | (intro _) | split | with_reducible apply Fwd.upd)

theorem State.resumeCommand_fwd {r0 : State} (s : State) (l : LaneId) (o : Outstanding) (e : Word) (hfwd : Fwd r0 s) : Fwd r0
    (State.resumeCommand s l o e) := by
  unfold State.resumeCommand
  repeat' (first | with_reducible exact hfwd | with_reducible apply State.onLane_fwd | with_reducible apply State.replyUnprotected_fwd | with_reducible apply State.execute_fwd | intro _ | split)

theorem State.command_fwd {r0 : State} (s : State) (h : Hdr) (op : Op) (hfwd : Fwd r0 s) : Fwd r0 (State.command s h op) := by
  unfold State.command
  exact State.eachLane_fwd _ _ _ hfwd (fun _ _ ht => State.onLane_fwd _ _ _ (State.takeCommand_fwd _ _ _ _ _ _ ht))

theorem State.pendingReply_fwd {r0 : State} (s : State) (l : LaneId) (sender : Option Nat) (seq : Word) (hfwd : Fwd r0 s) : Fwd
    r0 (State.pendingReply s l sender seq) := by
  unfold State.pendingReply
  repeat' (first | with_reducible exact hfwd | with_reducible apply State.onLane_fwd | with_reducible apply State.reply_fwd | intro _ | split)


/-! ### Picks.lean -/

theorem State.pickRequestAccept_fwd {r0 : State} (s : State) (hfwd : Fwd r0 s) : Fwd r0 (State.pickRequestAccept s) := by
  unfold State.pickRequestAccept
  iterate 30 (try any_goals first | with_reducible exact hfwd | with_reducible apply State.onLane_fwd | with_reducible apply State.onPkg_fwd | exact rfl | exact id | exact Nat.le_refl _ | exact Nat.le_succ _ | (intro _) | split)

theorem State.executivePick_fwd {r0 : State} (s : State) (l : LaneId) (hfwd : Fwd r0 s) : Fwd r0 (State.executivePick s l) := by
  unfold State.executivePick
  iterate 30 (try any_goals first | with_reducible exact hfwd | with_reducible apply State.onLane_fwd | with_reducible apply State.p0Start_fwd | with_reducible apply State.requestPick_fwd | exact rfl | exact id | exact Nat.le_refl _ | exact Nat.le_succ _ | (intro _) | split | with_reducible apply Fwd.upd)

theorem State.afterClose_fwd {r0 : State} (s : State) (l : LaneId) (n : Word) (hfwd : Fwd r0 s) : Fwd r0 (s.afterClose l n) := by
  unfold State.afterClose
  extract_lets s1
  have h1 : Fwd r0 s1 := by
    show Fwd r0 (match (s.lane l).closed.getLast? with
      | some c => if (s.lane l.other).releases then s.send l (.epoch n c.events) else s
      | none => s)
    split
    · split
      · exact State.send_fwd _ _ _ hfwd
      · exact hfwd
    · exact hfwd
  by_cases hb : s1.active = some l
  · rw [if_pos hb]; exact State.drainSp_fwd _ h1
  · rw [if_neg hb]; exact h1

theorem State.pickClose_fwd {r0 : State} (s : State) (hfwd : Fwd r0 s) : Fwd r0 (State.pickClose s) := by
  unfold State.pickClose
  iterate 30 (try any_goals first | with_reducible exact hfwd | with_reducible apply State.onLane_fwd | with_reducible apply State.onPkg_fwd | with_reducible apply State.send_fwd | with_reducible apply State.afterClose_fwd | exact rfl | exact id | exact Nat.le_refl _ | exact Nat.le_succ _ | (intro _) | split | with_reducible apply Fwd.upd)

theorem State.closeReceived_fwd {r0 : State} (s : State) (l : LaneId) (hfwd : Fwd r0 s) : Fwd r0 (State.closeReceived s l) := by
  unfold State.closeReceived
  iterate 30 (try any_goals first | with_reducible exact hfwd | with_reducible apply State.onLane_fwd | with_reducible apply State.afterClose_fwd | exact rfl | exact id | exact Nat.le_refl _ | exact Nat.le_succ _ | (intro _) | split | with_reducible apply Fwd.upd)

theorem State.epochExchange_fwd {r0 : State} (s : State) (l : LaneId) (hfwd : Fwd r0 s) : Fwd r0 (State.epochExchange s l) := by
  unfold State.epochExchange
  iterate 30 (try any_goals first | with_reducible exact hfwd | with_reducible apply State.onLane_fwd | exact rfl | exact id | exact Nat.le_refl _ | exact Nat.le_succ _ | (intro _) | split | with_reducible apply Fwd.upd)

theorem State.agreementTimeout_fwd {r0 : State} (s : State) (l : LaneId) (hfwd : Fwd r0 s) : Fwd r0 (State.agreementTimeout s l)
    := by
  unfold State.agreementTimeout
  repeat' (first | with_reducible exact hfwd | with_reducible apply State.raise_fwd | intro _ | split)

theorem State.serveTickets_fwd {r0 : State} (s : State) (l : LaneId) (hfwd : Fwd r0 s) : Fwd r0 (State.serveTickets s l) := by
  unfold State.serveTickets
  repeat' (first | with_reducible exact hfwd | with_reducible apply State.onLane_fwd | with_reducible apply State.finish_fwd | with_reducible apply State.ready_fwd | with_reducible (refine Fwd.foldl _ _ (fun _ _ hfwd => ?_) _ ?_) | intro _ | split)

theorem State.runCarried_fwd {r0 : State} (s : State) (l : LaneId) (n : Word) (k : CarriedPacket) (hfwd : Fwd r0 s) : Fwd r0
    (State.runCarried s l n k) := by
  unfold State.runCarried
  iterate 30 (try any_goals first | with_reducible exact hfwd | with_reducible apply State.takeCommand_fwd | exact rfl | exact id | exact Nat.le_refl _ | exact Nat.le_succ _ | (intro _) | split | with_reducible apply Fwd.upd)

theorem State.runCommands_fwd {r0 : State} (s : State) (l : LaneId) (n : Word) (es : List Event) (hfwd : Fwd r0 s) : Fwd r0
    (State.runCommands s l n es) := by
  unfold State.runCommands
  repeat' (first | with_reducible exact hfwd | with_reducible apply State.resumeCommand_fwd | with_reducible apply State.runCarried_fwd | with_reducible (refine Fwd.foldl _ _ (fun _ _ hfwd => ?_) _ ?_) | intro _ | split)

theorem State.release_fwd {r0 : State} (s : State) (l : LaneId) (c : ClosedEpoch) (theirs : Option (List Event)) (hfwd : Fwd r0
    s) : Fwd r0 (State.release s l c theirs) := by
  unfold State.release
  repeat' (first | with_reducible exact hfwd | with_reducible apply State.onLane_fwd | with_reducible apply State.setLane_fwd | with_reducible apply State.applyOwners_fwd | with_reducible apply State.exportEvents_fwd | with_reducible apply State.serveTickets_fwd | with_reducible apply State.runCommands_fwd)

theorem State.epochRelease_fwd {r0 : State} (s : State) (l : LaneId) (hfwd : Fwd r0 s) : Fwd r0 (State.epochRelease s l) := by
  unfold State.epochRelease
  iterate 30 (try any_goals first | with_reducible exact hfwd | with_reducible apply State.release_fwd | exact rfl | exact id | exact Nat.le_refl _ | exact Nat.le_succ _ | (intro _) | split | with_reducible apply Fwd.upd)

theorem State.soloRelease_fwd {r0 : State} (s : State) (l : LaneId) (hfwd : Fwd r0 s) : Fwd r0 (State.soloRelease s l) := by
  unfold State.soloRelease
  iterate 30 (try any_goals first | with_reducible exact hfwd | with_reducible apply State.release_fwd | exact rfl | exact id | exact Nat.le_refl _ | exact Nat.le_succ _ | (intro _) | split | with_reducible apply Fwd.upd)


/-! ### Start.lean -/

theorem State.supplyWarning_fwd {r0 : State} (s : State) (hfwd : Fwd r0 s) : Fwd r0 (State.supplyWarning s) := by
  unfold State.supplyWarning
  iterate 30 (try any_goals first | with_reducible exact hfwd | with_reducible apply State.flagBoth_fwd | exact rfl | exact id | exact Nat.le_refl _ | exact Nat.le_succ _ | (intro _) | split | with_reducible apply Fwd.upd)

theorem State.finalSaveDone_fwd {r0 : State} (s : State) (l : LaneId) (hfwd : Fwd r0 s) : Fwd r0 (State.finalSaveDone s l) := by
  unfold State.finalSaveDone
  repeat' (first | with_reducible exact hfwd | with_reducible apply State.onLane_fwd)

theorem State.warningCleared_fwd {r0 : State} (s : State) (hfwd : Fwd r0 s) : Fwd r0 (State.warningCleared s) := by
  unfold State.warningCleared
  iterate 30 (try any_goals first | with_reducible exact hfwd | with_reducible apply State.endCauseBoth_fwd | exact rfl | exact id | exact Nat.le_refl _ | exact Nat.le_succ _ | (intro _) | split | with_reducible apply Fwd.upd)

theorem State.moduleReset_onward (s : State) (cause : Nat) : Onward s (s.moduleReset cause) :=
  ⟨rfl, rfl, rfl, fun o => ⟨⟨fun _ _ e => (by cases e), o.2⟩, .refl _, Nat.le_refl _⟩, Nat.le_refl _⟩

/-- A reset that completes a transition of the life cycle. -/
theorem State.blownReset_onward (s : State) {c : LifeCycle} {b : Nat} (ht : s.pkg.transition = some (c, b)) (cause : Nat) :
    Onward s ((s.onPkg (fun p => { p with life := c })).moduleReset cause) :=
  ⟨rfl, rfl, rfl, fun o => ⟨⟨fun _ _ e => (by cases e), o.2⟩, .tail (.refl _) (o.1 c b ht).1, Nat.le_refl _⟩, Nat.le_refl _⟩

theorem State.vrstReset_onward (s : State) : Onward s s.vrstReset := by
  unfold State.vrstReset
  split
  · exact .refl s
  · extract_lets cause q
    have hq : Onward s q.2 := (State.draw_fwd s (.refl s)).1
    split
    · exact State.moduleReset_onward _ _
    · rename_i c t ht
      split
      · exact State.blownReset_onward s ht _
      · split
        · exact hq.trans (State.blownReset_onward q.2 (c := c) (b := t) ht _)
        · exact hq.trans (State.moduleReset_onward _ _)

theorem State.resetRelease_onward (s : State) : Onward s s.resetRelease := by
  unfold State.resetRelease
  extract_lets go
  have hg : ∀ t, Onward t (go t) := fun t => (Onward.refl t).upd rfl rfl rfl rfl rfl (Nat.le_refl _)
  clear_value go
  split
  · exact hg s
  · split
    · rename_i c b ht; exact (State.blownReset_onward s ht 3).trans (hg _)
    · exact .refl s



theorem State.bootComplete_fwd {r0 : State} (s : State) (l : LaneId) (verified : Bool) (version : Nat) (stages : List (List
    Byte)) (hfwd : Fwd r0 s) : Fwd r0 (State.bootComplete s l verified version stages) := by
  unfold State.bootComplete
  iterate 30 (try any_goals first | with_reducible exact hfwd | with_reducible apply State.setLane_fwd | exact rfl | exact id | exact Nat.le_refl _ | exact Nat.le_succ _ | (intro _) | split | with_reducible apply Fwd.upd)

theorem State.startupSelfTest_fwd {r0 : State} (s : State) (l : LaneId) (passed : Bool) (hfwd : Fwd r0 s) : Fwd r0
    (State.startupSelfTest s l passed) := by
  unfold State.startupSelfTest
  iterate 30 (try any_goals first | with_reducible exact hfwd | with_reducible apply State.onLane_fwd | with_reducible apply State.setLane_fwd | with_reducible apply State.send_fwd | exact rfl | exact id | exact Nat.le_refl _ | exact Nat.le_succ _ | (intro _) | split | with_reducible apply Fwd.upd)

theorem State.pair_fwd {r0 : State} (s : State) (hfwd : Fwd r0 s) : Fwd r0 (State.pair s) := by
  unfold State.pair
  iterate 30 (try any_goals first | with_reducible exact hfwd | with_reducible apply State.onLane_fwd | with_reducible apply State.flag_fwd | exact rfl | exact id | exact Nat.le_refl _ | exact Nat.le_succ _ | (intro _) | split | with_reducible apply Fwd.upd)

theorem State.laneAnnouncement_fwd {r0 : State} (s : State) (l : LaneId) (hfwd : Fwd r0 s) : Fwd r0 (State.laneAnnouncement s l)
    := by
  unfold State.laneAnnouncement
  repeat' (first | with_reducible exact hfwd | with_reducible apply State.pair_fwd | intro _ | split)

theorem State.pairingTimeout_fwd {r0 : State} (s : State) (l : LaneId) (hfwd : Fwd r0 s) : Fwd r0 (State.pairingTimeout s l) := by
  unfold State.pairingTimeout
  iterate 30 (try any_goals first | with_reducible exact hfwd | with_reducible apply State.onLane_fwd | exact rfl | exact id | exact Nat.le_refl _ | exact Nat.le_succ _ | (intro _) | split | with_reducible apply Fwd.upd)

theorem State.completeJob_fwd {r0 : State} (s : State) (l : LaneId) (j : FlashJob) (hfwd : Fwd r0 s) : Fwd r0
    (State.completeJob s l j) := by
  unfold State.completeJob
  iterate 40 (try any_goals first | with_reducible exact hfwd | with_reducible apply State.onLane_fwd | with_reducible apply State.settleImages_fwd | exact rfl | exact id | exact Nat.le_refl _ | exact Nat.le_succ _ | (intro _) | split)

theorem State.flashWriteComplete_fwd {r0 : State} (s : State) (l : LaneId) (hfwd : Fwd r0 s) : Fwd r0 (State.flashWriteComplete
    s l) := by
  unfold State.flashWriteComplete
  repeat' (first | with_reducible exact hfwd | with_reducible apply State.onLane_fwd | with_reducible apply State.completeJob_fwd | intro _ | split)

theorem State.startView_fwd {r0 : State} (s : State) (l : LaneId) (hfwd : Fwd r0 s) : Fwd r0 (State.startView s l) := by
  unfold State.startView
  repeat' (first | with_reducible exact hfwd | with_reducible apply State.onLane_fwd | intro _ | split)

theorem State.restoreClock_fwd {r0 : State} (s : State) (l : LaneId) (hfwd : Fwd r0 s) : Fwd r0 (State.restoreClock s l) := by
  unfold State.restoreClock
  iterate 30 (try any_goals first | with_reducible exact hfwd | with_reducible apply State.postRtc_fwd | with_reducible (refine Fwd.foldl _ _ (fun _ _ hfwd => ?_) _ ?_) | exact rfl | exact id | exact Nat.le_refl _ | exact Nat.le_succ _ | (intro _) | split | with_reducible apply Fwd.upd)

theorem State.startupConfiguration_fwd {r0 : State} (s : State) (l : LaneId) (hfwd : Fwd r0 s) : Fwd r0
    (State.startupConfiguration s l) := by
  unfold State.startupConfiguration
  iterate 30 (try any_goals first | with_reducible exact hfwd | with_reducible apply State.setLane_fwd | with_reducible apply State.startView_fwd | with_reducible apply State.restoreClock_fwd | with_reducible (refine Fwd.foldl _ _ (fun _ _ hfwd => ?_) _ ?_) | exact rfl | exact id | exact Nat.le_refl _ | exact Nat.le_succ _ | (intro _) | split | with_reducible apply Fwd.upd)

theorem State.startFrontEnds_fwd {r0 : State} (s : State) (l : LaneId) (hfwd : Fwd r0 s) : Fwd r0 (s.startFrontEnds l) := by
  unfold State.startFrontEnds
  split
  · exact hfwd
  · exact Fwd.foldl _ _ (fun t a ht => State.literalsMoved_fwd _ _ (State.onFe_fwd t a _ ht)) _ hfwd

theorem State.startupFrontEnds_fwd {r0 : State} (s : State) (l : LaneId) (hfwd : Fwd r0 s) : Fwd r0
    (State.startupFrontEnds s l) := by
  unfold State.startupFrontEnds
  iterate 40 (try any_goals first | with_reducible exact hfwd | with_reducible apply State.startView_fwd | with_reducible apply State.setLane_fwd | with_reducible apply State.startFrontEnds_fwd | with_reducible (refine Fwd.foldl _ _ (fun _ _ hfwd => ?_) _ ?_) | exact rfl | exact id | exact Nat.le_refl _ | exact Nat.le_succ _ | (intro _) | split | with_reducible apply Fwd.upd)

theorem State.coreSupplyStep_fwd {r0 : State} (s : State) (l : LaneId) (hfwd : Fwd r0 s) : Fwd r0 (State.coreSupplyStep s l) := by
  unfold State.coreSupplyStep
  iterate 30 (try any_goals first | with_reducible exact hfwd | with_reducible apply State.onLane_fwd | exact rfl | exact id | exact Nat.le_refl _ | exact Nat.le_succ _ | (intro _) | split | with_reducible apply Fwd.upd)

theorem State.laneSupplyFault_fwd {r0 : State} (s : State) (l : LaneId) (hfwd : Fwd r0 s) : Fwd r0 (State.laneSupplyFault s l) := by
  unfold State.laneSupplyFault
  repeat' (first | with_reducible exact hfwd | with_reducible apply State.onLane_fwd | with_reducible apply State.raise_fwd)


/-! ### Registers.lean -/

theorem State.selvedge_fwd {r0 : State} (s : State) (l : LaneId) (p c access addr : Nat) (hfwd : Fwd r0 s) : Fwd r0
    (State.selvedge s l p c access addr) := by
  unfold State.selvedge
  repeat' (first | with_reducible exact hfwd | with_reducible apply State.onLane_fwd | with_reducible apply State.flag_fwd)

theorem State.managerRequest_fwd {r0 : State} (s : State) (l : LaneId) (r : Reader) (m : MbxId) (v : Word) (hfwd : Fwd r0 s) :
    Fwd r0 (State.managerRequest s l r m v) := by
  unfold State.managerRequest
  repeat' (first | with_reducible exact hfwd | with_reducible apply State.onLane_fwd | intro _ | split)

theorem State.coreRequest_fwd {r0 : State} (s : State) (l : LaneId) (p c : Nat) (m : MbxId) (v : Word) (hfwd : Fwd r0 s) : Fwd
    r0 (State.coreRequest s l p c m v) := by
  unfold State.coreRequest
  iterate 30 (try any_goals first | with_reducible exact hfwd | with_reducible apply State.onLane_fwd | with_reducible apply State.selvedge_fwd | exact rfl | exact id | exact Nat.le_refl _ | exact Nat.le_succ _ | (intro _) | split | with_reducible apply Fwd.upd)

theorem State.writeRtc_fwd {r0 : State} (s : State) (l : LaneId) (off : Nat) (v : Word) (hfwd : Fwd r0 s) : Fwd r0
    (State.writeRtc s l off v) := by
  unfold State.writeRtc
  repeat' (first | with_reducible exact hfwd | with_reducible apply State.onLane_fwd | with_reducible apply State.postedWrite_fwd | intro _ | split)

theorem State.fltAck_fwd {r0 : State} (s : State) (v : Word) (hfwd : Fwd r0 s) : Fwd r0 (State.fltAck s v) := by
  unfold State.fltAck
  repeat' (first | with_reducible exact hfwd | with_reducible apply State.ackFaults_fwd | intro _ | split)

theorem State.doorbellPost_fwd {r0 : State} (s : State) (l : LaneId) (r n : Nat) (hfwd : Fwd r0 s) : Fwd r0 (State.doorbellPost
    s l r n) := by
  unfold State.doorbellPost
  iterate 30 (try any_goals first | with_reducible exact hfwd | with_reducible apply State.onLane_fwd | with_reducible apply State.flag_fwd | exact rfl | exact id | exact Nat.le_refl _ | exact Nat.le_succ _ | (intro _) | split | with_reducible apply Fwd.upd)

theorem State.doorbellTake_fwd {r0 : State} (s : State) (l : LaneId) (r n : Nat) (hfwd : Fwd r0 s) : Fwd r0 (State.doorbellTake
    s l r n) := by
  unfold State.doorbellTake
  iterate 30 (try any_goals first | with_reducible exact hfwd | with_reducible apply State.onLane_fwd | with_reducible apply State.flag_fwd | exact rfl | exact id | exact Nat.le_refl _ | exact Nat.le_succ _ | (intro _) | split | with_reducible apply Fwd.upd)

theorem State.writeRing_fwd {r0 : State} (s : State) (l : LaneId) (off : Nat) (v : Word) (hfwd : Fwd r0 s) : Fwd r0
    (State.writeRing s l off v) := by
  unfold State.writeRing
  iterate 30 (try any_goals first | with_reducible exact hfwd | with_reducible apply State.onLane_fwd | with_reducible apply State.doorbellPost_fwd | with_reducible apply State.doorbellTake_fwd | exact rfl | exact id | exact Nat.le_refl _ | exact Nat.le_succ _ | (intro _) | split | with_reducible apply Fwd.upd)

theorem State.managerWrite_fwd {r0 : State} (s : State) (l : LaneId) (b off : Nat) (v : Word) (hfwd : Fwd r0 s) : Fwd r0
    (State.managerWrite s l b off v) := by
  unfold State.managerWrite
  repeat' (first | with_reducible exact hfwd | with_reducible apply State.onLane_fwd | with_reducible apply State.managerRequest_fwd | with_reducible apply State.writeRtc_fwd | with_reducible apply State.fltAck_fwd | with_reducible apply State.writeRing_fwd | intro _ | split)

theorem State.serviceWrite_fwd {r0 : State} (s : State) (l : LaneId) (b off : Nat) (v : Word) (hfwd : Fwd r0 s) : Fwd r0
    (State.serviceWrite s l b off v) := by
  unfold State.serviceWrite
  repeat' (first | with_reducible exact hfwd | with_reducible apply State.onLane_fwd | with_reducible apply State.managerRequest_fwd | intro _ | split)

theorem State.bufferWord_fwd {r0 : State} (s : State) (l : LaneId) (c w : Nat) (v : Word) (hfwd : Fwd r0 s) :
    ∀ t, s.bufferWord l c w v = some t → Fwd r0 t := by
  intro t ht
  obtain ⟨k, -, rfl⟩ : ∃ k, ((s.lane l).core c).buffer w v = some k ∧ s.onLane l (fun x => x.onCore c (fun _ => k)) = t := by
    simpa [State.bufferWord] using ht
  exact State.onLane_fwd _ _ _ hfwd

theorem State.askPick_fwd {r0 : State} (s : State) (l : LaneId) (c : Nat) (hfwd : Fwd r0 s) : Fwd r0 (State.askPick s l c) := by
  unfold State.askPick
  repeat' (first | with_reducible exact hfwd | with_reducible apply State.onLane_fwd | with_reducible apply State.requestPick_fwd)

theorem State.coreBlockWrite_fwd {r0 : State} (s : State) (l : LaneId) (p c addr : Nat) (v : Word) (hfwd : Fwd r0 s) :
    ∀ t, s.coreBlockWrite l p c addr v = some t → Fwd r0 t := by
  intro t ht
  have hsel := State.selvedge_fwd s l p c 1 addr hfwd
  unfold State.coreBlockWrite at ht
  dsimp only at ht
  split at ht
  · cases ht; exact hfwd
  split at ht
  · cases ht; exact hsel
  split at ht
  · split at ht
    · cases ht; exact hsel
    · cases ht; exact State.coreRequest_fwd _ _ _ _ _ _ hfwd
  split at ht
  · cases ht; exact State.onLane_fwd _ _ _ hfwd
  split at ht
  · cases ht; split
    · exact State.askPick_fwd _ _ _ hfwd
    · exact hfwd
  split at ht
  · exact State.bufferWord_fwd _ _ _ _ _ hfwd _ ht
  split at ht
  · exact State.bufferWord_fwd _ _ _ _ _ hfwd _ ht
  split at ht
  · cases ht; exact hsel
  · cases ht; exact hfwd

theorem State.coreRegisterWrite_fwd {r0 : State} (s : State) (l : LaneId) (c addr : Nat) (v : Word) (hfwd : Fwd r0 s) :
    Fwd r0 (s.coreRegisterWrite l c addr v) := by
  unfold State.coreRegisterWrite
  split
  · exact hfwd
  · dsimp only
    split
    · exact State.selvedge_fwd _ _ _ _ _ _ hfwd
    · split
      · rename_i ht; exact State.coreBlockWrite_fwd _ _ _ _ _ _ hfwd _ ht
      · exact State.programFault_fwd _ _ _ _ _ _ hfwd

theorem State.registerWrite_fwd {r0 : State} (s : State) (l : LaneId) (r : Reader) (addr : Nat) (v : Word) (hfwd : Fwd r0 s) :
    Fwd r0 (State.registerWrite s l r addr v) := by
  unfold State.registerWrite
  repeat' (first | with_reducible exact hfwd | with_reducible apply State.managerWrite_fwd | with_reducible apply State.serviceWrite_fwd | with_reducible apply State.coreRegisterWrite_fwd | intro _ | split)


/-! ### Cores.lean -/

theorem State.coreLoad_fwd {r0 : State} (s : State) (l : LaneId) (p c a n : Nat) (hfwd : Fwd r0 s) : Fwd r0 (State.coreLoad s l
    p c a n).2 := by
  unfold State.coreLoad
  repeat' (first | with_reducible exact hfwd | with_reducible apply State.selvedge_fwd | intro _ | split)

theorem State.coreStore_fwd {r0 : State} (s : State) (l : LaneId) (p c a n : Nat) (v : Word) (hfwd : Fwd r0 s) :
    ∀ t, s.coreStore l p c a n v = some t → Fwd r0 t := by
  intro t ht
  unfold State.coreStore at ht
  dsimp only at ht
  split at ht
  · cases ht; exact State.selvedge_fwd _ _ _ _ _ _ hfwd
  · split at ht
    · obtain ⟨y, -, rfl⟩ := Option.map_eq_some_iff.mp ht
      exact State.onLane_fwd _ _ _ hfwd
    · split at ht
      · exact State.coreBlockWrite_fwd _ _ _ _ _ _ hfwd _ ht
      · cases ht; exact State.selvedge_fwd _ _ _ _ _ _ hfwd

theorem State.callEnds_fwd {r0 : State} (s : State) (l : LaneId) (c : Nat) (st : Word) (hfwd : Fwd r0 s) : Fwd r0
    (State.callEnds s l c st) := by
  unfold State.callEnds
  repeat' (first | with_reducible exact hfwd | with_reducible apply State.onLane_fwd)

theorem State.badArg_fwd {r0 : State} (s : State) (l : LaneId) (p c access : Nat) (a : Word) (hfwd : Fwd r0 s) : Fwd r0
    (State.badArg s l p c access a) := by
  unfold State.badArg
  repeat' (first | with_reducible exact hfwd | with_reducible apply State.selvedge_fwd | with_reducible apply State.callEnds_fwd)

theorem State.callWrites_fwd {r0 : State} (s : State) (l : LaneId) (p c a : Nat) (bs : List Byte) (go : State → State)
    (hf : ∀ t, Fwd r0 t → Fwd r0 (go t)) (hfwd : Fwd r0 s) : Fwd r0 (s.callWrites l p c a bs go) := by
  unfold State.callWrites
  split
  · exact hf _ (State.onLane_fwd _ _ _ hfwd)
  · exact State.programFault_fwd _ _ _ _ _ _ hfwd

theorem State.callPick_fwd {r0 : State} (s : State) (l : LaneId) (_p c : Nat) (hfwd : Fwd r0 s) : Fwd r0 (State.callPick s l _p
    c) := by
  unfold State.callPick
  iterate 30 (try any_goals first | with_reducible exact hfwd | with_reducible apply State.onLane_fwd | with_reducible apply State.requestPick_fwd | with_reducible apply State.callEnds_fwd | exact rfl | exact id | exact Nat.le_refl _ | exact Nat.le_succ _ | (intro _) | split | with_reducible apply Fwd.upd)

theorem State.callPost_fwd {r0 : State} (s : State) (l : LaneId) (p c : Nat) (hfwd : Fwd r0 s) : Fwd r0 (State.callPost s l p c)
    := by
  unfold State.callPost
  iterate 30 (try any_goals first | with_reducible exact hfwd | with_reducible apply State.onLane_fwd | with_reducible apply State.callEnds_fwd | with_reducible apply State.badArg_fwd | exact rfl | exact id | exact Nat.le_refl _ | exact Nat.le_succ _ | (intro _) | split | with_reducible apply Fwd.upd)

theorem State.callTake_fwd {r0 : State} (s : State) (l : LaneId) (p c : Nat) (hfwd : Fwd r0 s) : Fwd r0 (s.callTake l p c) := by
  unfold State.callTake
  dsimp only
  split
  · exact State.badArg_fwd _ _ _ _ _ _ hfwd
  · split
    · exact State.callEnds_fwd _ _ _ _ hfwd
    · split
      · exact State.badArg_fwd _ _ _ _ _ _ hfwd
      · split
        · exact State.callEnds_fwd _ _ _ _ hfwd
        · split
          · exact State.badArg_fwd _ _ _ _ _ _ hfwd
          · exact State.callWrites_fwd _ _ _ _ _ _ _ (fun t ht => State.callEnds_fwd _ _ _ _ (State.onLane_fwd _ _ _ ht)) hfwd

theorem State.callCause_fwd {r0 : State} (s : State) (l : LaneId) (p c : Nat) (hfwd : Fwd r0 s) : Fwd r0 (s.callCause l p c) := by
  unfold State.callCause
  dsimp only
  split
  · exact State.callEnds_fwd _ _ _ _ (State.onLane_fwd _ _ _ hfwd)
  · split
    · exact State.badArg_fwd _ _ _ _ _ _ hfwd
    · exact State.callWrites_fwd _ _ _ _ _ _ _ (fun t ht => State.callEnds_fwd _ _ _ _ (State.onLane_fwd _ _ _ ht)) hfwd

theorem State.callInfo_fwd {r0 : State} (s : State) (l : LaneId) (p c : Nat) (hfwd : Fwd r0 s) : Fwd r0 (State.callInfo s l p c)
    := by
  unfold State.callInfo
  iterate 30 (try any_goals first | with_reducible exact hfwd | with_reducible apply State.callEnds_fwd | with_reducible apply State.badArg_fwd | with_reducible apply State.callWrites_fwd | exact rfl | exact id | exact Nat.le_refl _ | exact Nat.le_succ _ | (intro _) | split | with_reducible apply Fwd.upd)

theorem State.envCall_fwd {r0 : State} (s : State) (l : LaneId) (p c : Nat) (hfwd : Fwd r0 s) : Fwd r0 (State.envCall s l p c) := by
  unfold State.envCall
  repeat' (first | with_reducible exact hfwd | with_reducible apply State.callEnds_fwd | with_reducible apply State.callPick_fwd | with_reducible apply State.callPost_fwd | with_reducible apply State.callTake_fwd | with_reducible apply State.callCause_fwd | with_reducible apply State.callInfo_fwd | intro _ | split)

theorem State.coreWrites_fwd {r0 : State} (s : State) (l : LaneId) (c rd : Nat) (v pc : Word) (hfwd : Fwd r0 s) : Fwd r0
    (State.coreWrites s l c rd v pc) := by
  unfold State.coreWrites
  repeat' (first | with_reducible exact hfwd | with_reducible apply State.onLane_fwd)

theorem State.rvEffect_fwd {r0 : State} (s : State) (l : LaneId) (p c : Nat) (i : Rv) (n : Nat) (hfwd : Fwd r0 s) :
    Fwd r0 (s.rvEffect l p c i n) := by
  unfold State.rvEffect
  cases i <;> dsimp only
  case load => exact State.coreWrites_fwd _ _ _ _ _ _ (State.coreLoad_fwd _ _ _ _ _ _ hfwd)
  case store =>
    split
    · rename_i ht; exact State.coreWrites_fwd _ _ _ _ _ _ (State.coreStore_fwd _ _ _ _ _ _ _ hfwd _ ht)
    · exact State.programFault_fwd _ _ _ _ _ _ hfwd
  case ecall => exact State.envCall_fwd _ _ _ _ hfwd
  all_goals exact State.coreWrites_fwd _ _ _ _ _ _ hfwd

theorem State.coreStep_fwd {r0 : State} (s : State) (l : LaneId) (p c : Nat) (hfwd : Fwd r0 s) : Fwd r0 (State.coreStep s l p c)
    := by
  unfold State.coreStep
  iterate 30 (try any_goals first | with_reducible exact hfwd | with_reducible apply State.programFault_fwd | with_reducible apply State.rvEffect_fwd | exact rfl | exact id | exact Nat.le_refl _ | exact Nat.le_succ _ | (intro _) | split | with_reducible apply Fwd.upd)

theorem State.asCore_fwd {r0 : State} (s : State) (l : LaneId) (c : Nat) (f : Nat → State) (hf : ∀ p, Fwd r0 (f p))
    (hfwd : Fwd r0 s) : Fwd r0 (s.asCore l c f) := by
  unfold State.asCore
  split
  · exact hf _
  · exact hfwd


/-! ### Detectors.lean -/

theorem State.completionDetected_fwd {r0 : State} (s : State) (l : LaneId) (g : Nat) (hfwd : Fwd r0 s) : Fwd r0
    (State.completionDetected s l g) := by
  unfold State.completionDetected
  repeat' (first | with_reducible exact hfwd | with_reducible apply State.raise_fwd | intro _ | split)

theorem State.stalled_fwd {r0 : State} (s : State) (l : LaneId) (g : Nat) (hfwd : Fwd r0 s) : Fwd r0 (State.stalled s l g) := by
  unfold State.stalled
  repeat' (first | with_reducible exact hfwd | with_reducible apply State.raise_fwd | intro _ | split)

theorem State.testToken_fwd {r0 : State} (s : State) (l : LaneId) (g : Nat) (hfwd : Fwd r0 s) : Fwd r0 (State.testToken s l g) := by
  unfold State.testToken
  repeat' (first | with_reducible exact hfwd | with_reducible apply State.onLane_fwd | intro _ | split)

theorem State.marginAlarm_fwd {r0 : State} (s : State) (l : LaneId) (d : Nat) (hfwd : Fwd r0 s) : Fwd r0 (State.marginAlarm s l
    d) := by
  unfold State.marginAlarm
  repeat' (first | with_reducible exact hfwd | with_reducible apply State.onLane_fwd | with_reducible apply State.flag_fwd | intro _ | split)

theorem State.regionsLoseClock_fwd {r0 : State} (s : State) (hfwd : Fwd r0 s) : Fwd r0 (State.regionsLoseClock s) := by
  unfold State.regionsLoseClock
  repeat' (first | with_reducible exact hfwd | with_reducible apply State.onFe_fwd | with_reducible apply State.raiseBoth_fwd | with_reducible (refine Fwd.foldl _ _ (fun _ _ hfwd => ?_) _ ?_))

theorem State.t3Loss_fwd {r0 : State} (s : State) (l : LaneId) (hfwd : Fwd r0 s) : Fwd r0 (State.t3Loss s l) := by
  unfold State.t3Loss
  repeat' (first | with_reducible exact hfwd | with_reducible apply State.onDom_fwd | with_reducible apply State.raise_fwd | with_reducible apply State.dropPosts_fwd)

theorem State.loseClock_fwd {r0 : State} (s : State) (l : LaneId) (island : Nat) (hfwd : Fwd r0 s) : Fwd r0
    (State.loseClock s l island) := by
  unfold State.loseClock
  iterate 40 (try any_goals first | with_reducible exact hfwd | with_reducible apply State.onLane_fwd)

theorem State.clockLoss_fwd {r0 : State} (s : State) (l : LaneId) (island : Nat) (hfwd : Fwd r0 s) : Fwd r0
    (State.clockLoss s l island) := by
  unfold State.clockLoss
  iterate 40 (try any_goals first | with_reducible exact hfwd | with_reducible apply State.t3Loss_fwd | with_reducible apply State.loseClock_fwd | with_reducible apply State.raise_fwd | with_reducible apply State.regionsLoseClock_fwd | exact rfl | exact id | exact Nat.le_refl _ | exact Nat.le_succ _ | (intro _) | split)

theorem State.eccError_fwd {r0 : State} (s : State) (l : LaneId) (bank : Nat) (uncorrectable : Bool) (us : Nat) (hfwd : Fwd r0
    s) : Fwd r0 (State.eccError s l bank uncorrectable us) := by
  unfold State.eccError
  repeat' (first | with_reducible exact hfwd | with_reducible apply State.onLane_fwd | with_reducible apply State.flag_fwd | with_reducible apply State.raise_fwd | intro _ | split)

theorem State.bothSupervisors_fwd {r0 : State} (s : State) (l : LaneId) (hfwd : Fwd r0 s) : Fwd r0 (State.bothSupervisors s l) := by
  unfold State.bothSupervisors
  repeat' (first | with_reducible exact hfwd | with_reducible apply State.raise_fwd | intro _ | split)

theorem State.supervisorTest_fwd {r0 : State} (s : State) (sup : Nat) (passed : Bool) (hfwd : Fwd r0 s) : Fwd r0
    (State.supervisorTest s sup passed) := by
  unfold State.supervisorTest
  iterate 30 (try any_goals first | with_reducible exact hfwd | with_reducible apply State.onLane_fwd | with_reducible apply State.onPkg_fwd | with_reducible apply State.flagBoth_fwd | with_reducible apply State.endCauseBoth_fwd | with_reducible apply State.bothSupervisors_fwd | exact rfl | exact id | exact Nat.le_refl _ | exact Nat.le_succ _ | (intro _) | split)

theorem State.collectorDiffers_fwd {r0 : State} (s : State) (l : LaneId) (hfwd : Fwd r0 s) : Fwd r0 (State.collectorDiffers s l)
    := by
  unfold State.collectorDiffers
  repeat' (first | with_reducible exact hfwd | with_reducible apply State.onLane_fwd | with_reducible apply State.raise_fwd | intro _ | split)


/-! ### Step.lean -/



end Sys2Proof.Machine
end

