-- ==== Sys2Proof/WellFormed.lean ====
section
/-! DEFINITION. Which commands the block's own interfaces can carry: every operand fits its field, and every index names a resource
that Table 01-5 gives the module. A well-formed command may still be refused; an ill-formed one cannot be sent. -/

namespace Sys2Proof

/-- A number fits a field of `n` bytes. -/
def fits (n v : Nat) : Bool := decide (v < 256 ^ n)

/-- A header field fits: PART is 0 to 15, or 0xFF (`none`); the address is an IPv4 or an IPv6 address, or none on the service port. -/
def Hdr.wf (h : Hdr) : Bool :=
  (match h.sender with | some p => decide (p < 16) | none => true) &&
  (h.src.ip.length = 4 || h.src.ip.length = 16 || decide (h.via = .service))

/-- A reader of a lane's registers: one of 16 application cores, the lane manager or the service port (R441). -/
def Reader.wf : Reader → Bool
  | .core n => decide (n < 16)
  | .manager => true
  | .service => true

/-- A posted-write register of the RTC block (Table 13-3). -/
def PwReg.wf : PwReg → Bool
  | .setGo => true
  | .trim => true
  | .chg => true
  | .alm n => decide (n < 4)
  | .almCtl n => decide (n < 4)

/-- Parameters fit their fields (Tables 09-9 to 09-16). -/
def ForceArgs.wf (f : ForceArgs) : Bool := fits 1 f.kind && fits 1 f.targetPart && fits 8 f.target
def UnitItem.wf (u : UnitItem) : Bool := fits 2 u.point && fits 1 u.owner
def PatternArgs.wf (p : PatternArgs) : Bool := fits 1 p.loop && fits 4 p.offset && fits 4 p.count && fits 4 p.transfer
def MeterItem.wf (m : MeterItem) : Bool := fits 1 m.item && fits 1 m.index && fits 8 m.value
def NetArgs.wf (n : NetArgs) : Bool := fits 1 n.pair && fits 1 n.speed && fits 1 n.prefixLen
def FilterArgs.wf (f : FilterArgs) : Bool :=
  fits 1 f.port && fits 1 f.filter && fits 1 f.en && fits 1 f.action && fits 1 f.ring && fits 1 f.pcpMask && fits 2 f.vid &&
  fits 2 f.vidMask && fits 2 f.etherType
def CanArgs.wf (c : CanArgs) : Bool :=
  fits 1 c.bus && fits 1 c.mode && fits 2 c.nbrp && fits 2 c.ntseg1 && fits 1 c.ntseg2 && fits 1 c.nsjw && fits 1 c.dbrp &&
  fits 1 c.dtseg1 && fits 1 c.dtseg2 && fits 1 c.dsjw && fits 1 c.tdco
def MailboxArgs.wf (m : MailboxArgs) : Bool := fits 1 m.bus && fits 1 m.dir && fits 1 m.mailbox && fits 1 m.type && fits 1 m.en
def SettingItem.wf (i : SettingItem) : Bool := fits 1 i.item && fits 1 i.index && fits 4 i.value
def DateTime.wf (d : DateTime) : Bool :=
  fits 2 d.year && fits 1 d.month && fits 1 d.day && fits 1 d.hour && fits 1 d.minute && fits 1 d.second

/-- Data of a CAN frame: as many bytes as its DLC gives, none for a remote frame (R422). -/
def CanFrame.wf (f : CanFrame) : Bool := decide (f.dlc < 16) && decide (f.data.length ≤ if f.fd then 64 else 8)

/-- The check of a command. -/
def Instr.wf : Instr → Bool
  | .nop h => h.wf
  | .echo h bytes => h.wf && decide (bytes.length ≤ 1440)
  | .identify h => h.wf
  | .getMeasurement h nonce => h.wf && decide (nonce.length = 32)
  | .pick h => h.wf
  | .eventSubscribeStart h kinds _ => h.wf && fits 2 kinds
  | .eventSubscribeStop h kinds _ => h.wf && fits 2 kinds
  | .eventSubscribeAck h kinds _ => h.wf && fits 2 kinds
  | .readPoints h first count => h.wf && fits 2 first && fits 2 count
  | .writePoints h items => h.wf && items.all (fun i => fits 2 i.1)
  | .forceSet h f => h.wf && f.wf
  | .forceClear h mode f => h.wf && (mode = 1 || mode = 2) && f.wf
  | .forceList h start max => h.wf && fits 2 start && fits 2 max
  | .configUnits h items => h.wf && items.all UnitItem.wf
  | .heddleLoad h region offset data => h.wf && fits 1 region && fits 4 offset && decide (data.length ≤ 1440)
  | .heddleCommit h region _ => h.wf && fits 1 region
  | .loopConfigLoop h index owner words => h.wf && fits 1 index && fits 1 owner && decide (words.length = 16)
  | .loopConfigGroup h index period phase en => h.wf && fits 1 index && fits 4 period && fits 2 phase && fits 1 en
  | .loopBankWrite h loop words => h.wf && fits 1 loop && decide (words.length = 32)
  | .loopBankSwap h loop _ _ => h.wf && fits 1 loop
  | .loopStatus h first count => h.wf && fits 1 first && fits 1 count
  | .patternClear h p => h.wf && p.wf
  | .patternRead h p => h.wf && p.wf
  | .patternWrite h p => h.wf && p.wf
  | .patternSave h p => h.wf && p.wf
  | .meterConfig h items => h.wf && items.all MeterItem.wf
  | .meterRead h set first count => h.wf && fits 1 set && fits 1 first && fits 1 count
  | .meterResetAccum h circuit => h.wf && fits 1 circuit
  | .meterLossReport h first count => h.wf && fits 1 first && fits 1 count
  | .programLoad h part length transfer => h.wf && fits 1 part && fits 4 length && fits 4 transfer
  | .programExchange h part _ _ => h.wf && fits 1 part
  | .restart h part mode _ => h.wf && fits 1 part && fits 1 mode
  | .cycleStatus h part => h.wf && fits 1 part
  | .retainSave h part => h.wf && fits 1 part
  | .recFreeze h => h.wf
  | .recRead h start max => h.wf && fits 8 start && fits 1 max
  | .recThaw h => h.wf
  | .timeGet h => h.wf
  | .timeSet h d => h.wf && d.wf
  | .timeTrim h trim => h.wf && decide (-32768 ≤ trim) && decide (trim < 32768)
  | .keyLoadBlob h slot blob => h.wf && fits 1 slot && decide (blob.length = 48)
  | .kekEscrowRestore h blob => h.wf && decide (blob.length = 48)
  | .keyUnload h slot _ => h.wf && fits 1 slot
  | .provisionKekGenerate h => h.wf
  | .provisionKekWrap h key attrs => h.wf && decide (key.length = 32) && decide (attrs.length = 8)
  | .lifecycleGet h => h.wf
  | .lifecycleAdvance h target _ => h.wf && fits 1 target
  | .netConfig h n => h.wf && n.wf
  | .filterSet h f => h.wf && f.wf
  | .canConfig h c => h.wf && c.wf
  | .canMailboxSet h m => h.wf && m.wf
  | .faultStatus h first count => h.wf && fits 2 first && fits 2 count
  | .faultAck h scope index => h.wf && fits 1 scope && fits 2 index
  | .laneStatus h => h.wf
  | .lanePrefer h prefer holdoff => h.wf && fits 1 prefer && fits 2 holdoff
  | .policyGet h item first count => h.wf && fits 1 item && fits 2 first && fits 2 count
  | .policyPin h item index _ => h.wf && fits 1 item && fits 2 index
  | .policyUnpin h item index _ => h.wf && fits 1 item && fits 2 index
  | .moduleSet h items => h.wf && items.all SettingItem.wf
  | .moduleGet h item index => h.wf && fits 1 item && fits 1 index
  | .pendingReply _ sender _ _ => match sender with | some p => decide (p < 16) | none => true
  | .instruction _ core => decide (core < 16)
  | .ecallPick _ core => decide (core < 16)
  | .ringPost _ core => decide (core < 16)
  | .ringTake _ core => decide (core < 16)
  | .restartCause _ core => decide (core < 16)
  | .cycleInfo _ core => decide (core < 16)
  | .pickReq _ core => decide (core < 16)
  | .sysWideMbx _ r _ => r.wf
  | .laneDigestMbx _ r _ => r.wf
  | .hedSnapMbx _ r _ => r.wf
  | .loopBankMbx _ r _ => r.wf
  | .nrgAccMbx _ r _ => r.wf
  | .rtcTimeMbx _ r _ => r.wf
  | .keySlotMbx _ r _ => r.wf
  | .keyMeasMbx _ r _ => r.wf
  | .recWinMbx _ r _ => r.wf
  | .mailboxCaptureDone _ r _ => r.wf
  | .rtcTime0Read _ r _ => r.wf
  | .rtcTime4Read _ r => r.wf
  | .rtcFreezeTimeout _ r _ => r.wf
  | .rtcTick => true
  | .ringDoorbellPost _ ring n => decide (ring < 64) && fits 2 n
  | .ringDoorbellTake _ ring n => decide (ring < 64) && fits 2 n
  | .fltAck _ _ => true
  | .rtcSetGo _ _ => true
  | .recover _ bus _ => decide (bus < 8)
  | .recCtlFreeze _ => true
  | .recCtlThaw _ => true
  | .postedWrite _ r _ => r.wf
  | .postedWriteTaken _ r => r.wf
  | .registerWrite _ r _ _ => r.wf
  | .pickRequestAccept => true
  | .pickClose _ => true
  | .closeReceived _ => true
  | .epochExchange _ => true
  | .epochRelease _ _ => true
  | .soloRelease _ _ => true
  | .agreementTimeout _ _ => true
  | .cycleExecutivePick _ _ => true
  | .ready _ part _ => decide (part < 16)
  | .readyReceived _ part => decide (part < 16)
  | .readyLate _ part _ => decide (part < 16)
  | .lateReadinessWindow _ part _ => decide (part < 16)
  | .cycleRunStart _ part _ => decide (part < 16)
  | .coreReturn _ core _ => decide (core < 16)
  | .watchdogOverrun part _ => decide (part < 16)
  | .overrunNotice _ part => decide (part < 16)
  | .partitionStarting _ part => decide (part < 16)
  | .exchangeStaged _ part _ => decide (part < 16)
  | .planDigest _ part => decide (part < 16)
  | .install _ part => decide (part < 16)
  | .exchangeTimeout _ part _ => decide (part < 16)
  | .savePeriodExpiry _ => true
  | .saveComplete _ => true
  | .writeRetry _ _ => true
  | .sampleFrame _ region _ => decide (region < 8)
  | .frameCheck _ region _ => decide (region < 8)
  | .outputUpdate _ region _ => decide (region < 8)
  | .regionUpdateTimer _ region _ => decide (region < 8)
  | .updateTimeout _ region _ => decide (region < 8)
  | .disagreementWindow region _ => decide (region < 8)
  | .commitDigest _ part _ => decide (part < 16)
  | .digestWindow _ _ => true
  | .keepalive _ sub _ => decide (sub < 2)
  | .subLinkLoss _ sub _ => decide (sub < 2)
  | .heartbeatToggle _ _ => true
  | .heartbeatMissing _ _ => true
  | .faultLine _ _ => true
  | .faultNotice _ _ => true
  | .rejoinReset _ => true
  | .rejoinSelfTest _ _ _ => true
  | .rejoinKeys _ _ => true
  | .rejoinPreCopy _ => true
  | .rejoinFinalCopy _ part => decide (part < 16)
  | .rejoinEngineState _ group => decide (group < 8)
  | .rejoinJoin _ _ => true
  | .regionFrame region samples => decide (region < 8) && samples.all (fun u => decide (u.unit < 64))
  | .testSlot region _ _ results => decide (region < 8) && results.all (fun r => decide (r.cluster < 8))
  | .overcurrent point _ => decide (point < 512)
  | .fieldSupplyFault region _ => decide (region < 8)
  | .thresholdCrossing point codeA codeB => decide (point < 512) && fits 2 codeA && fits 2 codeB
  | .literalVector _ region _ => decide (region < 8)
  | .vectorRefresh region _ => decide (region < 8)
  | .vectorTimeout _ region _ => decide (region < 8)
  | .inhibitMessage _ region => decide (region < 8)
  | .crcCheck region _ _ => decide (region < 8)
  | .crossRegionCrcCheck _ region _ _ => decide (region < 8)
  | .walkingVector region _ => decide (region < 8)
  | .heddlePersist _ region => decide (region < 8)
  | .heddleVerify _ region _ => decide (region < 8)
  | .heddleSwitchOverlapEnd region => decide (region < 8)
  | .heddleMark _ region _ => decide (region < 8)
  | .sampleInstant group _ => decide (group < 8)
  | .sampleMessage _ group => decide (group < 8)
  | .sampleComputation _ group _ => decide (group < 8)
  | .onTimeJudgement group _ _ => decide (group < 8)
  | .judgementMessage _ group => decide (group < 8)
  | .outputPhase _ group _ => decide (group < 8)
  | .lateSample _ group _ => decide (group < 8)
  | .lateSampleWindow _ group _ => decide (group < 8)
  | .blockCrc _ _ => true
  | .windowEnd _ => true
  | .windowMessage _ => true
  | .pulseStart output _ => decide (output < 24)
  | .pulseEnd output _ => decide (output < 24)
  | .netFrameReceived _ port _ _ => decide (port < 2)
  | .pauseTimerExpiry _ port _ => decide (port < 2)
  | .pauseRepeat _ port _ => decide (port < 2)
  | .pauseLong _ port _ => decide (port < 2)
  | .pauseCapped _ port _ => decide (port < 2)
  | .arpRequest _ => true
  | .neighbourSolicitation _ => true
  | .echoRequest _ => true
  | .intakeInterval _ => true
  | .prpSourceAgeout _ pair _ _ => decide (pair < 2)
  | .txFrameStart _ port _ => decide (port < 2)
  | .txUnderrun _ port _ => decide (port < 2)
  | .sfHoldEnd _ port _ => decide (port < 2)
  | .txAgedDrop _ port _ => decide (port < 2)
  | .prpSupervisionTimer _ _ => true
  | .linkLoss _ port => decide (port < 2)
  | .speedDecision _ port _ _ => decide (port < 2)
  | .renegotiationTimeout _ port _ => decide (port < 2)
  | .lowerSuspendedEnd _ port _ => decide (port < 2)
  | .bulkSegment _ => true
  | .bulkTimeout _ part _ _ => decide (part < 16)
  | .eventResend _ part _ => decide (part < 16)
  | .subscriptionEnd _ part _ => decide (part < 16)
  | .spWrite bytes length complete => !complete || decide (length ≤ bytes.length)
  | .spRead _ => true
  | .spStatus => true
  | .canFrameCapture _ bus f _ => decide (bus < 8) && f.wf
  | .canIntake _ bus => decide (bus < 8)
  | .canTxTake _ _ => true
  | .canTxComplete _ bus mailbox => decide (bus < 8) && decide (mailbox < 16)
  | .canTxAged _ bus _ => decide (bus < 8)
  | .busOff _ bus _ => decide (bus < 8)
  | .busOffRecovery _ bus => decide (bus < 8)
  | .recoveryWaitEnd _ bus _ => decide (bus < 8)
  | .stuckDom _ bus => decide (bus < 8)
  | .rtcAlarm n => decide (n < 4)
  | .epochWrap => true
  | .cellLow _ => true
  | .kekRemask _ => true
  | .domainPowerOnReset => true
  | .tamper _ => true
  | .completionDetection _ group _ => decide (group < 32)
  | .stallDetected _ group _ => decide (group < 32)
  | .testToken _ group _ => decide (group < 32)
  | .marginAlarm _ domain _ => decide (domain < 16)
  | .clockLoss _ island _ => decide (1 ≤ island) && decide (island ≤ 8)
  | .makerTestPin => true
  | .eccError _ bank _ _ _ => decide (bank < 32)
  | .supervisorSelfTest sup _ _ => decide (sup < 2)
  | .collectorDisagree _ _ => true
  | .frontEndHeartbeatLoss region _ => decide (region < 8)
  | .coreSupplyStep _ _ => true
  | .supplyWarning _ => true
  | .finalSaveDone _ _ => true
  | .warningCleared _ => true
  | .vrstReset => true
  | .resetRelease beat => decide (beat = 0)
  | .bootComplete _ _ version stages => fits 4 version && stages.all (fun m => decide (m.length = 48))
  | .startupSelfTest _ _ _ => true
  | .laneAnnouncement _ _ => true
  | .pairingTimeout _ _ => true
  | .startupConfiguration _ => true
  | .startupFrontEnds _ _ => true
  | .linkUp _ port _ => decide (port < 2)
  | .t3ClockRestored => true
  | .decimatorBlock _ vin iin => decide (vin.length ≤ 12) && decide (iin.length ≤ 96) && (vin ++ iin).all (fun w => decide (w < 2 ^ 10000))
  | .readbackFault point _ => decide (point < 512)
  | .frontEndRestart region => decide (region < 8)
  | .fieldSupplyRestored region => decide (region < 8)
  | .laneSupplyFault _ _ => true
  | .canBusError _ bus tec rec => decide (bus < 8) && fits 2 tec && fits 2 rec
  | .stuckDomCleared _ bus => decide (bus < 8)
  | .flashWriteComplete _ _ => true
  | .makerSessionOpen _ => true

end Sys2Proof
end

