-- ==== Sys2Proof/Tests/Slice0.lean ====
section
/-! SUPPORT. The model's own tests: ill-formed commands that the check refuses, values that the spec's tables give, and for each
statement with hypotheses a state and operands that meet them, clause by clause. -/

open Sys2Proof Sys2Proof.Machine

namespace Sys2Proof.Tests

set_option Elab.async false

/-! ### Small states -/

def src : Source := ⟨2, [10, 0, 0, 2], 49152, false⟩

/-- A protected command of partition 0, stamped with the load generation of its key. -/
def hd : Hdr :=
  { via := .estate, sender := some 0, enc := true, fast := false, flagsOk := true, seq := 1, pick := 0, credit := 0, statusZero := true,
    lenOk := true, reservedOk := true, keyGen := some 1, src := src }

/-- A command key and a bulk key of partition 0. -/
def slots : Tab Slot :=
  [(0, { key := some (zeros 32, 1, 0, 0, 1), loadGen := 1 }), (1, { key := some (zeros 32, 2, 0, 0, 1), loadGen := 2 })]

/-- A lane that start-up has taken into service. -/
def liveLane (role : Role) (paired : Bool) : Lane :=
  { blk := { lane := { role := role, gatesClosed := false, heartbeat := true, hbBeat := 1000000000, sub0 := true, sub1 := true,
                       sub0Beat := 1000000000, sub1Beat := 1000000000, paired := paired },
             key := { slots := slots } },
    booted := true, tested := true, announced := true, configured := true, started := true }

/-- Lane A alone in service, 10 s after the release of reset. -/
def soloS : State :=
  { State.reset with
    pkg := { beat := 1000000000, inReset := false, released := true }
    a := liveLane .active false }

/-- Both lanes in service, lane A active. -/
def duoS : State := { soloS with a := liveLane .active true, b := liveLane .standby true }

/-- `soloS` and `duoS` with lane A changed. -/
def solo (f : Lane → Lane) : State := { soloS with a := f soloS.a }
def duo (f : Lane → Lane) : State := { duoS with a := f duoS.a }

/-! ### Well-formed and ill-formed commands -/

def forceZero : ForceArgs := ⟨1, 0, 0, 0⟩

/-- One ill-formed command for each check of `Instr.wf`. -/
def illFormed : List Instr :=
  [.nop { hd with sender := some 16 }, .nop { hd with src := { src with ip := [1, 2] } }, .echo hd (List.replicate 1441 0),
   .getMeasurement hd (zeros 31), .eventSubscribeStart hd 65536 0, .readPoints hd 65536 1, .writePoints hd [(65536, 0)],
   .forceSet hd { forceZero with kind := 256 }, .forceClear hd 3 forceZero, .forceList hd 0 65536,
   .configUnits hd [⟨65536, false, 0, 0, 0, 0⟩], .heddleLoad hd 256 0 [], .heddleCommit hd 256 0, .loopConfigLoop hd 0 0 [],
   .loopConfigGroup hd 0 4294967296 1 1, .loopBankWrite hd 0 [], .loopBankSwap hd 256 false 0, .loopStatus hd 0 256,
   .patternClear hd ⟨256, 0, 0, 0, []⟩, .meterConfig hd [⟨256, 0, 0⟩], .meterRead hd 0 0 256, .meterResetAccum hd 256,
   .meterLossReport hd 256 1, .programLoad hd 256 0 0, .programExchange hd 256 false 0, .restart hd 0 256 0, .cycleStatus hd 256,
   .retainSave hd 256, .recRead hd (256 ^ 8) 1, .timeSet hd ⟨65536, 1, 1, 0, 0, 0⟩, .timeTrim hd 32768, .keyLoadBlob hd 0 (zeros 47),
   .kekEscrowRestore hd (zeros 49), .keyUnload hd 256 false, .provisionKekWrap hd (zeros 31) (zeros 8), .lifecycleAdvance hd 256 0,
   .netConfig hd ⟨0, 256, 0, 0, 0, 0, 0, 0⟩, .filterSet hd ⟨0, 0, 0, 0, 0, 0, 65536, 0, 0⟩,
   .canConfig hd ⟨0, 256, 0, 0, 0, 0, 0, 0, 0, 0, 0⟩, .canMailboxSet hd ⟨0, 0, 256, 0, 0, 0, 0⟩, .faultStatus hd 65536 32,
   .faultAck hd 0 65536, .lanePrefer hd 0 65536, .policyGet hd 256 0 1, .moduleSet hd [⟨1, 0, 4294967296⟩], .moduleGet hd 256 0,
   .pendingReply .a (some 16) 0 0, .instruction .a 16, .sysWideMbx .a (.core 16) 1, .ringDoorbellPost .a 64 1, .recover .a 8 0,
   .postedWriteTaken .a (.alm 4), .ready .a 16 0, .sampleFrame .a 8 true, .keepalive .a 2 0, .regionFrame 0 [⟨64, [], false, false⟩],
   .testSlot 0 0 0 [⟨8, true, true, false, false⟩], .overcurrent 512 0, .sampleInstant 8 0, .pulseStart 24 0, .linkLoss .a 2,
   .spWrite [0] 2 true, .canFrameCapture .a 0 ⟨false, false, false, 0, 16, false, false, []⟩ 0,
   .canFrameCapture .a 0 ⟨false, false, false, 0, 9, false, false, zeros 9⟩ 0, .canTxComplete .a 0 16, .busOff .a 8 0, .rtcAlarm 4,
   .completionDetection .a 32 0, .marginAlarm .a 16 0, .clockLoss .a 0 0, .clockLoss .a 9 0, .eccError .a 32 true 0 0,
   .supervisorSelfTest 2 true 0, .bootComplete .a true (256 ^ 4) [], .bootComplete .a true 0 [zeros 47],
   .decimatorBlock .a (List.replicate 13 0) [], .resetRelease 1]

theorem test_ill_formed_commands_are_refused : illFormed.all (fun i => !i.wf) = true := by decide +kernel

theorem test_well_formed_commands_pass :
    [Instr.nop hd, .echo hd (zeros 1440), .ringDoorbellPost .a 63 65535, .rtcAlarm 3, .clockLoss .a 8 0, .overcurrent 511 0].all Instr.wf = true := by
  decide +kernel

/-- No word spells a command, so the table's fetch leaves the state as it stands. -/
theorem test_no_word_spells_a_command : decodeTableWord 32 0 = none ∧ State.reset.withFetchWord 32 0 = State.reset := ⟨rfl, rfl⟩


/-! ### Commands that are accepted -/

/-- `State.Ready`, evaluated. -/
def readyB (s : State) (h : Hdr) (op : Op) : Bool :=
  s.a.releases && !s.b.releases && h.flagsOk && h.statusZero && decide ((h.pick - s.releasedEpoch).toNat = 0) &&
  decide (s.earlyRefusal h op = none) && h.reservedOk &&
  (match h.sender with
   | none => true
   | some p => match s.a.keyOf 1 p with
     | none => false
     | some k => decide (h.keyGen = some k.2.2) && freshSeq (s.a.sender p).high.toNat (s.a.sender p).marked h.seq.toNat &&
         decide (s.a.outstandingOf p < 16))

theorem ready_of_readyB {s : State} {h : Hdr} {op : Op} (e : readyB s h op = true) : s.Ready .a h op := by
  simp only [readyB, Bool.and_eq_true, Bool.not_eq_true', decide_eq_true_eq] at e
  obtain ⟨⟨⟨⟨⟨⟨⟨e1, e2⟩, e3⟩, e4⟩, e5⟩, e6⟩, e7⟩, e8⟩ := e
  refine ⟨⟨e1, e2⟩, ⟨e3, e4, .inl e5, e6, fun p hp => ?_⟩, e7⟩
  rw [hp] at e8
  cases hk : s.a.keyOf 1 p with
  | none => simp [hk] at e8
  | some k =>
    simp only [hk, Bool.and_eq_true, decide_eq_true_eq] at e8
    exact ⟨k.1, k.2.1, k.2.2, hk, e8.1.1, e8.1.2, e8.2⟩

/-- The hypotheses of a statement that a command completes: the command is accepted, and its own check passes. -/
def Meets (s : State) (h : Hdr) (op : Op) (c : State → Option Status) : Prop := s.Ready .a h op ∧ c (s.entered .a h op) = none

theorem meets {s : State} {h : Hdr} {op : Op} {c : State → Option Status}
    (e : (readyB s h op && decide (c (s.entered .a h op) = none)) = true) : Meets s h op c := by
  simp only [Bool.and_eq_true, decide_eq_true_eq] at e
  exact ⟨ready_of_readyB e.1, e.2⟩

def cmdA : List Word := [0, 0, 1, 0, 0, 0, 0, 0, 0, 0, 0, 0, 100, 0, 0, 0]

/-- Loop 255 with a record that gives it a pattern of 100 samples, and a bank that has been written. -/
def loopLane (x : Lane) : Lane := x.onLoop 255 (fun o => { o with recWords := cmdA, recNow := cmdA, written := true, gen := 65535 })

def img (gen : BitVec 16) : Image :=
  { gen := gen, part := 0, requiresTime := false, warm := true, entry := 8, minCycle := 1000, watchdog := 1000, code := zeros 12, data := [],
    zeroSize := 0, stackSize := 0, retainSize := 0, retainSig := 0, retainInit := [], symbols := [], digest := [] }

/-- Partition 0 runs image 1, in its cycle `n`, on cores 0 and 1; image 2 is loaded. -/
def runsImage (x : Lane) : Lane :=
  x.onPart 0 (fun p => { p with state := .running, grant := 3, current := some (img 1), loaded := some (img 2), cycle := 7 })

theorem no_outcome : soloS.noOutcome hd := fun _ h => nomatch h

theorem wit_general_commands :
    Meets soloS hd .nop (fun _ => none) ∧ Meets soloS hd (.echo [1, 2]) (fun _ => none) ∧
    Meets soloS hd .identify (fun _ => none) ∧ soloS.noOutcome hd ∧
    Meets soloS hd (.getMeasurement (zeros 32)) (fun u => checkMeasurement (u.lane .a) u.pkg.beat) ∧
    Meets soloS hd .pick (fun _ => none) ∧ Meets soloS hd (.subStart 0x1F2 0) (fun _ => none) ∧
    Meets soloS hd (.subStop 0 0) (fun _ => none) ∧ Meets soloS hd (.subAck 0 1) (fun _ => none) :=
  ⟨meets (by decide), meets (by decide), meets (by decide), no_outcome, meets (by decide), meets (by decide),
    meets (by decide), meets (by decide), meets (by decide)⟩

/-- A module whose unit 511 is a digital output. -/
def outputs (x : Lane) : Lane := x.onPnt (fun b => { b with cfg := [(511, 0x80090000)] })

theorem wit_point_commands :
    Meets soloS hd (.readPoints 384 128) (fun u => checkReadPoints (u.lane .a) hd 384 128) ∧
    Meets (solo outputs) hd (.writePoints [(511, 1)]) (fun u => checkWritePoints (u.lane .a) hd [(511, 1)]) ∧
    Meets soloS hd (.forceSet ⟨2, 0, 511, 1⟩) (fun u => checkForceSet (u.lane .a) hd ⟨2, 0, 511, 1⟩) ∧
    Meets soloS hd (.forceClear 1 ⟨2, 0, 511, 0⟩) (fun u => checkForceClear (u.lane .a) hd 1 ⟨2, 0, 511, 0⟩) ∧
    Meets soloS hd (.forceClear 2 ⟨0, 15, 0, 0⟩) (fun u => checkForceClear (u.lane .a) hd 2 ⟨0, 15, 0, 0⟩) ∧
    Meets soloS hd (.forceList 1023 32) (fun _ => checkForceList 32) ∧
    Meets soloS hd (.configUnits [⟨511, true, 15, 0x80090000, 0, 0⟩])
      (fun u => checkConfigUnits (u.lane .a) hd [⟨511, true, 15, 0x80090000, 0, 0⟩]) :=
  ⟨meets (by decide +kernel), meets (by decide +kernel), meets (by decide +kernel), meets (by decide +kernel), meets (by decide +kernel),
    meets (by decide +kernel), meets (by decide +kernel)⟩

/-- A lane whose staging area of region 7 holds an image without literals, targets and terms. -/
def staged (x : Lane) : Lane := x.onHed (fun b => { b with staging := [(7, [(0, 1), (2, 7)])], staged := [7] })

theorem commit_check {x : Lane} {m : Mem} (h1 : x.committing 7 = false) (h2 : x.blk.hed.staged.contains 7 = true)
    (h3 : x.staging 7 = m) (h4 : x.imageOk 7 (readImage m) = true) : checkHeddleCommit x hd 7 (stagingCrc m) = none := by
  simp only [checkHeddleCommit, h1, h2, h3, h4]
  simp [hd]

theorem wit_heddle_commands :
    Meets soloS hd (.heddleLoad 7 7952 (zeros 1024)) (fun u => checkHeddleLoad (u.lane .a) hd 7 7952 (zeros 1024)) ∧
    Meets (solo staged) hd (.heddleCommit 7 (stagingCrc [(0, 1), (2, 7)]))
      (fun u => checkHeddleCommit (u.lane .a) hd 7 (stagingCrc [(0, 1), (2, 7)])) :=
  ⟨meets (by decide +kernel), ready_of_readyB (by decide +kernel),
    commit_check (by decide +kernel) (by decide +kernel) (by decide +kernel) (by decide +kernel)⟩

theorem wit_loop_commands :
    Meets soloS hd (.loopConfigLoop 255 0 cmdA) (fun u => checkLoopConfigLoop (u.lane .a) hd 255 0 cmdA) ∧
    Meets soloS hd (.loopConfigGroup 7 60000000 65535 1) (fun u => checkLoopConfigGroup (u.lane .a) hd 7 60000000 65535 1) ∧
    Meets (solo loopLane) hd (.loopBankWrite 255 (List.replicate 32 0))
      (fun u => checkLoopBankWrite (u.lane .a) hd 255 (List.replicate 32 0)) ∧
    Meets (solo loopLane) hd (.loopBankSwap 255 true 65535) (fun u => checkLoopBankSwap (u.lane .a) hd 255 65535) ∧
    Meets soloS hd (.loopStatus 224 32) (fun u => checkLoopStatus (u.lane .a) hd 224 32) ∧
    Meets (solo loopLane) hd (.patternClear ⟨255, 0, 100, 0, []⟩) (fun u => checkPatternAlone (u.lane .a) hd ⟨255, 0, 100, 0, []⟩) ∧
    Meets (solo loopLane) hd (.patternRead ⟨255, 0, 100, 0, []⟩) (fun u => checkPatternRead (u.lane .a) hd ⟨255, 0, 100, 0, []⟩) ∧
    Meets (solo loopLane) hd (.patternWrite ⟨255, 98, 2, 0, [1, 2]⟩) (fun u => checkPatternWrite (u.lane .a) hd ⟨255, 98, 2, 0, [1, 2]⟩) ∧
    Meets (solo loopLane) hd (.patternSave ⟨255, 0, 0, 0, []⟩) (fun u => checkPatternSave (u.lane .a) hd u.pkg.beat ⟨255, 0, 0, 0, []⟩) :=
  ⟨meets (by decide +kernel), meets (by decide +kernel), meets (by decide +kernel), meets (by decide +kernel), meets (by decide +kernel),
    meets (by decide +kernel), meets (by decide +kernel), meets (by decide +kernel), meets (by decide +kernel)⟩

theorem wit_bulk_commands :
    Meets (solo loopLane) hd (.patternWrite ⟨255, 0, 100, 9, []⟩) (fun u => checkPatternWrite (u.lane .a) hd ⟨255, 0, 100, 9, []⟩) ∧
    Meets (solo loopLane) hd (.patternRead ⟨255, 0, 100, 9, []⟩) (fun u => checkPatternRead (u.lane .a) hd ⟨255, 0, 100, 9, []⟩) ∧
    Meets soloS hd (.programLoad 15 112 1) (fun u => u.checkProgramLoad .a hd 15 112 1) :=
  ⟨meets (by decide +kernel), meets (by decide +kernel), meets (by decide +kernel)⟩

def m32S (f : Lane → Lane) : State := { solo f with pkg := { soloS.pkg with order := .m32 } }

theorem wit_meter_commands :
    Meets (m32S id) hd (.meterConfig [⟨7, 31, 15⟩]) (fun u => u.checkMeterConfig .a hd [⟨7, 31, 15⟩]) ∧
    Meets (m32S id) hd (.meterRead 2 0 32) (fun u => u.checkMeterList .a hd 0 32) ∧ (m32S id).noOutcome hd ∧
    (m32S id).a.blk.nrg.window < 2 ^ 64 ∧
    Meets (m32S id) hd (.meterReset 31) (fun u => u.checkMeterReset hd 31) ∧
    Meets (m32S id) hd (.meterLoss 31 1) (fun u => u.checkMeterList .a hd 31 1) :=
  ⟨meets (by decide +kernel), meets (by decide +kernel), (fun _ h => nomatch h), by decide +kernel, meets (by decide +kernel),
    meets (by decide +kernel)⟩

theorem wit_program_and_recorder_commands :
    ((solo runsImage).a.part 0).loaded = some (img 2) ∧
    Meets (solo runsImage) hd (.programExchange 0 false 2) (fun u => u.checkExchange .a hd 0 false 2) ∧
    Meets (solo runsImage) hd (.restart 0 2 0) (fun u => u.checkRestart .a hd 0 0) ∧
    ((solo runsImage).a.part 0).state ≠ .waitTime ∧
    Meets soloS hd (.cycleStatus 15) (fun _ => checkPart hd 15) ∧ Meets soloS hd (.retainSave 15) (fun _ => checkPart hd 15) ∧
    Meets soloS hd .recFreeze (fun _ => ownerOnly hd) ∧ Meets soloS hd (.recRead 1 16) (fun u => checkRecRead (u.lane .a) 1 16) ∧
    Meets soloS hd .recThaw (fun _ => ownerOnly hd) :=
  ⟨by decide +kernel, meets (by decide +kernel), meets (by decide +kernel), by decide +kernel, meets (by decide +kernel),
    meets (by decide +kernel), meets (by decide +kernel), meets (by decide +kernel), meets (by decide +kernel)⟩

theorem wit_time_commands :
    soloS.noOutcome hd ∧ Meets soloS hd .timeGet (fun _ => none) ∧
    Meets soloS hd (.timeSet ⟨2999, 12, 31, 23, 59, 59⟩) (fun u => u.checkTimeSet hd ⟨2999, 12, 31, 23, 59, 59⟩) ∧
    Meets soloS hd (.timeTrim (-511)) (fun u => u.checkTimeTrim hd (-511)) :=
  ⟨no_outcome, meets (by decide +kernel), meets (by decide +kernel), meets (by decide +kernel)⟩

def kekS : State := soloS.onPkg (fun p => { p with dom := { p.dom with kek := some (0, 0) } })

/-- USE 1 for partition 15, KEY_ID 1. -/
def attrs : List Byte := [1, 15, 0, 0, 0, 0, 0, 1]

theorem wit_key_commands :
    kekS.Ready .a hd (.keyLoad 63 (zeros 48)) ∧
    Meets soloS hd (.keyUnload 63 true) (fun u => checkKeyUnload (u.lane .a) hd 63) ∧
    kekS.pkg.dom.kekValue = some 0 ∧ (readBlob (zeros 32 ++ attrs)).use ≠ 0x7E ∧
    Meets kekS { hd with via := .service } (.kekWrap (zeros 32) attrs) (fun u => u.checkWrap { hd with via := .service } (zeros 32) attrs) ∧
    Meets soloS hd .lifecycleGet (fun _ => none) :=
  ⟨ready_of_readyB (by decide +kernel), meets (by decide +kernel), by decide +kernel, by decide +kernel, meets (by decide +kernel),
    meets (by decide +kernel)⟩

theorem wit_kek_and_life_cycle_commands :
    soloS.decidedKey .a hd soloS.releasedEpoch = none ∧ soloS.Ready .a hd (.escrowRestore (zeros 48)) ∧
    Meets soloS { hd with via := .service } .kekGenerate (fun u => u.checkGenerate { hd with via := .service }) ∧
    lifeOf 3 = some .sealed ∧ Meets kekS hd (.lifecycleAdvance 3 0) (fun u => u.checkAdvance .a hd 3 0) ∧
    lifeOf 5 = some .void ∧ Meets soloS hd (.lifecycleAdvance 5 0) (fun u => u.checkAdvance .a hd 5 0) :=
  ⟨by decide +kernel, ready_of_readyB (by decide +kernel), meets (by decide +kernel), rfl, meets (by decide +kernel), rfl,
    meets (by decide +kernel)⟩

def netA : NetArgs := ⟨1, 1, 2, 0, 2, 30, 0x0A000001, 1⟩
def filtA : FilterArgs := ⟨1, 31, 1, 1, 55, 255, 4095, 4095, 0x0800⟩
def canA : CanArgs := ⟨7, 1, 1, 63, 16, 16, 1, 15, 4, 4, 0⟩
def mbxA : MailboxArgs := ⟨7, 1, 15, 0, 0x7FF, 0x7FF, 1⟩

theorem wit_network_commands :
    Meets soloS hd (.netConfig netA) (fun _ => checkNetConfig hd netA) ∧ Meets soloS hd (.filterSet filtA) (fun _ => checkFilterSet hd filtA) ∧
    Meets soloS hd (.canConfig canA) (fun u => checkCanConfig (u.lane .a) hd canA) ∧
    Meets soloS hd (.mailboxSet mbxA) (fun _ => checkMailboxSet hd mbxA) :=
  ⟨meets (by decide +kernel), meets (by decide +kernel), meets (by decide +kernel), meets (by decide +kernel)⟩

theorem wit_fault_and_lane_commands :
    soloS.noOutcome hd ∧ Meets soloS hd (.faultStatus 4064 32) (fun _ => checkFaultStatus hd 4064 32) ∧
    Meets soloS hd (.faultAck 3 0) (fun u => checkFaultAck (u.lane .a) hd 3 0) ∧
    ((soloS.entered .a hd (.faultAck 3 0)).ackFaults soloS.releasedEpoch 3 0).2.isSome = true ∧
    Meets soloS hd .laneStatus (fun _ => none) ∧ Meets soloS hd (.lanePrefer 2 3600) (fun _ => checkLanePrefer hd 2 3600) :=
  ⟨no_outcome, meets (by decide +kernel), meets (by decide +kernel), by decide +kernel, meets (by decide +kernel),
    meets (by decide +kernel)⟩

theorem wit_policy_and_setting_commands :
    Meets soloS hd (.policyGet 5 192 64) (fun _ => checkPolicyGet hd 5 192 64) ∧
    Meets soloS hd (.policyPin 1 1 900) (fun u => checkPolicyPin (u.lane .a) hd 1 1 (some 900)) ∧
    Meets soloS hd (.policyUnpin 5 255 0) (fun u => checkPolicyPin (u.lane .a) hd 5 255 none) ∧
    Meets soloS hd (.moduleSet [⟨2, 0, 210⟩]) (fun u => u.checkModuleSet hd [⟨2, 0, 210⟩]) ∧
    Meets soloS hd (.moduleGet 5 1) (fun _ => checkModuleGet hd 5 1) :=
  ⟨meets (by decide +kernel), meets (by decide +kernel), meets (by decide +kernel), meets (by decide +kernel), meets (by decide +kernel)⟩

/-! ### The machine as a whole, and the refusals of commands -/

def fullSender : Sender := { high := 5, marked := [5] }

/-- `soloS` with partition 0's sequence window at 5 and `n` of its commands outstanding. -/
def creditS (n : Nat) : State :=
  solo (fun x => x.onMan (fun m => { m with
    senders := [(0, fullSender)], outstanding := List.replicate n ⟨hd, .nop, 0, 0, .epoch, false, 0⟩ }))

theorem wit_both_lanes_or_one : commandOf (.nop hd) = some (hd, .nop) ∧ duoS.Both ∧ soloS.Alone .a := ⟨rfl, ⟨rfl, rfl⟩, rfl, rfl⟩

theorem wit_refusals_in_order :
    soloS.a.keyOf 1 1 = none ∧ soloS.a.keyOf 1 0 = some (0, zeros 32, 1) ∧ { hd with keyGen := none }.keyGen ≠ some 1 ∧
    freshSeq ((creditS 0).a.sender 0).high.toNat ((creditS 0).a.sender 0).marked 5 = false ∧
    ((creditS 0).a.sender 0).kept.find? (fun q => q.sameAs { hd with seq := 5 } .nop) = none ∧
    freshSeq ((creditS 16).a.sender 0).high.toNat ((creditS 16).a.sender 0).marked 6 = true ∧
    16 ≤ (creditS 16).a.outstandingOf 0 ∧ (creditS 15).a.outstandingOf 0 < 16 ∧
    soloS.earlyRefusal hd (.unknown 0xFFFF) = some .badOpcode := by decide +kernel

theorem wit_picks_ahead :
    (1000 < (1001#32 - 0#32).toNat ∧ (1001#32 - 0#32).toNat < 2 ^ 31) ∧ (1 ≤ (1000#32 - 0#32).toNat ∧ (1000#32 - 0#32).toNat ≤ 1000) ∧
    2 ^ 31 ≤ (0x80000000#32 - 0#32).toNat := by decide

def haltedS : State := soloS.onPkg (fun p => { p with halted := true })

theorem wit_halted_module : haltedS.pkg.halted = true ∧ codeAllowed haltedS.pkg.life false false (opCode .pick) = true ∧
    opCode .pick ∉ [0x0001, 0x0002, 0x0003, 0x0004, 0x0704, 0x0901, 0x0903, 0x0404, 0x0601, 0x0501, 0x0502, 0x0503] := by decide +kernel

/-- A command that has waited since beat 999,999,990. -/
def waitS (sent : Bool) : State :=
  solo (fun x => x.onMan (fun m => { m with outstanding := [⟨hd, .pick, 0, 999999990, .pickTicket, sent, 999999990⟩] }))

/-- The commands of sender 0 with SEQ 1 that are due at a beat and have had no PENDING. -/
def dueAt (s : State) (beat : Nat) : List Outstanding :=
  s.a.man.outstanding.filter (fun q => q.hdr.sender = some 0 && q.hdr.seq = 1 && !q.pendingSent &&
    decide (q.beat + 4500000 ≤ max s.pkg.beat beat))

theorem wit_pending_reply :
    let o : Outstanding := ⟨hd, .pick, 0, 999999990, .pickTicket, false, 999999990⟩
    (waitS false).a.man.outstanding = [] ++ o :: [] ∧ o ∉ ([] : List Outstanding) ∧ (dueAt (waitS false) 1004499990).head? = some o ∧
    dueAt (waitS false) 1004499989 = [] ∧ dueAt (waitS true) 1004499990 = [] := by decide +kernel

theorem wit_both_captures : leaderGives .laneStatus = false ∧ duoS.pkg.outcomes = [] ∧ duoS.b.releases = true ∧
    (duoS.onPkg (fun p => { p with outcomes := [(hd, 1, 0, [])] })).pkg.outcomes = [(hd, 1, 0, [])] := by decide +kernel

theorem wit_life_cycle : State.reset.lifeOk ∧ (State.reset.onPkg (fun p => { p with life := .void })).lifeOk :=
  ⟨⟨fun _ _ h => (nomatch h), by decide⟩, fun _ _ h => (nomatch h), by decide⟩

/-! ### Application cores -/

/-- Core 0 of partition 0 runs at `pc`: two ADDI x0, x0, 0 and an illegal word of zeros. -/
def coreS (pc : Word) (g : Core → Core) : State :=
  solo (fun x => ((runsImage x).onPart 0 (fun p => { p with phase := .run, freeAtStart := 256 })).onCore 0 (fun k =>
    g { k with run := .running, pc := pc, mem := [(0, 0x13), (4, 0x13)] }))

theorem wit_core_runs (pc : Word) : (coreS pc id).a.running 0 = some 0 ∧ ((coreS pc id).a.core 0).pc = pc := by
  constructor <;> with_unfolding_all rfl

theorem wit_instruction_fetches :
    (coreS 12 id).a.fetch 0 0 = none ∧ (coreS 16 id).a.fetch 0 0 = none ∧
    (coreS 8 id).a.fetch 0 0 = some (0, 2) ∧ (coreS 10 id).a.fetch 0 0 = some (0, 2) ∧ decodeRv 0 2 = none ∧
    (coreS 0 id).a.fetch 0 0 = some (0x13, 4) ∧ (coreS 4 id).a.fetch 0 0 = some (0x13, 4) ∧
    decodeRv 0x13 4 = some (.opImm .add 0 0 0) := by decide +kernel

/-- Whatever the return address is, one of two addresses is not it: each case of a fetch is met by a core that is not there. -/
theorem wit_instruction_not_at_the_return_address (a b : Word) (h : a ≠ b) :
    ((coreS a id).a.core 0).pc ≠ (Config.execReturn &&& 0xFFFFFFFE#32) ∨ ((coreS b id).a.core 0).pc ≠ (Config.execReturn &&& 0xFFFFFFFE#32) := by
  by_cases e : a = (Config.execReturn &&& 0xFFFFFFFE#32)
  · exact .inr (fun k => h (e.trans k.symm))
  · exact .inl e

theorem wit_private_stores :
    let k := (coreS 0 (fun k => k.setReg 1 0x7FFFF)).a.core 0
    (0x7FFFC : Nat) = (k.reg 0 + 0x7FFFC).toNat ∧ 0x7FFFC % 4 = 0 ∧ 0x7FFFC + 4 ≤ 0x80000 ∧
    (0x7FFFF : Nat) = (k.reg 1 + 0).toNat ∧ 0x7FFFF % 1 = 0 ∧ 0x7FFFF + 1 ≤ 0x80000 ∧
    ((coreS 0 id).a.part 0).codeLen ≤ 12 ∧ (12 : Nat) = (k.reg 0 + 12).toNat := by decide +kernel

theorem wit_loads :
    (coreS 0 id).mayRead .a 0 0x7FFFC 4 = true ∧ 0x7FFFE % 4 ≠ 0 ∧
    (coreS 0 id).mayRead .a 0 0x80000 4 = false ∧ inBlocks 0x80000 = false ∧
    (coreS 0 id).mayRead .a 0 (blockBase + 1) 1 = false ∧ (coreS 0 id).a.collects = true := by decide +kernel

/-- Core 0 of partition 1 with `n` buffered words of the shared window. -/
def bufS (n : Nat) : State :=
  solo (fun x => (x.onPart 0 (fun p => { p with state := .running, grant := 3, current := some (img 1), phase := .run })).onCore 0 (fun k =>
    { k with run := .running, wbuf := (List.range n).map (fun i => (0x4000000 + i, 1)) }))

theorem wit_write_buffer :
    (((bufS 2048).a.core 0).wbuf.lookup 0x400F000 = none ∧ 2048 ≤ ((bufS 2048).a.core 0).wbuf.length) ∧
    ((bufS 2048).a.core 0).wbuf.lookup 0x4000000 ≠ none ∧ ((bufS 2047).a.core 0).wbuf.length < 2048 ∧
    (bufS 2048).mayWrite .a 0 0x1003C000 4 = true ∧ isPrivate 0x1003C000 = false ∧ ((bufS 2048).a.part 0).atOnce 0x1003C000 = false := by
  decide +kernel

theorem wit_environment_calls :
    let s := coreS 0 (fun k => { k with pickCalls := 7, regs := [(10, 16), (11, 0x7FF00), (12, 256)] })
    let x := s.a
    s.a.running 0 = some 0 ∧ (x.core 0).pickCalls < 8 ∧ 8 ≤ ((coreS 0 (fun k => { k with pickCalls := 8 })).a.core 0).pickCalls ∧
    ((x.core 0).reg 10).toNat = 16 + 0 ∧ ((x.core 0).reg 12).toNat ≤ ringLargest 16 ∧ s.bufferReads .a 0 ((x.core 0).reg 11).toNat 256 = true ∧
    (x.part 0).postSlots + slotsOf 256 ≤ (x.part 0).freeAtStart ∧
    x.coreRank 0 0 = 0 ∧ s.bufferWrites .a 0 0x7FF00 256 = true ∧ x.takeable 0 0 = none ∧ x.takeable 0 32 = none := by decide +kernel

/-- `coreS` with an entry of three bytes visible in ring 0, which the cycle of partition 0 sees. -/
def ringS : State :=
  let s := coreS 0 (fun k => { k with regs := [(11, 0x7FF00), (12, 3)] })
  { s with a := s.a.onRing 0 (fun g => { g with entries := [{ bytes := [1, 2, 3] }] }) }

theorem wit_ring_take :
    ringS.a.takeable 0 0 = some { bytes := [1, 2, 3] } ∧ ringS.bufferWrites .a 0 0x7FF00 3 = true ∧
    (ringS.a.putBytes 0 0 0x7FF00 [1, 2, 3]).isSome = true ∧ ((ringS.a.core 0).reg 10).toNat = 0 ∧
    ringS.bufferWrites .a 0 0 32 = false ∧ ringS.bufferWrites .a 0 12 32 = true ∧
    (ringS.a.putBytes 0 0 12 (List.replicate 32 1)).isSome = true := by decide +kernel

theorem wit_write_buffer_block_space :
    let a := blockBase + 4 * 65536 + 0x1000
    (bufS 2048).mayWrite .a 0 a 4 = false ∧ inBlocks a = true ∧
    (bufS 2048).coreBlockWrite .a 0 0 a 1 = (bufS 2048).bufferWord .a 0 (a / 4) 1 ∧
    ((bufS 2048).a.core 0).wbuf.lookup (a / 4) = none := by decide +kernel

/-! ### Registers, mailboxes and rings -/

/-- `soloS` with a mailbox of the lane manager that is capturing, and a calendar mailbox frozen since beat 1,000,000,000. -/
def mbxS : State :=
  solo (fun x => (x.onMbx .keyMeas .manager (fun b => { b with capture := some [1, 2] })).onMbx .rtcTime .service (fun b =>
    { b with frozen := some 1000000000 }))

theorem wit_mailboxes :
    soloS.a.managed = true ∧ (coreS 0 id).a.running 0 = some 0 ∧ (bitOf 1 0 = true ∧ (soloS.a.mailbox .keyMeas .manager).capture = none) ∧
    soloS.pkg.dom.t3Lost = false ∧ (mbxS.a.mailbox .keyMeas .manager).capture = some [1, 2] ∧
    mbxKey .keyMeas .service ≠ mbxKey .keyMeas .manager ∧ (mbxS.a.mailbox .rtcTime .service).frozen = some 1000000000 ∧
    1000000000 + 1000000 ≤ max mbxS.pkg.beat 1001000000 ∧ max mbxS.pkg.beat 1000999999 < 1000000000 + 1000000 := by decide +kernel

/-- Ring 63 with three entries, the first visible, and one consumed slot. -/
def bellS : State := solo (fun x => x.onRing 63 (fun g => { g with
  entries := [{ bytes := [1] }, { bytes := [2], visible := false }, { bytes := [3], visible := false }], consumed := [1] }))

theorem wit_doorbells :
    let g := bellS.a.ring 63
    bellS.a.managed = true ∧ 2 ≤ g.entries.length - g.visible ∧ g.entries.length - g.visible < 3 ∧ 2 ≤ g.consumed.length + g.visible ∧
    g.consumed.length + g.visible < 3 := by decide +kernel

/-- `soloS` with bus 7 in bus-off. -/
def busOffS : State := solo (fun x => x.onBus 7 (fun b => { b with ctl := 0x80000000, state := 2, recovering := false }))

theorem wit_register_writes :
    busOffS.a.managed = true ∧ scopeInRange (field 0x30007 18 16) (field 0x30007 15 0) = true ∧ bitOf 0x10 4 = true ∧ (busOffS.a.bus 7).state = 2 ∧
    blockBase % 4 = 0 ∧ inBlocks blockBase = true ∧ inBlocks (blockBase + 15 * 65536) = false ∧ (blockBase + 2) % 4 ≠ 0 ∧
    ((coreS 0 id).coreBlockWrite .a 0 0 (blockBase + 65536) 1).isSome = true ∧
    (bufS 2048).coreBlockWrite .a 0 0 (blockBase + 4 * 65536 + 0x1000) 1 = none := by decide +kernel

def post (l : LaneId) : Post := { lane := l, reg := .chg, words := [0x13] }
/-- `duoS` with a write of RTC_CHG by both lanes in progress. -/
def postS : State := duoS.onPkg (fun p => { p with dom := { p.dom with busy := [post .a, post .b] } })
def t3S : State := soloS.onPkg (fun p => { p with dom := { p.dom with t3Lost := true } })

/-- RTC_SET_0 and RTC_SET_1 hold 2999-12-31 23:59:59. -/
def dateS : State := solo (fun x => { x with rtcSet0 := 0x00173B3B, rtcSet1 := 0x1F0C0BB7 })

theorem wit_posted_writes :
    t3S.pkg.dom.t3Lost = true ∧ postS.pkg.dom.t3Lost = false ∧ postS.pkg.dom.isBusy .a .chg = true ∧ soloS.pkg.dom.isBusy .a .chg = false ∧
    postS.pkg.dom.busy.find? (fun q => q.lane = .a && q.reg = .chg) = some (post .a) ∧ postS.a.rtcPosts = [] ∧
    postS.active = some .a ∧ postS.pkg.dom.busy.find? (fun q => q.lane = .b && q.reg = .chg) = some (post .b) ∧
    bitOf 1 0 = true ∧ dateOk (setDate dateS.a.rtcSet0 dateS.a.rtcSet1) = true ∧
    dateOk (setDate soloS.a.rtcSet0 soloS.a.rtcSet1) = false := by decide +kernel

/-- A TRIM of -512 is out of range; the calendar of the reset machine counts with rate trim 0. -/
theorem wit_posted_trim :
    pwOk .trim = true ∧ field 0x200 9 0 = 512 ∧ PwReg.trim ≠ .setGo ∧ (post .a).hdr = none ∧ soloS.pkg.dom.t3Lost = false ∧
    soloS.pkg.dom.trim = 0 ∧ soloS.pkg.dom.trimNow = 0 ∧ soloS.pkg.dom.cal.sub < 32768 := by decide +kernel

/-- A recorder that is frozen, and requests to freeze and to thaw. -/
theorem wit_recorder_freeze :
    let r := ({ soloS.a.blk.recd with pendingFreeze := some true, frozen := false } : RecBlk)
    let q := ({ soloS.a.blk.recd with pendingFreeze := some false, frozen := true } : RecBlk)
    r.pendingFreeze = some true ∧ r.frozen = false ∧ q.pendingFreeze = some false ∧ q.frozen = true ∧ soloS.a.blk.recd.pendingFreeze = none ∧
    (1 : Nat) ≠ 0 ∧ bitOf 0x10 4 = true := by decide +kernel

/-- The last second of the calendar, with alarm 3 due. -/
def lastS : State := duoS.onPkg (fun p => { p with dom := { p.dom with
  timeValid := true, cal := { date := ⟨2999, 12, 31, 23, 59, 59⟩, sub := 0 }, alarms := [(3, { minute := 525949919, en := true })] } })

theorem wit_calendar_events :
    lastS.pkg.dom.alarmDue 3 = true ∧ (dtNext lastS.pkg.dom.cal.date).isNone = true ∧ lastS.pkg.dom.t3Lost = false ∧ (2399 : Nat) < 2400 ∧
    t3S.pkg.dom.t3Lost = true := by decide +kernel

/-- R459 and the calendar of the civil year: 29 February in 2000 and not in 2100; the day after 28 February. -/
theorem test_calendar :
    dateOk ⟨2000, 2, 29, 0, 0, 0⟩ = true ∧ dateOk ⟨2100, 2, 29, 0, 0, 0⟩ = false ∧ dateOk ⟨1999, 12, 31, 0, 0, 0⟩ = false ∧
    dateOk ⟨3000, 1, 1, 0, 0, 0⟩ = false ∧ dtNext ⟨2000, 2, 28, 23, 59, 59⟩ = some ⟨2000, 2, 29, 0, 0, 0⟩ ∧
    dtNext ⟨2100, 2, 28, 23, 59, 59⟩ = some ⟨2100, 3, 1, 0, 0, 0⟩ ∧ dtNext ⟨2999, 12, 31, 23, 59, 59⟩ = none := by decide +kernel

/-! ### Keys, picks and epochs -/

theorem wit_key_events : soloS.armed .mesh = true ∧ (soloS.onPkg (fun p => { p with life := .maker })).armed .mesh = false ∧
    (soloS.onPkg (fun p => { p with life := .maker })).pkg.life = .maker := by decide +kernel

def reqA : PickReq := ⟨.core 0, 3, .a⟩

theorem wit_pick_requests :
    let s := duoS.onPkg (fun p => { p with pickReqs := [reqA] })
    let r := s.onPkg (fun p => { p with accepted := [(⟨.core 0, 3, .b⟩, 1)] })
    s.active = some .a ∧ s.pkg.pickReqs = [reqA] ∧
    r.pkg.accepted.find? (fun a => a.1.who = reqA.who && a.1.count = reqA.count) = some (⟨.core 0, 3, .b⟩, 1) ∧
    s.pkg.accepted.find? (fun a => a.1.who = reqA.who && a.1.count = reqA.count) = none := by decide +kernel

/-- `duoS` with the last pick number open, two requests waiting, and the last closure 10 µs before beat 1,000,001,000. -/
def closeS : State :=
  { duoS with pkg := { duoS.pkg with waitingReqs := 2, lastClose := some 1000000000 }
              a := { duoS.a with blk := { duoS.a.blk with pick := { duoS.a.blk.pick with opened := 0xFFFFFFFF } } } }

theorem wit_pick_close :
    closeS.active = some .a ∧ closeS.pkg.waitingReqs ≠ 0 ∧ closeS.epochsRun = true ∧ closeS.pkg.lastClose = some 1000000000 ∧
    closeS.a.inbox = [] ∧
    1000000000 + 1000 ≤ max closeS.pkg.beat 1000001000 ∧ max closeS.pkg.beat 1000000999 < 1000000000 + 1000 ∧
    closeS.a.blk.pick.opened = 0xFFFFFFFF#32 ∧ closeS.b.releases = true ∧ duoS.pkg.waitingReqs = 0 := by decide +kernel

def closeInfo : CloseInfo := { n := 1, beat := 1000000000, frames := [], cycles := [], details := 0, coalesced := 0 }
def closedOne (theirs : Option (List Event)) (x : Lane) : Lane := { x with closed := [⟨closeInfo, [], true, theirs⟩] }

theorem wit_waiting_close : Msg.close closeInfo ∈ ({ closeS with a := { closeS.a with inbox := [.close closeInfo] } } : State).a.inbox ∧
    closeS.active = some .a := by decide +kernel

theorem wit_epoch_rows :
    let inB := fun (m : Msg) => ({ duoS with b := { duoS.b with inbox := [m] } } : State)
    (inB (.close closeInfo)).b.inbox.findSome? closeOf = some closeInfo ∧ closeInfo.n = duoS.b.blk.pick.opened ∧ duoS.b.releases = true ∧
    (closedOne none { duoS.a with inbox := [.epoch 1 []] }).inbox.findSome? epochOf = some (1, []) ∧
    (closedOne none duoS.a).closed.any (fun c => c.info.n = 1) = true ∧ (duo (closedOne (some []))).a.meetsClose closeInfo = true ∧
    (solo (closedOne none)).solo .a = true ∧ (solo (closedOne none)).a.meetsClose closeInfo = true ∧
    duoS.a.inService = true ∧ duoS.b.inService = true ∧ duoS.a.faultLine = false ∧ duoS.b.faultLine = false ∧
    closeInfo.beat + 120000 ≤ max duoS.pkg.beat 1000120000 ∧
    duoS.idleExecutive .a = true ∧ (duoS.a.part 0).startBeat + 100000 ≤ duoS.pkg.beat := by decide +kernel

/-! ### Cycles of programs -/

def cycleS (f : Part → Part) : State := duo (fun x => (runsImage x).onPart 0 f)
def info0 : ReadyInfo := ⟨0, 8, 10000000, false, 5, soloS.snapOf .a⟩

theorem wit_ranks :
    let s := cycleS (fun p => { p with phase := .pick })
    (s.a.part 0).coreList = [0, 1] ∧ (s.a.part 0).phase = .pick ∧ s.a.isReleased (s.a.part 0).ticket = true ∧
    (s.a.part 0).runImage = some (img 1) ∧ (s.a.part 0).stampDue = false ∧ s.a.inService = true := by decide +kernel

theorem wit_readiness :
    let i := cycleS (fun p => { p with startBeat := 999900000 })
    let r := cycleS (fun p => { p with phase := .ready, readyBeat := 999979999 })
    let t := cycleS (fun p => { p with phase := .ready, late := some 999900000 })
    let x := i.a
    (x.part 0).current = some (img 1) ∧ (x.part 0).restart = none ∧ (x.part 0).phase = .idle ∧ (x.part 0).state = .running ∧
    (x.part 0).startBeat + 100 * (img 1).minCycle ≤ max i.pkg.beat 0 ∧
    ((cycleS (fun p => { p with state := .starting })).a.part 0).state = .starting ∧
    (r.b.inService = true ∧ (r.a.part 0).phase = .ready ∧ (r.a.part 0).theirs = none ∧ (r.a.part 0).late = none ∧ (r.a.part 0).exch = none ∧
      (r.a.part 0).readyBeat + (r.a.part 0).lateLimit < max r.pkg.beat 0) ∧
    (t.a.part 0).late = some 999900000 ∧ 999900000 + msBeats ≤ max t.pkg.beat 0 ∧ t.b.faultLine = false := by decide +kernel

theorem wit_ready_received :
    ({ duoS.a with inbox := [.ready 0 info0] } : Lane).nextAbout 0 = some (.ready 0 info0) := rfl

/-- Both lanes of partition 1 wait with their READY of cycle 8, and a lane whose partner has sent READY of another cycle. -/
theorem wit_joint_start :
    let j := fun (theirs : Option ReadyInfo) => duo (fun x => x.onPart 1 (fun p =>
      { p with state := .running, phase := .ready, cycle := 7, own := some info0, theirs := theirs }))
    let w := (j (some { info0 with cycle := 9 })).a.part 1
    ((j none).a.part 1).phase = .ready ∧ ((j none).a.part 1).own.isSome = true ∧ ((j none).a.part 1).state = .running ∧
    duoS.b.inService = true ∧ soloS.b.inService = false ∧ duoS.active = some .a ∧ ((j (some info0)).a.part 1).theirs.isSome = true ∧
    (w.theirs.map (fun i => decide (i.cycle ≠ info0.cycle))) = some true ∧ ((j none).a.part 1).theirs.isNone = true := by decide +kernel

theorem wit_cycle_rows :
    let run := cycleS (fun p => { p with phase := .run, runBeat := 999900000 })
    let s : State := { run with a := run.a.onCore 0 (fun k => { k with run := .running }) }
    let ov : Lane := { run.a with inbox := [.overrun 0 8] }
    s.a.corePart 0 = some 0 ∧ (s.a.core 0).run = .running ∧ (s.a.part 0).phase = .run ∧ s.active = some .a ∧
    (s.a.part 0).runImage = some (img 1) ∧
    (s.a.part 0).coreList.any (fun c => decide ((s.a.core c).run ≠ .returned) &&
      decide (100 * (img 1).watchdog ≤ (s.a.part 0).used (s.a.core c) (max s.pkg.beat 0))) = true ∧
    ov.nextAbout 0 = some (.overrun 0 8) ∧ (ov.part 0).state = .running ∧
    ((cycleS (fun p => { p with restart := some ⟨1, 0, 0⟩ })).a.part 0).restart = some ⟨1, 0, 0⟩ ∧
    ((cycleS (fun p => { p with restart := some ⟨1, 0, 0⟩ })).a.part 0).phase = .idle ∧
    ((cycleS (fun p => { p with restart := some ⟨1, 0, 0⟩ })).a.part 0).state ≠ .safe := by decide +kernel

theorem wit_safe_partition :
    let s := cycleS (fun p => { p with state := .safe })
    (s.a.part 0).state = .safe ∧ (scopeBits 5 0).all (fun b => !s.a.hasCause b && !s.b.hasCause b) = true ∧
    (15 : Nat) < 16 ∧ (scopeBits 5 15).all (fun b => !s.a.hasCause b && !s.b.hasCause b) = true := by decide +kernel

def exch0 : Exchange := { hdr := hd, epoch := 0, beat := 800000000, image := img 2 }

theorem wit_exchange_rows :
    let s := cycleS (fun p => { p with exch := some exch0 })
    (s.a.part 0).exch = some exch0 ∧ s.a.inService = true ∧ exch0.staged = false ∧ s.a.flash.loaded.lookup 0 = none ∧
    s.a.installBegun 0 = false ∧ s.b.installBegun 0 = false ∧ exch0.beat + 200000000 ≤ max s.pkg.beat 0 ∧
    ({ s.a with inbox := [.planDigest 0 1] } : Lane).nextAbout 0 = some (.planDigest 0 1) ∧
    ({ s.a with inbox := [.install 0 8] } : Lane).nextAbout 0 = some (.install 0 8) := by decide +kernel

def save1 : Save := { number := 1, timeMs := 0, valid := true, parts := [], section_ := none, complete := false }

theorem wit_saves :
    let s := duo (fun x => x.onMan (fun m => { m with saveJob := some ⟨save1, 0, 0⟩ }))
    duoS.active = some .a ∧ duoS.a.inService = true ∧ duoS.a.man.saveAt = none ∧ duoS.a.blk.pwr.warn = false ∧
    duoS.a.man.lastSave + 100000 * duoS.a.blk.pwr.savePeriod ≤ max duoS.pkg.beat 0 ∧ duoS.b.inService = true ∧
    s.a.man.saveJob = some ⟨save1, 0, 0⟩ ∧ duoS.a.man.saveJob = none ∧
    ({ duoS.a with job := [(.image ⟨15, img 1, [], hd⟩, 0)] } : Lane).job = (.image ⟨15, img 1, [], hd⟩, 0) :: [] := by decide +kernel

theorem wit_digests :
    let d := duo (fun x => x.onLaneBlk (fun b => { b with digestDiff := some 999900000 }))
    let c : Lane := { (cycleS id).a with inbox := [.commitDigest 0 7 1] }
    c.nextDigest 0 = some (.commitDigest 0 7 1) ∧ c.inService = true ∧ (c.part 0).cycle = 7 ∧ (c.part 0).digest ≠ 1 ∧
    ({ duoS.a with inbox := [.stateDigest 0 1] } : Lane).nextDigest 0 = some (.stateDigest 0 1) ∧ duoS.a.blk.lane.digestNo = 0 ∧
    d.outputsDiffer = false ∧
    d.a.blk.lane.digestDiff = some 999900000 ∧ 999900000 + msBeats ≤ max d.pkg.beat 0 ∧ d.a.inService = true ∧ d.b.inService = true ∧
    d.a.faultLine = false ∧ d.b.faultLine = false := by decide +kernel

/-! ### Sample frames, output updates and the partner lane -/

def frame1 : SFrame := ⟨1, [], 0⟩
def frame2 : SFrame := ⟨2, [], 0⟩

theorem wit_sample_frames :
    let s := duo (fun x => { x with frameIn := [(7, frame1, true)], ownFrame := [(7, frame1, true)], inbox := [.frame 7 frame2 true] })
    s.a.frameIn.find? (fun e => e.1 = 7) = some (7, frame1, true) ∧ s.a.inService = true ∧ s.b.inService = true ∧ soloS.b.inService = false ∧
    s.a.ownFrame.lookup 7 = some (frame1, true) ∧ s.a.inbox.find? (frameMsg 7) = some (.frame 7 frame2 true) ∧
    frame1.number ≠ frame2.number ∧ frameMsg 7 (.frame 7 frame1 true) = true := by decide +kernel

def upd1 : Update := { region := 7, number := 1, again := 0, words := [], safe := [], cross := 0, beat := 999900000 }

/-- Lane A's update of region 7 arrives: alone, and as the pair of lane B's, which differs in unit 63 as the pair before it did. -/
theorem wit_updates_driven :
    let v : Update := { upd1 with words := [(63, 5)] }
    let s := (duo (fun x => { x with updates := [upd1] })).onFe 7 (fun f => { f with waitB := [v], lastDiff := [63] })
    let t := solo (fun x => { x with updates := [upd1] })
    t.a.updates.find? (fun u => u.region = 7) = some upd1 ∧ t.b.inService = false ∧ t.active = some .a ∧ (t.fe 7).disagree = [] ∧
    s.a.inService = true ∧ s.b.inService = true ∧ s.a.updates.find? (fun u => u.region = 7) = some upd1 ∧
    ((s.fe 7).waitOf .b).find? (fun v => v.number = upd1.number && v.again = upd1.again) = some v ∧
    tget 0 upd1.words 63 ≠ tget 0 v.words 63 ∧ 63 ∈ (s.fe 7).lastDiff ∧ (s.fe 7).agreedSafe.contains 63 = false := by decide +kernel

theorem wit_output_updates :
    let s := duoS.onFe 7 (fun f => { f with updA := some upd1 })
    let d := duoS.onFe 7 (fun f => { f with disagreeBeat := some 999900000 })
    ({ duoS.a with updates := [upd1] } : Lane).updates.find? (fun u => u.region = 7) = some upd1 ∧
    tget 0 duoS.a.lastUpdate 7 + 50000 ≤ duoS.pkg.beat ∧
    (s.fe 7).updateOf .a = some upd1 ∧ upd1.beat + 100000 ≤ s.pkg.beat ∧
    max (duoS.onFe 7 (fun f => { f with updA := some { upd1 with beat := 999900001 } })).pkg.beat 0 < 999900001 + 100000 ∧
    (d.fe 7).disagreeBeat = some 999900000 ∧ 999900000 + msBeats ≤ d.pkg.beat := by decide +kernel

theorem wit_partner_link :
    let lone := duo (fun x => x.onLaneBlk (fun b => { b with sub0Beat := 999995000 }))
    let quiet : State := { duoS with b := duoS.b.onLaneBlk (fun b => { b with hbBeat := 999998000 }) }
    let fb := fun (n : Nat) (x : Lane) => (x.onLaneBlk (fun b => { b with lBeat := some n })).onFlt (fun f => { f with sticky := [163] })
    let both : State := { duoS with a := fb 999900000 duoS.a, b := fb 1000000000 duoS.b }
    duoS.a.blk.lane.role ≠ .off ∧ duoS.b.blk.lane.role ≠ .off ∧ lone.a.inService = true ∧ lone.a.blk.lane.sub0 = true ∧
    lone.a.blk.lane.sub0Beat + 5000 ≤ lone.pkg.beat ∧ lone.a.blk.lane.sub1 = true ∧
    quiet.a.inService = true ∧ quiet.b.inService = true ∧ quiet.b.faultLine = false ∧ quiet.b.blk.lane.hbBeat + 2000 ≤ quiet.pkg.beat ∧
    both.a.blk.lane.lBeat = some 999900000 ∧ both.b.blk.lane.lBeat = some 1000000000 ∧ 1000000000 ≤ 999900000 + msBeats ∧
    both.a.faultLine = true ∧ both.b.faultLine = true ∧ duoS.a.faultLine = false ∧
    ({ duoS.a with inbox := [.notice 162] } : Lane).inbox.find? isNotice = some (.notice 162) := by decide +kernel

/-- `duoS` with lane B at step `n` of a rejoin. -/
def rejoinS (role : Role) (n : Nat) : State := { duoS with b := duoS.b.onLaneBlk (fun b => { b with role := role, rejoinStep := n }) }

theorem wit_class_l :
    let gone : State := { duoS with b := duoS.b.onLaneBlk (fun b => { b with role := .selftest }) }
    gone.a.inService = true ∧ gone.a.blk.lane.paired = true ∧ gone.b.inService = false ∧ gone.b.blk.lane.role ≠ .halted ∧
    bitClass 163 = 2 ∧ duoS.a.collects = true ∧ duoS.a.blk.lane.role ≠ .halted ∧ duoS.a.hasBit 163 = false ∧ duoS.pkg.halted = false ∧
    gone.a.hasBit 163 = false ∧ gone.pkg.halted = false ∧ duoS.a.inService = true ∧ duoS.b.inService = true := by decide +kernel

theorem wit_rejoin :
    (rejoinS .selftest 1).a.inService = true ∧ (rejoinS .selftest 1).b.noLink = false ∧ (rejoinS .selftest 1).b.blk.lane.role = .selftest ∧
    (rejoinS .selftest 2).b.blk.lane.rejoinStep = 2 ∧ (rejoinS .transfer 3).b.blk.lane.role = .transfer ∧
    (rejoinS .transfer 4).b.noLink = false ∧ ((rejoinS .transfer 5).a.part 15).state ≠ .running ∧
    ((rejoinS .transfer 6).a.group 7).awaiting = false ∧ (rejoinS .transfer 7).a.closed = [] ∧
    (rejoinS .transfer 7).b.bootMeas = (rejoinS .transfer 7).a.bootMeas := by decide +kernel

/-- Measurements that differ keep a lane from joining. -/
theorem wit_rejoin_differs :
    (({ rejoinS .transfer 7 with b := (rejoinS .transfer 7).b.onKey (fun k => { k with meas := [(0, [1])] }) } : State).b.bootMeas ≠
      (rejoinS .transfer 7).a.bootMeas) := by decide +kernel

/-! ### Front-end dies and the heddle matrix -/

/-- `duoS` with region 7 running, units of type DO in cluster 7, and `f` applied to the die. -/
def feS (f : FrontEnd → FrontEnd) : State :=
  { duoS with
    a := outputs duoS.a
    b := outputs duoS.b
    pkg := (duoS.onFe 7 (fun e => f { e with running := true, image := some (readImage [(0, 1), (2, 7)]) })).pkg }

theorem wit_region_frames :
    let s : State := { feS id with a := (feS id).a.onPnt (fun b => { b with pendingUnits := [(511, 0, 0, 0)] }) }
    (duoS.fe 7).running = false ∧ ((feS id).fe 7).running = true ∧ (feS id).a.inService = true ∧ soloS.b.inService = false ∧
    s.a.collects = true ∧ s.a.blk.pnt.pendingUnits = [(511, 0, 0, 0)] ∧ 511 / 64 = 7 ∧ (feS id).cfgLane.blk.pnt.pendingUnits = [] ∧
    (feS id).cfgLane.blk.pnt.retyped = [] := by decide +kernel

theorem wit_front_end_reports :
    ((feS id).fe 7).running = true ∧ (feS id).cfgLane.unitType (64 * 7 + (8 * 7 + 15 % 8)) ≠ 0 ∧ (feS id).a.collects = true ∧
    ((feS id).fe 7).overcurrent.contains (8 * 7 + 15 % 8) = false ∧ isOutputType ((feS id).cfgLane.unitType 511) = true ∧
    ((feS (fun f => { f with internalFault := true })).fe 7).internalFault = true ∧
    (solo (fun x => x.onLaneBlk (fun b => { b with hbBeat := 999998000 }))).a.blk.lane.hbBeat + 2000 ≤ soloS.pkg.beat ∧
    soloS.b.blk.lane.heartbeat = false ∧ (duoS.a.blk.lane.heartbeat = true ∧ max duoS.pkg.beat 0 < duoS.a.blk.lane.hbBeat + 2000) := by
  decide +kernel

/-- The planes of region 7 have differed for 1 µs and not longer, or for one beat more; both lanes' heartbeats are old. -/
theorem wit_planes :
    let d := fun (n : Nat) => feS (fun f => { f with planeDiff := some n })
    let dead := fun (x : Lane) => x.onLaneBlk (fun b => { b with hbBeat := 999998000 })
    let u : State := { feS id with a := dead (feS id).a, b := dead (feS id).b }
    ((feS id).fe 7).planeDiff = none ∧ ((d 999999899).fe 7).planeDiff = some 999999899 ∧ 999999899 + 100 < (d 999999899).pkg.beat ∧
    ¬ (999999900 + 100 < (d 999999900).pkg.beat) ∧ ((d 999999899).fe 7).running = true ∧
    (u.fe 7).running = true ∧ u.a.blk.lane.hbBeat + 2000 ≤ max u.pkg.beat 0 ∧ u.b.blk.lane.hbBeat + 2000 ≤ max u.pkg.beat 0 ∧
    u.active = some .a := by decide +kernel

theorem wit_literals :
    let s := feS (fun f => { f with vectorBeat := 999990000 })
    let v := duo (fun x => x.onHed (fun h => { h with vectors := [(7, 1, 0, 0, 999980000)] }))
    ((feS id).fe 7).running = true ∧ ((feS id).fe 7).image.isSome = true ∧ (s.fe 7).vectorBeat + 10000 ≤ max s.pkg.beat 0 ∧
    max (feS (fun f => { f with vectorBeat := 999990001 })).pkg.beat 0 < 999990001 + 10000 ∧
    ({ duoS.a with vectorIn := [(7, 1, 0, 0)] } : Lane).vectorIn.find? (fun v => v.1 = 7) = some (7, 1, 0, 0) ∧
    v.a.blk.hed.vectors.lookup 7 = some (1, 0, 0, 999980000) ∧ 999980000 + 20000 ≤ max v.pkg.beat 0 ∧ ¬ (999980001 + 20000 ≤ max v.pkg.beat 0) := by
  decide +kernel

def inh1 : Inhibit := ⟨7, 0, 1, 0⟩

theorem wit_inhibits :
    let s := (feS (fun f => { f with inhB := [inh1] }))
    soloS.b.blk.lane.gatesClosed = true ∧ duoS.a.blk.lane.gatesClosed = false ∧
    ({ duoS.a with inhibits := [inh1] } : Lane).inhibits.find? (fun m => m.region = 7) = some inh1 ∧ duoS.active = some .a ∧
    duoS.active = some LaneId.b.other ∧ duoS.a.faultLine = false ∧ duoS.a.blk.lane.heartbeat = true ∧
    ((s.fe 7).inhOf .b).find? (fun q => q.source = inh1.source && q.vector = inh1.vector) = some inh1 := by decide +kernel

def commit (step : Nat) : HedCommit := ⟨readImage [(0, 1), (2, 7)], 0, step, hd, 0, 1000000000⟩

/-- `duoS` with a commit of region 7 at step `n` in lane A. -/
def commitS (n : Nat) : State := duo (fun x => x.onHed (fun b => { b with commit := [(7, commit n)] }))

theorem wit_heddle_commit (n : Nat) :
    (commitS n).a.blk.hed.commit.lookup 7 = some (commit n) ∧ (commit n).step = n ∧ (commitS n).pkg.halted = false ∧
    (commitS n).a.blk.pwr.warn = false ∧ (commitS n).b.blk.hed.commit.lookup 7 = none ∧ (commitS n).active = some .a ∧
    (1 : Word) ≠ (commit n).expected ∧ max (commitS n).pkg.beat 6499999999 < (commit n).beat + abandonBeats ∧
    (commit n).beat + abandonBeats ≤ max (commitS n).pkg.beat 6500000000 :=
  ⟨rfl, rfl, rfl, rfl, rfl, rfl, by change (1 : Word) ≠ 0; decide,
    by change max 1000000000 6499999999 < 1000000000 + 5500000000; decide,
    by change 1000000000 + 5500000000 ≤ max 1000000000 6500000000; decide⟩

/-- In the first step of a commit nothing of a region's commit stands with the lane that has no partner in service. -/
theorem wit_heddle_overlap : (commitS 5).pkg.halted = false ∧ ((feS (fun f => { f with old := some (readImage [(0, 1)]) })).fe 7).old.isSome = true ∧
    (commit 5).step = 5 ∧ (commitS 5).active = some .a := by decide +kernel

theorem wit_crc_checks :
    let h := fun (x : Lane) => x.onHed (fun b => { b with crc := [(7, 5)], image := [(7, readImage [(0, 1), (2, 7)])] })
    let s : State := { feS id with a := h (feS id).a, b := h (feS id).b }
    (s.fe 7).running = true ∧ (s.fe 7).image.isSome = true ∧ tget 0 s.a.blk.hed.crc 7 = 5 ∧ tget 0 s.b.blk.hed.crc 7 = 5 ∧
    (s.a.inService = true ∧ tget 0 s.a.blk.hed.crc 7 ≠ 6) ∧ (s.a.blk.hed.image.lookup 7).isSome = true := by decide +kernel

/-! ### Loops and metering -/

/-- A state with group 7 of lane A enabled and sampled last at beat 999,900,000. -/
def groupS (s : State) (f : GroupSt → GroupSt) : State :=
  { s with a := ({ s.a with blk := { s.a.blk with loop := { s.a.blk.loop with en := true } } }).onGroup 7 (fun o =>
      f { o with en := true, enNow := true, instant := 999900000, sample := 9999 }) }

def msg1 : SampleMsg := ⟨7, 10000, 1000000000, [], 0, [], 0, 0, false, []⟩

theorem wit_samples :
    let s := groupS soloS id
    let d := groupS duoS id
    s.active = some .a ∧ s.a.inService = true ∧ s.b.inService = false ∧ s.a.groupLive 7 = true ∧
    max s.pkg.beat 0 % (100 * (s.a.group 7).period) = 0 ∧ (s.a.group 7).instant ≠ max s.pkg.beat 0 ∧ (s.a.group 7).awaiting = false ∧
    (s.a.group 7).delayed = false ∧ d.b.inService = true ∧ d.a.groupLive 7 = true ∧ (d.b.group 7).awaiting = false ∧
    soloS.a.groupLive 7 = false ∧
    (s.a.group 7).complete ≤ max s.pkg.beat 0 ∧ (d.b.group 7).complete ≤ max d.pkg.beat 0 ∧
    (List.range 8).all (fun h => !(s.a.servedBefore h 7 && s.a.sampleDue h (max s.pkg.beat 0))) = true ∧
    (List.range 8).all (fun h => !(d.a.servedBefore h 7 && (d.a.pendingSample h).isSome)) = true ∧
    ({ s.a with inbox := [.sample msg1] } : Lane).inbox.find? (groupMsg 7) = some (.sample msg1) ∧
    ((groupS duoS (fun o => { o with msgs := [msg1] })).a.group 7).msgs.head? = some msg1 ∧
    (groupS duoS (fun o => { o with msgs := [msg1] })).a.canCompute msg1 = true ∧
    (groupS duoS (fun o => { o with msgs := [msg1] })).a.canCompute { msg1 with pick := 1 } = false := by decide +kernel

theorem wit_judgements :
    let f := groupS duoS (fun o => { o with frames := some [], instant := 999999902 })
    let j := groupS duoS (fun o => { o with judged := some true, instant := 999999900 })
    let q : State := { duoS with b := (duoS.b.onGroup 7 (fun o => { o with awaiting := true, instant := 999900000 })) }
    let t : State := { duoS with b := (duoS.b.onGroup 7 (fun o => { o with awaiting := true, late := some 999900000 })) }
    f.active = some .a ∧ (f.a.group 7).frames.isSome = true ∧ (f.a.group 7).judged = none ∧
    (f.a.group 7).instant + (f.a.group 7).phaseNow ≤ max f.pkg.beat 0 + 2 ∧
    ({ f.a with inbox := [.judgement 7 9999 true 5] } : Lane).inbox.find? (groupMsg 7) = some (.judgement 7 9999 true 5) ∧
    (((groupS duoS id).a.onGroup 7 (fun o => { o with awaiting := true })).group 7).awaiting = true ∧
    (f.a.group 7).sample = 9999 ∧ (j.a.group 7).judged = some true ∧ (j.a.group 7).delayed = false ∧ (j.a.group 7).awaiting = false ∧
    (j.a.group 7).instant + (j.a.group 7).phaseNow ≤ max j.pkg.beat 0 ∧
    max (groupS duoS (fun o => { o with instant := 999999901 })).pkg.beat 0 < 999999901 + (j.a.group 7).phaseNow ∧
    q.active ≠ some .b ∧ (q.b.group 7).awaiting = true ∧ (q.b.group 7).late = none ∧ q.b.faultLine = false ∧ q.b.inService = true ∧
    (q.b.group 7).instant + 100000 ≤ max q.pkg.beat 0 ∧ (t.b.group 7).late = some 999900000 ∧ 999900000 + msBeats ≤ max t.pkg.beat 0 := by
  decide +kernel

/-- Groups 6 and 7 of the same PERIOD stand at one instant, and group 6 is served first. -/
theorem wit_service_order :
    let on := fun (g : Nat) (x : Lane) => x.onGroup g (fun o => { o with en := true, enNow := true, instant := 999900000, sample := 9999 })
    let s := solo (fun x => { on 6 (on 7 x) with blk := { (on 6 (on 7 x)).blk with loop := { (on 6 (on 7 x)).blk.loop with en := true } } })
    s.active = some .a ∧ s.a.servedBefore 6 7 = true ∧ s.a.sampleDue 6 (max s.pkg.beat 0) = true ∧
    s.a.servedBefore 7 6 = false := by decide +kernel

/-- Lane B still awaits the sample of an instant that comes again; lane A awaits the very sample that a judgement names. -/
theorem wit_late_computation :
    let s := groupS duoS id
    let t : State := { s with b := s.b.onGroup 7 (fun o => { o with awaiting := true }) }
    let u : State := { s with b := s.b.onGroup 7 (fun o => { o with complete := 1000000001 }) }
    let w := groupS duoS (fun o => { o with awaiting := true })
    t.active = some .a ∧ t.a.groupLive 7 = true ∧ (t.b.group 7).awaiting = true ∧ max u.pkg.beat 0 < (u.b.group 7).complete ∧
    (u.a.group 7).instant ≠ max u.pkg.beat 0 ∧ (w.a.group 7).awaiting = true ∧ (w.a.group 7).sample = 9999 ∧
    (List.range 8).all (fun h => !(t.a.servedBefore h 7 && t.a.sampleDue h (max t.pkg.beat 0))) = true := by decide +kernel

def nrgS (s : State) (f : NrgBlk → NrgBlk) : State :=
  { s with a := s.a.onNrg (fun b => f { b with en := true }), pkg := { s.pkg with order := .m96 } }

theorem wit_metering :
    let s := nrgS duoS (fun b => { b with blocks := [(1, [], [])], window := 99 })
    s.a.inService = true ∧ s.a.blk.nrg.en = true ∧ s.b.inService = true ∧ (nrgS soloS id).b.inService = false ∧
    s.a.blk.nrg.blocks = [(1, [], [])] ∧
    ({ s.a with inbox := [.block 1 [] [] 0] } : Lane).inbox.find? (fun q => match q with | .block n .. => decide (n = 1) | _ => false) =
      some (.block 1 [] [] 0) ∧
    s.active = some .a ∧ s.active ≠ some .b ∧ max s.pkg.beat 0 % 10000000 = 0 ∧ s.a.blk.nrg.window < max s.pkg.beat 0 / 10000000 ∧
    ({ s.a with inbox := [.window 100 0] } : Lane).inbox.find? (fun q => match q with | .window .. => true | _ => false) =
      some (.window 100 0) ∧ (0 : Word) = s.a.blk.pick.released ∧ (1 : Word) ≠ s.a.blk.pick.released ∧
    serialBefore 1 s.a.blk.pick.released = false := by decide +kernel

/-- Blocks come with a smaller number, with the engine off, on an M00 and with T4 lost; a window closes at a pick before the newest. -/
theorem wit_blocks :
    let s := nrgS duoS id
    s.pkg.order ≠ .m00 ∧ s.a.clockLost 4 = false ∧ s.a.blk.nrg.blockNo < max s.pkg.beat 0 / 100000 ∧ soloS.a.blk.nrg.en = false ∧
    ((nrgS duoS (fun b => { b with blockNo := 10000 })).a.blk.nrg.blockNo = max s.pkg.beat 0 / 100000) ∧
    (duoS.onPkg (fun p => { p with order := .m00 })).pkg.order = .m00 ∧ s.active ≠ some .b ∧ s.b.inService = true ∧
    serialBefore 0xFFFFFFFF s.a.blk.pick.released = true := by decide +kernel

theorem wit_pulses :
    let p := fun (f : PulseOut → PulseOut) => nrgS soloS (fun b => { b with pulses := [(23, f { backlog := 2, cfg := 0x80000000 })] })
    let off := p (fun q => { q with offBeat := some 996950000 })
    let on := p (fun q => { q with on := true, onBeat := 996800000 })
    23 < on.pkg.order.pulses ∧ (off.a.pulse 23).on = false ∧ pulseEn (off.a.pulse 23).cfg = true ∧ (off.a.pulse 23).backlog ≠ 0 ∧
    996950000 + 3050000 ≤ max off.pkg.beat 0 ∧ off.a.blk.pwr.warn = false ∧ (soloS.a.pulse 23).backlog = 0 ∧
    (on.a.pulse 23).on = true ∧ (on.a.pulse 23).onBeat + 3200000 ≤ max on.pkg.beat 0 ∧
    max on.pkg.beat 0 < 996800001 + 3200000 := by decide +kernel

theorem wit_spill :
    let x := (nrgS soloS (fun b => { b with circuits := [(5, { weight := 10, acc := 35 })] })).a
    (x.circuit 5).weight ≠ 0 ∧ (x.circuit 5).acc = ((35 : Nat) : Int) := by decide +kernel

/-! ### Network -/

def pair0 : PairCfg := { mac := 0x020000000001, ipv4 := 0x0A000001, prefixLen := 24 }

/-- `soloS` with port 0 enabled, linked and configured, filter 31 steering IPv4 to ring 48, and `f` applied to the port. -/
def netS (f : PortSt → PortSt) : State :=
  solo (fun x => (x.onNet (fun b => { b with
    ctl := 1, estate := pair0, filtAct := [(31, 0xF0FF0800)] })).onPort 0 (fun p => f { p with link := true }))

/-- A UDP datagram of ten bytes to the Skelkan port of `pair0`. -/
def udpFrame : Frame :=
  { dst := 0x020000000001, src := 0x020000000002, fcsOk := true, clientLen := 46, tags := [], etherType := 0x0800, prp := none,
    body := .ipv4 4 5 false true true 0x0A000002 0x0A000001 (.udp 49152 48620 0 (zeros 10)) }

theorem wit_net_frames :
    let s := netS id
    let x := s.a.netBoundary 0
    let c := (x.port 0).pair
    (x.port 0).en = true ∧ x.blk.lane.role ≠ .off ∧ dstOk c 0x020000000003#48 = false ∧ dstOk c udpFrame.dst = true ∧
    { udpFrame with fcsOk := false }.fcsOk = false ∧ { udpFrame with clientLen := 45 }.clientLen < 46 ∧
    9000 < { udpFrame with clientLen := 9001 }.clientLen ∧ groupBit 0x010000000000#48 = true ∧ groupBit udpFrame.src = false ∧
    46 ≤ udpFrame.clientLen ∧ x.blk.net.steer 0 { udpFrame with etherType := 0x88F7 } = none ∧ x.blk.net.steer 0 udpFrame = some 48 ∧
    (headerCheck c udpFrame).isSome = true ∧ headerCheck c { udpFrame with body := .ipv4 4 6 false true true 0 0x0A000001 (.other 17) } = none := by
  decide +kernel

def pauseFrame (op : Nat) : Frame := { udpFrame with dst := 0x0180C2000001, etherType := 0x8808, body := .pause op 0xFFFF }

/-- A port whose T1 is lost, PAUSE frames of opcodes 1 and 2, and ARP and ICMP frames at and below the limit of an interval. -/
theorem wit_port_limits :
    let lost := ({ netS id with a := { (netS id).a with lostClocks := [(1, 900000000)] } } : State).a.netBoundary 0
    let full := (netS (fun p => { p with arpCount := 100, icmpCount := 100 })).a.netBoundary 0
    let free := (netS (fun p => { p with arpCount := 99, icmpCount := 99 })).a.netBoundary 0
    let c := (free.port 0).pair
    let arp : Frame := { udpFrame with etherType := 0x0806, body := .arp true 0x0A000001 0x0A000002 }
    let icmp : Frame := { udpFrame with body := .ipv4 4 5 false true true 0x0A000002 0x0A000001 (.echo 1 1 []) }
    lost.clockLost 1 = true ∧ free.clockLost 1 = false ∧ dstOk c (pauseFrame 1).dst = true ∧
    (pauseFrame 1).body = .pause 1 0xFFFF ∧ (pauseFrame 2).body = .pause 2 0xFFFF ∧ headerCheck c arp = some .arp ∧
    headerCheck c icmp = some .icmp ∧ 100 ≤ (full.port 0).arpCount ∧ 100 ≤ (full.port 0).icmpCount ∧ (free.port 0).arpCount < 100 ∧
    (free.port 0).icmpCount < 100 := by decide +kernel

theorem wit_pause_rows :
    let p := (netS (fun p => { p with
      paused := some 1000000000, pausedSince := some 900000000, pauseSent := some 900000000
      pausing := true, pauseFirst := some 900000000 })).a.port 0
    p.paused = some 1000000000 ∧ p.pausedSince = some 900000000 ∧ 900000000 + secBeats ≤ max 1000000000 0 ∧ p.paused.isSome = true ∧
    p.pauseFirst = some 900000000 ∧ p.pausing = true ∧ p.pauseCapped = false ∧ 900000000 + quantaBeats 0xFFFF p.speed10 / 2 ≤ 1000000000 ∧
    p.pauseSent = some 900000000 ∧ ¬ ((1000000001 : Nat) ≤ 1000000000) := by decide +kernel

/-- Frames that wait in the intake of port 0 above PCT_LOW: 80 of 8,000 bytes of client data. -/
theorem wit_pause_fill :
    let e : Event := { kind := 3, stream := 0, part := 0, seq := 0, lane := .a, arrival := 0,
                       body := .net 0 (some { udpFrame with clientLen := 8000 }) 48 [] none src 0 }
    let x : Lane := { soloS.a with intake := List.replicate 80 e }
    pctLow (x.port 0).ctl < x.fillPercent 0 := by decide +kernel

def arpFrame : Frame := { udpFrame with etherType := 0x0806, body := .arp true 0x0A000001 0x0A000002 }
def solFrame : Frame := { udpFrame with etherType := 0x86DD, body := .ipv6 false true 1 1 (.solicit 1 255) }
def echoFrame : Frame := { udpFrame with body := .ipv4 4 5 false true true 0x0A000002 0x0A000001 (.echo 1 1 []) }
def eventPkt : EventPacket := ⟨1, [1], 940000000, 990000000⟩
def subA : Subscription := { via := .estate, src := src, kinds := 2, unacked := [eventPkt] }

theorem wit_network_services :
    let x : Lane := { (netS id).a with netQueue := [(0, arpFrame), (0, solFrame), (0, echoFrame)] }
    let s := solo (fun x => x.onSender 0 (fun v => { v with sub := some subA }))
    x.netQueue.find? (fun e => isArp e.2) = some (0, arpFrame) ∧ x.netQueue.find? (fun e => isSolicit e.2) = some (0, solFrame) ∧
    x.netQueue.find? (fun e => isEcho e.2) = some (0, echoFrame) ∧ (arpAnswer pair0 arpFrame).isSome = true ∧ 1000000000 % secBeats = 0 ∧
    soloS.a.blk.net.supNext ≤ max soloS.pkg.beat 0 ∧ (s.a.sender 0).sub = some subA ∧ subA.unacked = [eventPkt] ∧
    eventPkt.last + ageBeats ≤ max s.pkg.beat 0 ∧ s.a.releases = true ∧ eventPkt.first + 60 * secBeats ≤ max s.pkg.beat 6940000000 ∧
    max s.pkg.beat 6939999999 < eventPkt.first + 60 * secBeats ∧ 1000000000 < { eventPkt with last := 990000001 }.last + ageBeats := by
  decide +kernel

def tx1 : TxEntry := { ring := 56, beat := 999000000, prpSeq := 1, ipId := 1, dst := src, sport := 19537, payload := [1] }

theorem wit_transmit :
    let q := fun (s : State) => ({ s with a := { s.a with txRings := [tx1] } } : State)
    let x := ((q (netS id)).a.netBoundary 0).dropAged 0 1000000000
    let y := ((q (netS (fun p => { p with link := false }))).a.netBoundary 0).dropAged 0 1000000000
    let u := netS (fun p => { p with sending := some tx1, ctl := 0x00324B08 })
    (x.port 0).en = true ∧ x.blk.lane.gatesClosed = false ∧ (x.port 0).link = true ∧ (x.port 0).paused = none ∧ x.nextTx 0 = some (tx1, 0) ∧
    (y.port 0).link = false ∧ y.nextTx 0 = some (tx1, 0) ∧ soloS.b.blk.lane.gatesClosed = true ∧
    (u.a.port 0).sending = some tx1 ∧ u.cutThrough .a 0 = true ∧ tx1.resend = false ∧ u.a.collects = true ∧
    16 ≤ (1000000000 :: (List.replicate 15 900000001).filter (fun t => decide (1000000000 < t + secBeats))).length ∧
    ((netS (fun p => { p with sfHold := some 1000000000 })).a.port 0).sfHold = some 1000000000 := by decide +kernel

/-- The port of `wit_transmit` with a PAUSE in force, and one in a lane whose T1 is lost. -/
theorem wit_transmit_held :
    let q := fun (s : State) => ({ s with a := { s.a with txRings := [tx1] } } : State)
    let x := ((q (netS (fun p => { p with paused := some 1000000001 }))).a.netBoundary 0).dropAged 0 1000000000
    let y := ({ (netS id).a with lostClocks := [(1, 0)] } : Lane)
    (x.port 0).en = true ∧ (x.port 0).link = true ∧ x.clockLost 1 = false ∧ (x.port 0).paused = some 1000000001 ∧
    (1000000000 : Nat) < 1000000001 ∧ x.nextTx 0 = some (tx1, 0) ∧ y.clockLost 1 = true := by decide +kernel

theorem wit_links :
    let s : State := { duoS with b := duoS.b.onPort 1 (fun p => { p with link := true }) }
    let r := fun (f : PortSt → PortSt) => duo (fun x => x.onPort 1 f)
    (s.b.port 1).link = true ∧ (s.a.port 1).link = false ∧ s.a.inService = true ∧ s.b.inService = true ∧ s.active.isSome = true ∧
    (s.b.port 1).speedBeat + 10 * secBeats ≤ max s.pkg.beat 0 ∧ (s.a.port 1).reneg = none ∧ (s.a.pinnedSpeed 1).getD true ≠ (s.a.port 1).speed10 ∧
    (s.a.pinnedSpeed 1).getD false = (s.a.port 1).speed10 ∧ soloS.b.inService = false ∧
    ((r (fun p => { p with reneg := some (800000000, true) })).a.port 1).reneg = some (800000000, true) ∧
    800000000 + 2 * secBeats ≤ max duoS.pkg.beat 0 ∧ max duoS.pkg.beat 0 < 800000001 + 2 * secBeats ∧
    ((r (fun p => { p with lowerSuspended := some 1000000000 })).a.port 1).lowerSuspended = some 1000000000 := by decide +kernel

/-- A bulk segment of partition 0 with SEQ 1, and one of partition 1, which holds no bulk key. -/
def segment (part : Byte) : List Byte := [1, 4, part, 0] ++ zeros 4 ++ [0, 0, 0, 1] ++ zeros 12

theorem wit_bulk :
    let h := readHeader (segment 0)
    let q := (solo (fun x => x.onSender 0 (fun v => { v with
      bulkHigh := 1, bulkMarked := [1]
      transfers := [{ id := 9, total := 4, bytes := [], opened := 900000000, last := 900000000, hdr := hd, op := .nop, epoch := 0 }] }))).a
    ({ soloS.a with bulkRing := [(0, segment 0, some 2, 0)] } : Lane).bulkRing = [(0, segment 0, some 2, 0)] ∧
    h.isSome = true ∧ soloS.a.keyOf 2 1 = none ∧ (readHeader (segment 1)).isSome = true ∧ soloS.a.keyOf 2 0 = some (1, zeros 32, 2) ∧
    (some 1 : Option Word) ≠ some 2 ∧ freshSeq (soloS.a.sender 0).bulkHigh.toNat (soloS.a.sender 0).bulkMarked 1 = true ∧
    freshSeq (q.sender 0).bulkHigh.toNat (q.sender 0).bulkMarked 1 = false ∧ ((q.sender 0).transfers.find? (fun t => t.id = 9)).isSome = true ∧
    900000000 + 2 * secBeats ≤ max 1000000000 1100000000 ∧ max 1000000000 1099999999 < 900000000 + 2 * secBeats := by decide +kernel

theorem wit_service_port :
    let full := soloS.onPkg (fun p => { p with sp := { p.sp with rx := [[1], [2], [3], [4]], replies := [[5]] } })
    4 ≤ full.pkg.sp.rx.length ∧ full.pkg.sp.replies = [[5]] ∧ (1472 : Nat) < 1473 ∧ soloS.pkg.sp.rx.length < 4 ∧ State.reset.active = none ∧
    State.reset.pkg.sp.rx = [] ∧ soloS.active = some .a ∧ soloS.pkg.sp.replies = [] := by decide +kernel

/-- Packets that intake drops, passes and holds back. -/
theorem wit_service_intake :
    let x := (soloS.onLane .a (fun x => x.onMan (fun m => { m with moduleId := 0 }))).a
    x.intakeCheck x.man.moduleId.toNat [1] false = .drop ∧
    x.holdsBack (EventBody.net 4 none 0 [1] none ⟨0, [], 0, false⟩ 0).size = false ∧
    ({ x with openBytes := 100000000 } : Lane).holdsBack (EventBody.net 4 none 0 [1] none ⟨0, [], 0, false⟩ 0).size = true := by decide +kernel

/-! ### CAN -/

def canF : CanFrame := { fd := false, brs := false, xtd := false, id := 0x123, dlc := 2, esi := false, data := [1, 2] }
def held : CanHeld := ⟨canF, 0, 1⟩

/-- `soloS` with bus 7 enabled, error-active, and `f` applied to it. -/
def canS (f : BusSt → BusSt) : State := solo (fun x => x.onBus 7 (fun b => f { b with ctl := 13, state := 0 }))

theorem wit_can_frames :
    let s := canS id
    let b := s.a.bus 7
    let w := (canS (fun b => { b with fifo := [held] })).a
    busEn b.ctl = true ∧ b.state < 2 ∧ b.stuck = false ∧ busFd b.ctl = true ∧ busSingle b.ctl = false ∧ busEn (soloS.a.bus 7).ctl = false ∧
    (w.bus 7).lowest = some (none, held) ∧ w.joining = false ∧ w.inService = true ∧
    w.holdsBack (EventBody.can canF 1 false).size = false ∧
    { w with openBytes := 100000000 }.holdsBack (EventBody.can canF 1 false).size = true ∧ b.lowest = none ∧
    (tget {} ((canS (fun b => { b with tx := [(15, { content := some (canF, 0) })] })).a.bus 7).tx 15).content = some (canF, 0) ∧
    s.a.blk.lane.gatesClosed = false := by decide +kernel

theorem wit_can_transmit_ring :
    let e : RingEntry := { bytes := [0, 7, 0, 0] ++ zeros 92 }
    let x := soloS.a.onRing 61 (fun g => { g with entries := [e] })
    (x.ring 61).take.isSome = true ∧ field (entryWord e.bytes 0) 10 8 = 7 ∧ x.blk.lane.gatesClosed = false ∧ x.releases = true ∧
    ((canS (fun b => { b with state := 2 })).a.bus 7).state = 2 ∧
    64 ≤ ((canS (fun b => { b with queue := List.replicate 64 (canF, 0) })).a.bus 7).queue.length := by decide +kernel

/-- A bus whose T2 is lost, one of a joining lane, and one with room for an entry that waits in ring 61. -/
theorem wit_can_room :
    let lost := ({ (canS id).a with lostClocks := [(2, 900000000)] } : Lane)
    let b := (canS id).a.bus 7
    lost.clockLost 2 = true ∧ (canS id).a.clockLost 2 = false ∧ (rejoinS .transfer 7).b.clockLost 2 = false ∧ b.state < 2 ∧
    busSingle b.ctl = false ∧ b.queue.length < 64 ∧ b.dropOld 0 = b ∧
    busSingle ((canS (fun b => { b with ctl := 0xFFFFFFFF })).a.bus 7).ctl = true := by decide +kernel

theorem wit_can_errors :
    let b := (canS id).a.bus 7
    let many := (canS (fun b => { b with offBeats := List.replicate 7 900000001 })).a.bus 7
    let off := (canS (fun b => { b with state := 2, recovering := true })).a.bus 7
    let wt := (canS (fun b => { b with state := 2, waitUntil := some 1000000000 })).a.bus 7
    busEn b.ctl = true ∧ b.state < 2 ∧ busAuto b.ctl = true ∧ busAuto 5 = false ∧
    8 ≤ (many.offBeats.filter (fun t => decide (1000000000 < t + secBeats))).length + 1 ∧
    ¬ 8 ≤ (b.offBeats.filter (fun t => decide (1000000000 < t + secBeats))).length + 1 ∧ off.state = 2 ∧ off.recovering = true ∧
    wt.waitUntil = some 1000000000 ∧ (128 : Nat) < 256 ∧ (soloS.a.collects = true) := by decide +kernel

/-! ### Detectors, power, reset and start-up -/

theorem wit_detectors :
    let t : State := solo (fun x => { x with token := [(31, 999999000)] })
    soloS.a.collects = true ∧ t.a.token.lookup 31 = some 999999000 ∧ soloS.pkg.order ≠ .m00 ∧ soloS.b.hasBit 9 = false ∧
    soloS.a.hasBit 177 = false ∧ soloS.b.hasBit 177 = false ∧ soloS.a.hasBit 0 = false ∧ soloS.pkg.life = .issued := by decide +kernel

/-- The other lane has already lost T6; a lane has lost no clock. -/
theorem wit_clock_loss :
    ({ duoS with b := duoS.b.onFlt (fun f => { f with sticky := [9] }) } : State).b.hasBit 9 = true ∧ duoS.a.clockLost 6 = false ∧
    soloS.a.hasBit 9 = false ∧ duoS.a.collects = true := by decide +kernel

/-- Classes of Table 14-1 (1 N, 2 L, 3 S, 4 G): a bit at the edge of each of its groups. -/
theorem test_bit_classes :
    [0, 16, 79, 80, 95, 96, 127, 128, 161, 162, 170, 171, 178, 179, 180, 207, 208, 239, 256, 767, 768, 1279, 1280, 1408, 1919, 1920, 2099].map
      bitClass = [4, 2, 2, 1, 1, 2, 2, 1, 1, 2, 2, 1, 4, 2, 1, 1, 3, 3, 3, 3, 1, 1, 3, 3, 3, 1, 1] := by decide +kernel

theorem wit_power :
    let p := fun (f : PwrBlk → PwrBlk) => solo (fun x => { x with blk := { x.blk with pwr := f x.blk.pwr } })
    let hot := p (fun b => { b with hotBeat := some 900000001 })
    let warm := p (fun b => { b with warmBeat := some 1, stepBeat := 900000000 })
    soloS.a.started = true ∧ soloS.a.releases = true ∧ soloS.a.blk.pwr.stepBeat + 100000000 ≤ soloS.pkg.beat ∧ soloS.a.blk.pwr.pinEn = false ∧
    hot.a.blk.pwr.hotBeat = some 900000001 ∧ hot.pkg.beat < 900000001 + 100000000 ∧ warm.pkg.beat < 1 + 1000000000 ∧
    warm.a.blk.pwr.stepBeat + 100000000 ≤ warm.pkg.beat ∧ soloS.pkg.resetBeat + 1000000000 ≤ soloS.pkg.beat ∧
    (p (fun b => { b with pinEn := true })).a.blk.pwr.pinEn = true ∧ soloS.pkg.inReset = false ∧ soloS.a.blk.pwr.warn = false ∧
    soloS.b.blk.pwr.warn = false ∧ soloS.a.collects = true := by decide +kernel

theorem wit_reset :
    let t := soloS.onPkg (fun p => { p with transition := some (.void, 998899500) })
    soloS.pkg.inReset = false ∧ soloS.pkg.transition = none ∧ t.pkg.transition = some (.void, 998899500) ∧ 998899500 + fuseBeats ≤ t.pkg.beat ∧
    State.reset.pkg.inReset = true := by decide +kernel

/-- Reset released, lane A as `f` makes it. -/
def bootS (f : Lane → Lane) : State :=
  { State.reset with pkg := { beat := 1000000000, inReset := false, released := true }, a := f {} }

/-- A lane that has announced itself at beat 970,000,000. -/
def announcing : Lane :=
  { ({} : Lane).onLaneBlk (fun b => { b with role := .selftest }) with
    booted := true, tested := true, announced := true, announceBeat := 970000000 }

theorem wit_start :
    let t := bootS (fun x => { x.onLaneBlk (fun b => { b with role := .selftest }) with booted := true })
    let p : State := { bootS (fun _ => { announcing with inbox := [.announce [] 0 0 60 0] }) with b := announcing }
    let w := bootS (fun _ => announcing)
    let c : State := { soloS with a := { soloS.a with configured := false, started := false } }
    let d : State := { soloS with a := { soloS.a with started := false } }
    (bootS id).pkg.inReset = false ∧ (bootS id).a.booted = false ∧ (bootS id).pkg.life = .issued ∧
    ((bootS id).onPkg (fun q => { q with life := .void })).pkg.life = .void ∧
    t.a.booted = true ∧ t.a.tested = false ∧ t.a.blk.lane.role = .selftest ∧ t.a.blk.lane.rejoinStep = 0 ∧ t.b.inService = false ∧
    p.a.inbox.any (fun m => match m with | .announce .. => true | _ => false) = true ∧ p.canPair = true ∧ p.a.bootMeas = p.b.bootMeas ∧
    p.a.version = p.b.version ∧ w.a.waitsPartner = true ∧ w.a.announceBeat + pairBeats ≤ max w.pkg.beat 0 ∧ w.canPair = false ∧
    w.b.inService = false ∧ (c.a.inService = true ∧ c.a.configured = false ∧ c.a.started = false) ∧
    (d.a.inService = true ∧ d.a.configured = true ∧ d.a.started = false ∧ d.pkg.life = .issued) ∧ soloS.a.job = [] ∧
    ({ soloS.a with job := [(.config, 0)] } : Lane).job = (.config, 0) :: [] := by decide +kernel

def newImg : NewImage := { part := 0, image := img 2, bytes := zeros 8, hdr := hd }

/-- Flash writes at the head of a lane's jobs; the other lane out of service, in service and still to write, and in service and done. -/
theorem wit_flash_writes :
    let j := fun (w : FlashJob) (s : State) => ({ s with a := { s.a with job := [(w, 0)] } } : State)
    (j (.pattern 255) soloS).a.job = [(.pattern 255, 0)] ∧ (j (.blob 63 none) soloS).a.job = [(.blob 63 none, 0)] ∧
    (j (.image newImg) soloS).a.job = [(.image newImg, 0)] ∧ soloS.a.imgWait = [] ∧ soloS.b.inService = false ∧ soloS.b.imgWait = [] ∧
    duoS.b.inService = true ∧ duoS.b.imgWait = [] ∧ ({ duoS.b with imgWait := [newImg] } : Lane).imgWait = [newImg] := by decide +kernel

/-- A start without stored filters, and one with them. -/
theorem wit_start_filters : soloS.a.flash.filters = none ∧
    ({ soloS.a.flash with filters := some ([(1, 0x8010037)], [(31, 0xF0FF0800)]) } : Flash).filters.isSome = true := by decide +kernel

/-! ### The remaining hypotheses -/

theorem wit_queue : ({ State.reset with pending := [.rtcTick] } : State).pending = .rtcTick :: [] ∧ State.reset.pending = [] ∧
    haltedS.pkg.halted = true ∧ State.reset.pkg.order = .m32 ∧ State.reset.pkg.serial = 0 := by decide

/-- Each form of the integer instructions, on registers whose values are at the edge: x1 holds the most negative word. -/
theorem wit_integer_forms :
    let k := (coreS 0 (fun k => k.setReg 1 0x80000000)).a.core 0
    k.reg 0 = 0 ∧ Alu.sra.eval (k.reg 1) 31 = 0xFFFFFFFF ∧ Alu.div.eval (k.reg 1) 0xFFFFFFFF = 0x80000000 ∧
    Alu.rem.eval (k.reg 1) 0xFFFFFFFF = 0 ∧ Alu.divu.eval (k.reg 1) 0 = 0xFFFFFFFF ∧ Alu.remu.eval (k.reg 1) 0 = 0x80000000 ∧
    Cond.lt.holds (k.reg 1) 0 = true ∧ Cond.ltu.holds (k.reg 1) 0 = false := by decide +kernel

/-- Words of RV32IMC: ADDI x5, x5, 10; MUL x10, x11, x12; BEQ x1, x2, +8; C.LI x10, 0; C.JR x1; the illegal halfword 0. -/
theorem test_instruction_words :
    decodeRv 0x00A28293 4 = some (.opImm .add 5 5 10) ∧ decodeRv 0x02C58533 4 = some (.op .mul 10 11 12) ∧
    decodeRv 0x00208463 4 = some (.branch .eq 1 2 8) ∧ decodeRv 0x4501 2 = some (.opImm .add 10 0 0) ∧
    decodeRv 0x8082 2 = some (.jalr 0 1 0) ∧ decodeRv 0 2 = none := by decide +kernel

theorem wit_delay_mode :
    ((duoS.a.onGroup 7 (fun o => { o with delayed := true, onTime := 16 })).group 7).delayed = true ∧ (duoS.a.group 7).delayed = false := by
  decide +kernel

/-- R130: of cores 3 and 5, core 3 has rank 0. -/
theorem test_core_ranks : (duoS.a.onPart 2 (fun p => { p with grant := 0x28 })).coreRank 2 3 = 0 ∧
    (duoS.a.onPart 2 (fun p => { p with grant := 0x28 })).coreRank 2 5 = 1 := by decide +kernel

/-- A step of the reset machine passes one beat; activity on the maker test pin leaves an empty queue behind. -/
theorem test_step_goes_on : (∃ t, step State.reset = .next t ∧ t.pkg.beat = 1) ∧
    ∃ t, step { soloS with pending := [.makerTestPin] } = .next t ∧ t.pending = [] :=
  ⟨⟨_, rfl, rfl⟩, _, rfl, rfl⟩

end Sys2Proof.Tests
end

section
/-! SUPPORT. What the close of an epoch fixes, and what the events that enter the next epoch leave as it is (R59, R67). -/

namespace Sys2Proof.Machine

/-! ### Entering events keeps a lane's epochs -/

/-- The closed epochs of a lane and the number of its open one. -/
def Lane.epochs (x : Lane) : List ClosedEpoch × Word := (x.closed, x.blk.pick.opened)

/-- A fold of operations that keep a lane's epochs keeps them. -/
theorem Lane.epochs_foldl {α : Type} (f : Lane → α → Lane) (hf : ∀ y e, (f y e).epochs = y.epochs) (es : List α) (x : Lane) :
    (es.foldl f x).epochs = x.epochs := by
  induction es generalizing x with
  | nil => rfl
  | cons e es ih => exact (ih (f x e)).trans (hf x e)

@[simp] theorem Lane.epochs_countHeld (x : Lane) (n : Nat) : (x.countHeld n).epochs = x.epochs := rfl
@[simp] theorem Lane.epochs_intoEpoch (x : Lane) (e : Event) : (x.intoEpoch e).epochs = x.epochs := rfl
@[simp] theorem Lane.epochs_onRing (x : Lane) (r : Nat) (f : Ring → Ring) : (x.onRing r f).epochs = x.epochs := rfl
@[simp] theorem Lane.epochs_endCause (x : Lane) (b : Nat) : (x.endCause b).epochs = x.epochs := rfl
@[simp] theorem Lane.epochs_onPort (x : Lane) (n : Nat) (f : PortSt → PortSt) : (x.onPort n f).epochs = x.epochs := by
  unfold Lane.onPort; split <;> rfl

@[simp] theorem Lane.epochs_takeEvent (x : Lane) (e : Event) : (x.takeEvent e).epochs = x.epochs := by
  unfold Lane.takeEvent; split <;> rfl

@[simp] theorem Lane.epochs_enter (x : Lane) (l : LaneId) (kind stream part : Nat) (body : EventBody) :
    (x.enter l kind stream part body).epochs = x.epochs := by
  unfold Lane.enter
  refine (Lane.epochs_takeEvent _ _).trans ?_
  split <;> rfl

@[simp] theorem Lane.epochs_admitHeld (x : Lane) : x.admitHeld.epochs = x.epochs := by
  refine Lane.epochs_foldl _ (fun y e => ?_) _ _
  split <;> rfl

@[simp] theorem Lane.epochs_pauseCheck (x : Lane) (n now : Nat) : (x.pauseCheck n now).epochs = x.epochs := by
  unfold Lane.pauseCheck Lane.sendPause
  dsimp only
  split
  · simp only [Lane.epochs_endCause, Lane.epochs_onPort]
  · split
    · simp only [Lane.epochs_onPort]
    · rfl

@[simp] theorem Lane.epochs_drainIntake (x : Lane) (l : LaneId) (now : Nat) : (x.drainIntake l now).epochs = x.epochs := by
  unfold Lane.drainIntake
  simp only [Lane.epochs_pauseCheck]
  refine Lane.epochs_foldl _ (fun y e => ?_) _ _
  split
  · rfl
  · simp only [Lane.epochs_onRing, Lane.epochs_enter]

/-- A close appends the open epoch to the closed ones, under the number that `i` carries, and opens the number after it. -/
@[simp] theorem Lane.epochs_closeEpoch (x : Lane) (l : LaneId) (i : CloseInfo) (now : Nat) :
    (x.closeEpoch l i now).epochs = (x.closed ++ [⟨i, x.open_, true, none⟩], i.n + 1) := by
  simp only [Lane.closeEpoch, Lane.epochs_drainIntake, Lane.epochs_admitHeld]
  rfl

/-! ### Packets of the service port enter the active lane's stream -/

/-- From `s` to `t` only lane `l` has taken events: its epochs, the partner lane and the state of the picks are the same. -/
structure OnlyEventsEnter (l : LaneId) (s t : State) : Prop where
  epochs : (t.lane l).epochs = (s.lane l).epochs
  other : t.lane l.other = s.lane l.other
  waitingReqs : t.pkg.waitingReqs = s.pkg.waitingReqs
  lastClose : t.pkg.lastClose = s.pkg.lastClose

theorem OnlyEventsEnter.refl (l : LaneId) (s : State) : OnlyEventsEnter l s s := ⟨rfl, rfl, rfl, rfl⟩

theorem OnlyEventsEnter.trans {l : LaneId} {s t u : State} (h : OnlyEventsEnter l s t) (k : OnlyEventsEnter l t u) :
    OnlyEventsEnter l s u :=
  ⟨k.epochs.trans h.epochs, k.other.trans h.other, k.waitingReqs.trans h.waitingReqs, k.lastClose.trans h.lastClose⟩

theorem OnlyEventsEnter.onSp (l : LaneId) (s : State) (f : Package → ServicePort) :
    OnlyEventsEnter l s (s.onPkg (fun p => { p with sp := f p })) := by
  constructor <;> simp

theorem OnlyEventsEnter.onLane (l : LaneId) (s : State) (f : Lane → Lane) (hf : (f (s.lane l)).epochs = (s.lane l).epochs) :
    OnlyEventsEnter l s (s.onLane l f) := by
  constructor <;> simp [hf]

theorem State.takeSp_onlyEventsEnter (s : State) (l : LaneId) (b : List Byte) : OnlyEventsEnter l s (s.takeSp l b) := by
  unfold State.takeSp
  dsimp only
  split
  · exact .onSp l s _
  · split
    · split
      · exact .onSp l s _
      · exact (OnlyEventsEnter.onSp l s _).trans (.onLane l _ _ (Lane.epochs_enter ..))
    · exact .onLane l s _ (Lane.epochs_enter ..)

theorem State.drainSpFrom_onlyEventsEnter (l : LaneId) (bs : List (List Byte)) (s : State) :
    OnlyEventsEnter l s (State.drainSpFrom l bs s) := by
  induction bs generalizing s with
  | nil => exact .refl l s
  | cons b r ih =>
    unfold State.drainSpFrom
    split
    · exact (OnlyEventsEnter.onLane l s _ (Lane.epochs_countHeld ..)).trans (.onSp l _ _)
    · exact ((OnlyEventsEnter.onSp l s _).trans (State.takeSp_onlyEventsEnter _ l b)).trans (ih _)

theorem State.drainSp_onlyEventsEnter {s : State} {l : LaneId} (h : s.active = some l) : OnlyEventsEnter l s s.drainSp := by
  unfold State.drainSp
  rw [h]
  exact State.drainSpFrom_onlyEventsEnter l _ s

theorem OnlyEventsEnter.drainIfActive (l : LaneId) (s : State) :
    OnlyEventsEnter l s (if s.active = some l then s.drainSp else s) := by
  split
  next h => exact State.drainSp_onlyEventsEnter h
  next => exact .refl l s

/-- Once a lane has closed, it sends the events of the newest closed epoch to a partner that takes part in agreement, and beyond
that only events enter its next epoch. -/
theorem State.afterClose_onlyEventsEnter {s : State} {l : LaneId} {c : ClosedEpoch} (n : Word)
    (hc : (s.lane l).closed.getLast? = some c) :
    OnlyEventsEnter l (if (s.lane l.other).releases then s.send l (.epoch n c.events) else s) (s.afterClose l n) := by
  unfold State.afterClose
  rw [hc]
  exact .drainIfActive l _

/-! ### What a close leaves behind -/

/-- What lane `l` puts into the CLOSE of its open epoch now (Table 02-3, step 2). -/
def State.pickInfo (s : State) (l : LaneId) : CloseInfo :=
  { n := (s.lane l).blk.pick.opened, beat := s.pkg.beat
    frames := (List.range 8).map (fun r => ((s.lane l).newestFrame r).number)
    cycles := (List.range 16).map (fun p => ((s.lane l).part p).cycle)
    details := (s.lane l).blk.recd.detailsMade, coalesced := s.pkg.waitingReqs - 1 }

/-- The open epoch of lane `l` as a close now leaves it. -/
def State.closingEpoch (s : State) (l : LaneId) : ClosedEpoch := ⟨s.pickInfo l, (s.lane l).open_, true, none⟩

/-- Lane `l` closes its open epoch for the requests that wait. -/
def State.closeForRequests (s : State) (l : LaneId) : State :=
  (s.onPkg (fun p => { p with lastClose := some s.pkg.beat, waitingReqs := 0 })).onLane l
    (fun y => y.closeEpoch l (s.pickInfo l) s.pkg.beat)

@[simp] theorem State.epochs_closeForRequests (s : State) (l : LaneId) :
    ((s.closeForRequests l).lane l).epochs =
      ((s.lane l).closed ++ [s.closingEpoch l], (s.lane l).blk.pick.opened + 1) := by
  simp only [State.closeForRequests, State.lane_onLane, State.lane_onPkg, Lane.epochs_closeEpoch]
  rfl

@[simp] theorem State.other_closeForRequests (s : State) (l : LaneId) :
    (s.closeForRequests l).lane l.other = s.lane l.other := by
  simp [State.closeForRequests]

@[simp] theorem State.pkg_closeForRequests (s : State) (l : LaneId) :
    (s.closeForRequests l).pkg = { s.pkg with lastClose := some s.pkg.beat, waitingReqs := 0 } := by
  simp [State.closeForRequests]

theorem State.epochs_send (s : State) (l : LaneId) (m : Msg) : ((s.send l m).lane l).epochs = (s.lane l).epochs := by
  simp [Lane.epochs]

@[simp] theorem Lane.releases_receive (y : Lane) (h : LinkHead) (m : Msg) (now : Nat) :
    (y.receive h m now).releases = y.releases := rfl

@[simp] theorem Lane.inbox_receive (y : Lane) (h : LinkHead) (m : Msg) (now : Nat) :
    (y.receive h m now).inbox = y.inbox ++ [m] := rfl

/-- `closeForRequests`, and CLOSE to a partner that takes part in agreement. -/
def State.closeAndTell (s : State) (l : LaneId) : State :=
  if (s.lane l.other).releases then (s.closeForRequests l).send l (.close (s.pickInfo l)) else s.closeForRequests l

/-- `closeAndTell`, and the epoch's events to the same partner. -/
def State.closeAndExchange (s : State) (l : LaneId) : State :=
  if (s.lane l.other).releases then
    (s.closeAndTell l).send l (.epoch (s.lane l).blk.pick.opened (s.lane l).open_)
  else s.closeAndTell l

@[simp] theorem State.epochs_closeAndTell (s : State) (l : LaneId) :
    ((s.closeAndTell l).lane l).epochs = ((s.lane l).closed ++ [s.closingEpoch l], (s.lane l).blk.pick.opened + 1) := by
  unfold State.closeAndTell
  split
  · exact (State.epochs_send _ _ _).trans (s.epochs_closeForRequests l)
  · exact s.epochs_closeForRequests l

@[simp] theorem State.releases_other_closeAndTell (s : State) (l : LaneId) :
    ((s.closeAndTell l).lane l.other).releases = (s.lane l.other).releases := by
  unfold State.closeAndTell; split <;> simp

@[simp] theorem State.pkg_closeAndTell (s : State) (l : LaneId) :
    (s.closeAndTell l).pkg = { s.pkg with lastClose := some s.pkg.beat, waitingReqs := 0 } := by
  unfold State.closeAndTell; split <;> simp

@[simp] theorem State.epochs_closeAndExchange (s : State) (l : LaneId) :
    ((s.closeAndExchange l).lane l).epochs =
      ((s.lane l).closed ++ [s.closingEpoch l], (s.lane l).blk.pick.opened + 1) := by
  unfold State.closeAndExchange
  split
  · exact (State.epochs_send _ _ _).trans (s.epochs_closeAndTell l)
  · exact s.epochs_closeAndTell l

@[simp] theorem State.pkg_closeAndExchange (s : State) (l : LaneId) :
    (s.closeAndExchange l).pkg = { s.pkg with lastClose := some s.pkg.beat, waitingReqs := 0 } := by
  unfold State.closeAndExchange; split <;> simp

/-- The partner finds CLOSE, and then the events, behind what already waits in its inbox. -/
theorem State.inbox_other_closeAndExchange {s : State} {l : LaneId} (h : (s.lane l.other).releases = true) :
    ((s.closeAndExchange l).lane l.other).inbox = (s.lane l.other).inbox ++
      [.close (s.pickInfo l), .epoch (s.lane l).blk.pick.opened (s.lane l).open_] := by
  simp [State.closeAndExchange, State.closeAndTell, h]

theorem State.afterClose_closeAndTell (s : State) (l : LaneId) :
    OnlyEventsEnter l (s.closeAndExchange l) ((s.closeAndTell l).afterClose l (s.lane l).blk.pick.opened) := by
  have hclosed : ((s.closeAndTell l).lane l).closed = (s.lane l).closed ++ [s.closingEpoch l] :=
    congrArg Prod.fst (s.epochs_closeAndTell l)
  have h := State.afterClose_onlyEventsEnter (s := s.closeAndTell l) (l := l) (c := s.closingEpoch l)
    (s.lane l).blk.pick.opened (by simp [hclosed])
  rwa [State.releases_other_closeAndTell] at h

/-! ### When PICK_CLOSE closes -/

/-- A lane holds a CLOSE exactly when one waits in its inbox. -/
theorem findSome_closeOf_isSome (ms : List Msg) : (ms.findSome? closeOf).isSome = true ↔ ∃ i, Msg.close i ∈ ms := by
  rw [List.findSome?_isSome_iff]
  constructor
  · rintro ⟨m, hm, h⟩
    cases m with
    | close i => exact ⟨i, hm⟩
    | _ => cases h
  · rintro ⟨i, hi⟩
    exact ⟨.close i, hi, rfl⟩

theorem State.pickClose_of_due {s : State} {l : LaneId} (hactive : s.active = some l) (hreq : s.pkg.waitingReqs ≠ 0)
    (hrun : s.epochsRun = true) (hinbox : ∀ i, Msg.close i ∉ (s.lane l).inbox)
    (hlast : ∀ t, s.pkg.lastClose = some t → t + 1000 ≤ s.pkg.beat) :
    s.pickClose = (s.closeAndTell l).afterClose l (s.lane l).blk.pick.opened := by
  have hnone : ((s.lane l).inbox.findSome? closeOf).isSome = false := by
    rw [Bool.eq_false_iff, Ne, findSome_closeOf_isSome]
    exact fun ⟨i, hi⟩ => hinbox i hi
  unfold State.pickClose
  rw [hactive]
  cases hl : s.pkg.lastClose with
  | none => simp only [hreq, hrun, hnone]; rfl
  | some t => simp only [hreq, hrun, hnone, hlast t hl]; rfl

theorem State.pickClose_of_not_due {s : State}
    (h : s.pkg.waitingReqs = 0 ∨ (∃ t, s.pkg.lastClose = some t ∧ s.pkg.beat < t + 1000) ∨
      ∃ l i, s.active = some l ∧ Msg.close i ∈ (s.lane l).inbox) : s.pickClose = s := by
  unfold State.pickClose
  cases hactive : s.active with
  | none => rfl
  | some l =>
    refine if_pos ?_
    simp only [Bool.or_eq_true, decide_eq_true_eq, Bool.not_eq_true']
    obtain hreq | ⟨t, hlast, hbeat⟩ | ⟨k, i, hk, hi⟩ := h
    · exact .inl (.inl (.inl hreq))
    · refine .inl (.inl (.inr ?_))
      rw [hlast]
      exact decide_eq_false (Nat.not_le.mpr hbeat)
    · obtain rfl : l = k := Option.some.inj (hactive.symm.trans hk)
      exact .inr ((findSome_closeOf_isSome _).mpr ⟨i, hi⟩)

/-! ### The statement -/

theorem exec_pickClose (beat : Nat) (s : State) : exec (.pickClose beat) s = .next (s.at_ beat).pickClose := rfl

theorem pickCloseOpensTheNextEpoch : Claims.PickCloseOpensTheNextEpoch := by
  intro s l beat hactive hreq hrun hinbox hlast
  have hinbox' : ∀ i, Msg.close i ∉ ((s.at_ beat).lane l).inbox := by simpa using hinbox
  have hpick := State.pickClose_of_due (s := s.at_ beat) hactive hreq hrun hinbox' hlast
  have hafter := (s.at_ beat).afterClose_closeAndTell l
  rw [← hpick] at hafter
  obtain ⟨hclosed, hopened⟩ := Prod.ext_iff.mp (hafter.epochs.trans ((s.at_ beat).epochs_closeAndExchange l))
  simp only [Lane.epochs, State.lane_at] at hclosed hopened
  refine ⟨_, exec_pickClose beat s, hopened, fun hmax => ?_, ?_, ?_, ⟨_, hclosed, ?_, rfl, rfl⟩, fun hrel => ?_⟩
  · rw [hopened, hmax]; rfl
  · simpa using hafter.waitingReqs
  · simpa using hafter.lastClose
  · simp [State.closingEpoch, State.pickInfo]
  · refine ⟨(s.at_ beat).pickInfo l, (s.lane l).open_, [], ?_, by simp [State.pickInfo]⟩
    rw [hafter.other, State.inbox_other_closeAndExchange (by simpa using hrel)]
    simp [State.pickInfo]

theorem noPickWithoutARequest : Claims.NoPickWithoutARequest := by
  intro s beat h
  rw [exec_pickClose, State.pickClose_of_not_due (s := s.at_ beat) (by simpa using h)]

/-- Settles O32: a due PICK_CLOSE is a close and the messages to the partner, after which only events enter the next epoch. The
rules are R55, R58, R59 and R117; that the closed epoch counts the waiting requests less one is the model's reading of R55
(log entry 50). -/
theorem pickNumbersAdvanceByOne : Obligations.PickNumbersAdvanceByOne :=
  ⟨pickCloseOpensTheNextEpoch, noPickWithoutARequest⟩

end Sys2Proof.Machine
end

section
/-! SUPPORT. What a lane does with the sub-links, the heartbeat, the fault line and the fault notices of its partner (R85 to R89,
R106, R109): what each operation is in each case. -/

namespace Sys2Proof.Machine

theorem Lane.collects_of_inService {x : Lane} (h : x.inService = true) : x.collects = true := by
  simp only [Lane.inService, Bool.or_eq_true, decide_eq_true_eq] at h
  rcases h with h | h <;> simp [Lane.collects, h]

/-! ### Keep-alives and sub-links -/

theorem State.keepalive_of_on {s : State} {l : LaneId} {sub : Nat} (hsub : sub < 2) (hx : (s.lane l).blk.lane.role ≠ .off)
    (hy : (s.lane l.other).blk.lane.role ≠ .off) :
    s.keepalive l sub = s.onLane l (fun x => (x.onLaneBlk (fun b =>
      if sub = 0 then { b with sub0 := true, sub0Beat := s.pkg.beat } else { b with sub1 := true, sub1Beat := s.pkg.beat })).endCause
        (160 + sub)) := by
  simp [State.keepalive, hsub, hx, hy]

/-- The sub-link `sub` is up. -/
def LaneBlk.subUp (b : LaneBlk) (sub : Nat) : Bool := if sub = 0 then b.sub0 else b.sub1

/-- The sub-link beside `sub` is up. -/
def LaneBlk.otherSubUp (b : LaneBlk) (sub : Nat) : Bool := if sub = 0 then b.sub1 else b.sub0

/-- The beat at which a valid message last came over the sub-link `sub`. -/
def LaneBlk.subBeat (b : LaneBlk) (sub : Nat) : Nat := if sub = 0 then b.sub0Beat else b.sub1Beat

/-- The LANE block once the sub-link `sub` is taken as lost. -/
def LaneBlk.loseSub (b : LaneBlk) (sub : Nat) : LaneBlk := if sub = 0 then { b with sub0 := false } else { b with sub1 := false }

@[simp] theorem LaneBlk.subUp_loseSub (b : LaneBlk) (sub : Nat) : (b.loseSub sub).subUp sub = false := by
  unfold LaneBlk.loseSub LaneBlk.subUp; split <;> rfl

@[simp] theorem LaneBlk.otherSubUp_loseSub (b : LaneBlk) (sub : Nat) : (b.loseSub sub).otherSubUp sub = b.otherSubUp sub := by
  unfold LaneBlk.loseSub LaneBlk.otherSubUp; split <;> rfl

@[simp] theorem LaneBlk.role_loseSub (b : LaneBlk) (sub : Nat) : (b.loseSub sub).role = b.role := by
  unfold LaneBlk.loseSub; split <;> rfl

theorem LaneBlk.linkUp_of_otherSubUp {b : LaneBlk} {sub : Nat} (h : b.otherSubUp sub = true) : ¬ (!b.sub0 && !b.sub1) = true := by
  unfold LaneBlk.otherSubUp at h
  split at h <;> simp [h]

/-- Lane `l` records the loss of its sub-link `sub`, and the hold-off restarts in both lanes (R87, R116). -/
def State.loseSub (s : State) (l : LaneId) (sub : Nat) : State :=
  ((s.onLane l (fun x => (x.onLaneBlk (fun b => b.loseSub sub)).restartHoldoff)).onLane l.other Lane.restartHoldoff).flag
    l (160 + sub) true

@[simp] theorem State.loseSub_laneBlk (s : State) (l : LaneId) (sub : Nat) :
    ((s.loseSub l sub).lane l).blk.lane = { (s.lane l).blk.lane.loseSub sub with holdElapsed := 0, holdBeat := none } := by
  simp [State.loseSub, Lane.restartHoldoff]

/-- A sub-link that is silent for 50 µs is lost, and no more than that while the other one is up. -/
theorem State.subLinkLoss_of_otherSubUp {s : State} {l : LaneId} {sub : Nat} (hsub : sub < 2)
    (hup : (s.lane l).blk.lane.subUp sub = true) (hsilent : (s.lane l).blk.lane.subBeat sub + 5000 ≤ s.pkg.beat)
    (hother : (s.lane l).blk.lane.otherSubUp sub = true) : s.subLinkLoss l sub = s.loseSub l sub := by
  have hlost : (decide (sub < 2) && (s.lane l).blk.lane.subUp sub &&
      decide ((s.lane l).blk.lane.subBeat sub + 5000 ≤ s.pkg.beat)) = true := by
    simp [hsub, hup, hsilent]
  have hleft : ((s.loseSub l sub).lane l).blk.lane.otherSubUp sub = true := by
    rw [State.loseSub_laneBlk]
    exact ((s.lane l).blk.lane.otherSubUp_loseSub sub).trans hother
  exact (if_pos hlost).trans (if_neg (LaneBlk.linkUp_of_otherSubUp hleft))

theorem State.loseSub_reports {s : State} {l : LaneId} {sub : Nat} (hsub : sub < 2) (hx : (s.lane l).inService = true) :
    ((s.loseSub l sub).lane l).hasBit (160 + sub) = true ∧ ((s.loseSub l sub).lane l).blk.lane.subUp sub = false ∧
      ((s.loseSub l sub).lane l).inService = true := by
  have hclass : bitClass (160 + sub) ≠ 0 := by interval_cases sub <;> decide
  refine ⟨State.flag_hasBit _ _ _ ?_ hclass, ?_, ?_⟩
  · simpa [Lane.collects, Lane.restartHoldoff] using Lane.collects_of_inService hx
  · rw [State.loseSub_laneBlk]
    exact (s.lane l).blk.lane.subUp_loseSub sub
  · simpa [Lane.inService] using hx

/-! ### Heartbeats -/

theorem State.heartbeatToggle_of_inService {s : State} {l : LaneId} (hx : (s.lane l).inService = true) :
    s.heartbeatToggle l = s.onLane l (fun x => x.onLaneBlk (fun b => { b with heartbeat := true, hbBeat := s.pkg.beat })) :=
  if_pos hx

theorem State.heartbeatMissing_of_silent {s : State} {l : LaneId} (hx : (s.lane l).inService = true)
    (hy : (s.lane l.other).inService = true) (hline : (s.lane l.other).faultLine = false)
    (hsilent : (s.lane l.other).blk.lane.heartbeat = false ∨ (s.lane l.other).blk.lane.hbBeat + 2000 ≤ s.pkg.beat) :
    s.heartbeatMissing l =
      (((s.flag l 171 true).cutFrames l.other).onLane l.other (fun k => k.depart 171 s.pkg.beat l.other)).partnerLeft l := by
  simp [State.heartbeatMissing, hx, hy, hline, hsilent]

/-! ### Fault lines and notices -/

theorem State.seeFaultLine_of_both {s : State} {l : LaneId} {a b : Nat} (hx : (s.lane l).faultLine = true)
    (hy : (s.lane l.other).faultLine = true) (ha : (s.lane l).blk.lane.lBeat = some a)
    (hb : (s.lane l.other).blk.lane.lBeat = some b) (hab : a ≤ b + msBeats) (hba : b ≤ a + msBeats) :
    s.seeFaultLine l = s.haltG := by
  simp [State.seeFaultLine, hx, hy, ha, hb, hab, hba]

theorem State.seeFaultLine_of_partner {s : State} {l : LaneId} (hx : (s.lane l).faultLine = false)
    (hy : (s.lane l.other).faultLine = true) : s.seeFaultLine l = s.partnerLeft l := by
  simp [State.seeFaultLine, hx, hy]

theorem State.seeNotice_of_find {s : State} {l : LaneId} {m : Msg} (h : (s.lane l).inbox.find? isNotice = some m) :
    s.seeNotice l = (s.onLane l (fun x => { x with inbox := x.inbox.erase m })).partnerLeft l := by
  simp [State.seeNotice, h]

/-! ### The rows -/

theorem exec_keepalive (l : LaneId) (sub beat : Nat) (s : State) :
    exec (.keepalive l sub beat) s = .next ((s.at_ beat).keepalive l sub) := rfl

theorem exec_subLinkLoss (l : LaneId) (sub beat : Nat) (s : State) :
    exec (.subLinkLoss l sub beat) s = .next ((s.at_ beat).subLinkLoss l sub) := rfl

theorem exec_heartbeatToggle (l : LaneId) (beat : Nat) (s : State) :
    exec (.heartbeatToggle l beat) s = .next ((s.at_ beat).heartbeatToggle l) := rfl

theorem exec_heartbeatMissing (l : LaneId) (beat : Nat) (s : State) :
    exec (.heartbeatMissing l beat) s = .next ((s.at_ beat).heartbeatMissing l) := rfl

theorem exec_faultLine (l : LaneId) (beat : Nat) (s : State) :
    exec (.faultLine l beat) s = .next ((s.at_ beat).seeFaultLine l) := rfl

theorem exec_faultNotice (l : LaneId) (beat : Nat) (s : State) :
    exec (.faultNotice l beat) s = .next ((s.at_ beat).seeNotice l) := rfl

/-- Settles O40: each row is its operation at the beat of the row, in the case that the clause names. The rules are R85 to R89,
R106, R107 and R109. -/
theorem partnerLinkRowsComplete : Obligations.PartnerLinkRowsComplete := by
  intro s l beat now x y
  have hl : (s.at_ beat).lane l = x := State.lane_at s beat l
  have ho : (s.at_ beat).lane l.other = y := State.lane_at s beat l.other
  refine ⟨fun sub hsub hx hy => ?_, fun sub hsub hx hup hsilent hother => ?_, fun hx => ?_, fun hx hy hline hsilent => ?_,
    fun a b hx hy ha hb hab hba => ?_, fun hx hy => ?_, fun m hm => ?_⟩
  · rw [exec_keepalive, State.keepalive_of_on hsub (hl ▸ hx) (ho ▸ hy)]
    rfl
  · rw [exec_subLinkLoss, State.subLinkLoss_of_otherSubUp hsub (hl ▸ hup) (hl ▸ hsilent) (hl ▸ hother)]
    exact ⟨_, rfl, State.loseSub_reports hsub (hl ▸ hx)⟩
  · rw [exec_heartbeatToggle, State.heartbeatToggle_of_inService (hl ▸ hx)]
    rfl
  · rw [exec_heartbeatMissing, State.heartbeatMissing_of_silent (hl ▸ hx) (ho ▸ hy) (ho ▸ hline) (ho ▸ hsilent)]
    rfl
  · rw [exec_faultLine, State.seeFaultLine_of_both (hl ▸ hx) (ho ▸ hy) (hl ▸ ha) (ho ▸ hb) hab hba]
  · rw [exec_faultLine, State.seeFaultLine_of_partner (hl ▸ hx) (ho ▸ hy)]
  · rw [exec_faultNotice, State.seeNotice_of_find (hl ▸ hm)]

end Sys2Proof.Machine
end

section
/-! SUPPORT. What the lane that remains does when its partner has left service (Table 03-4, R109, R110), and what a class L
detection starts in a lane (R107, R111). -/

namespace Sys2Proof.Machine

/-! ### Answers, images and exchanges leave the LANE blocks as they are -/

@[simp] theorem Lane.onPort_laneBlk (x : Lane) (n : Nat) (f : PortSt → PortSt) : (x.onPort n f).blk.lane = x.blk.lane := by
  unfold Lane.onPort; split <;> rfl

@[simp] theorem Lane.postFrame_laneBlk (x : Lane) (room : Bool) (ring beat : Nat) (dst : Source) (sport : Nat) (payload : List Byte) :
    (x.postFrame room ring beat dst sport payload).blk.lane = x.blk.lane := by
  simp only [Lane.postFrame]
  split
  · rfl
  · split
    · rfl
    · simp

@[simp] theorem Lane.postTx_laneBlk (x : Lane) (ring beat : Nat) (dst : Source) (sport : Nat) (payload : List Byte) :
    (x.postTx ring beat dst sport payload).blk.lane = x.blk.lane := by
  simp only [Lane.postTx]
  split
  · rfl
  · split <;> simp [Lane.dropTx]

@[simp] theorem Lane.noticeTo_laneBlk (h : Hdr) (opcode : Nat) (epoch : Word) (params : List Byte) (ps : List Nat) (x : Lane) :
    (x.noticeTo h opcode epoch ps params).blk.lane = x.blk.lane := by
  induction ps generalizing x with
  | nil => rfl
  | cons p ps ih => exact ih _

/-- From `s` to `t` no lane's LANE block and no command that both lanes share has changed. -/
structure SameStanding (s t : State) : Prop where
  laneBlk : ∀ k, (t.lane k).blk.lane = (s.lane k).blk.lane
  accepted : t.pkg.accepted = s.pkg.accepted
  outcomes : t.pkg.outcomes = s.pkg.outcomes

theorem SameStanding.refl (s : State) : SameStanding s s := ⟨fun _ => rfl, rfl, rfl⟩

theorem SameStanding.trans {s t u : State} (h : SameStanding s t) (k : SameStanding t u) : SameStanding s u :=
  ⟨fun l => (k.laneBlk l).trans (h.laneBlk l), k.accepted.trans h.accepted, k.outcomes.trans h.outcomes⟩

theorem SameStanding.foldl {α : Type} {f : State → α → State} (hf : ∀ t e, SameStanding t (f t e)) (es : List α) (s : State) :
    SameStanding s (es.foldl f s) := by
  induction es generalizing s with
  | nil => exact .refl s
  | cons e es ih => exact (hf s e).trans (ih _)

theorem SameStanding.setLane (s : State) (l : LaneId) {x : Lane} (hx : x.blk.lane = (s.lane l).blk.lane) :
    SameStanding s (s.setLane l x) where
  laneBlk k := by
    by_cases hk : k = l
    · subst hk; simpa using hx
    · obtain rfl : k = l.other := by cases k <;> cases l <;> simp_all [LaneId.other]
      simp
  accepted := by simp
  outcomes := by simp

theorem SameStanding.onLane (s : State) (l : LaneId) {f : Lane → Lane} (hf : (f (s.lane l)).blk.lane = (s.lane l).blk.lane) :
    SameStanding s (s.onLane l f) := .setLane s l hf

theorem State.flag_sameStanding (s : State) (l : LaneId) (b : Nat) (lasting : Bool) : SameStanding s (s.flag l b lasting) :=
  .onLane s l (by split <;> simp)

theorem State.selectLane_sameStanding (s : State) (l : LaneId) : SameStanding s (s.selectLane l) := by
  constructor <;> simp [State.selectLane]

theorem State.sendPacket_sameStanding (s : State) (l : LaneId) (via : Via) (dst : Source) (packet : List Byte) :
    SameStanding s (s.sendPacket l via dst packet) := by
  unfold State.sendPacket
  split
  · exact .onLane s l (Lane.postTx_laneBlk ..)
  · split
    · constructor <;> simp
    · exact .refl s

theorem State.reply_sameStanding (s : State) (l : LaneId) (h : Hdr) (opcode : Nat) (st : Status) (params : List Byte) (epoch : Word) :
    SameStanding s (s.reply l h opcode st params epoch) := by
  unfold State.reply State.replyWith
  split
  · refine .trans (.onLane s l ?_) (State.sendPacket_sameStanding ..)
    simp
  · exact State.sendPacket_sameStanding ..

theorem State.finish_sameStanding (s : State) (l : LaneId) (o : Outstanding) (st : Status) (params : List Byte) :
    SameStanding s (s.finish l o st params) := by
  unfold State.finish
  refine .trans (.setLane s l ?_) (State.reply_sameStanding ..)
  split <;> simp [Lane.notice]

theorem State.finishAll_sameStanding (s : State) (l : LaneId) (why : Waiting) (st : Status) (params : List Byte) :
    SameStanding s (s.finishAll l why st params) :=
  .foldl (fun t o => t.finish_sameStanding l o st params) _ s

theorem State.finishCmd_sameStanding (s : State) (l : LaneId) (h : Hdr) (st : Status) (params : List Byte) :
    SameStanding s (s.finishCmd l h st params) :=
  .foldl (fun t o => t.finish_sameStanding l o st params) _ s

theorem State.giveCapture_sameStanding (s : State) (l : LaneId) (o : Outstanding) (a b : List Byte) :
    SameStanding s (s.giveCapture l o a b) := by
  unfold State.giveCapture
  split
  · exact s.finish_sameStanding ..
  · exact .onLane s l (by simp)
  · exact .refl s

theorem State.settleCaptures_sameStanding (s : State) (l : LaneId) : SameStanding s (s.settleCaptures l) :=
  .foldl (fun t o => t.giveCapture_sameStanding l o _ _) _ s

theorem State.abortExchangeIn_sameStanding (s : State) (l : LaneId) (p : Nat) (st : Status) :
    SameStanding s (s.abortExchangeIn l p st) := by
  unfold State.abortExchangeIn
  split
  · exact .refl s
  · refine .trans (.onLane s l ?_) (State.finishAll_sameStanding ..)
    split <;> simp [Lane.finishExchange, Lane.keepTable]

theorem State.takeImage_sameStanding (s : State) (l : LaneId) (w : NewImage) : SameStanding s (s.takeImage l w) :=
  .trans (.onLane s l (by simp [Lane.extend, Lane.keepTable])) (State.finishCmd_sameStanding ..)

theorem State.settleImages_sameStanding (s : State) : SameStanding s s.settleImages :=
  .trans (.foldl (fun t w => t.takeImage_sameStanding .a w) _ s) (.foldl (fun t w => t.takeImage_sameStanding .b w) _ _)

/-! ### The steps of a departure (Table 03-4) -/

/-- Lane `l` ends its pairing, and what it held of its partner goes. -/
def State.unpair (s : State) (l : LaneId) : State :=
  s.onLane l (fun k =>
    { (k.onLaneBlk (fun b => { b with paired := false, lastCause := (s.lane l.other).blk.lane.lastCause })).restartHoldoff with
      inbox := k.inbox.filter keptMsg
      parts := k.parts.map (fun p => (p.1, { p.2 with theirs := none, late := none })) })

/-- The commands that waited for the partner are answered, and nothing shared with it remains. -/
def State.forgetPartner (s : State) (l : LaneId) : State :=
  ((s.unpair l).settleCaptures l).onPkg (fun p => { p with
    accepted := [], outcomes := [], pickReqs := p.pickReqs.filter (fun r => r.lane = l) })

/-- Lane `l` takes the active role from a partner that left with `cause`. -/
def State.takeRole (s : State) (l : LaneId) (cause : Word) : State :=
  s.onLane l (fun k => (k.onLaneBlk (fun b => { b with role := .active, switchovers := b.switchovers + 1 })).detail 0x0007 0
    (beBytes 1 l.num ++ zeros 1 ++ beBytes 2 (cause.toNat % 65536) ++ zeros 12))

/-- An exchange of partition `p` in lane `l` that has not reached its boundary is aborted. -/
def State.abortUninstalled (l : LaneId) (s : State) (p : Nat) : State :=
  match ((s.lane l).part p).exch with
  | some e => if e.installed then s else s.abortExchangeIn l p .exchangeAborted
  | none => s

/-- Lane `l` ends what it had begun together with its partner; lane B reports a bus in single-pair mode (`single`), which lane A alone
serves (R121). -/
def State.goOnAlone (s : State) (l : LaneId) (single : Bool) : State :=
  let t := ((List.range 16).foldl (State.abortUninstalled l) s).settleImages
  if l = .b && single then t.flag l 2098 true else t

theorem State.goOnAlone_sameStanding (s : State) (l : LaneId) (single : Bool) : SameStanding s (s.goOnAlone l single) := by
  have hexch : ∀ t p, SameStanding t (State.abortUninstalled l t p) := by
    intro t p
    unfold State.abortUninstalled
    split
    · split
      · exact .refl t
      · exact t.abortExchangeIn_sameStanding ..
    · exact .refl t
  have hend := (SameStanding.foldl hexch (List.range 16) s).trans (State.settleImages_sameStanding _)
  unfold State.goOnAlone
  dsimp only
  split
  · exact hend.trans (State.flag_sameStanding ..)
  · exact hend

/-- A lane acts on the departure of its partner once: it is in service, still paired, and its partner is not in service. -/
structure State.Departure (s : State) (l : LaneId) : Prop where
  inService : (s.lane l).inService = true
  paired : (s.lane l).blk.lane.paired = true
  gone : (s.lane l.other).inService = false

theorem State.partnerLeft_of_departure {s : State} {l : LaneId} (h : s.Departure l) :
    s.partnerLeft l = (if (s.lane l).blk.lane.role = .standby then
        ((s.forgetPartner l).takeRole l (s.lane l.other).blk.lane.lastCause).selectLane l
      else (s.forgetPartner l).selectLane l).goOnAlone l (s.lane l).singlePair := by
  have hcond : ((s.lane l).inService && (s.lane l).blk.lane.paired && !(s.lane l.other).inService) = true := by
    simp [h.inService, h.paired, h.gone]
  exact if_pos hcond

/-- The LANE block of the lane that remains, its partner gone with `cause`. -/
def LaneBlk.survivor (b : LaneBlk) (cause : Word) : LaneBlk :=
  { b with
    paired := false, lastCause := cause, holdElapsed := 0, holdBeat := none, role := .active
    switchovers := b.switchovers + if b.role = .standby then 1 else 0 }

theorem LaneBlk.survivor_of_active {b : LaneBlk} {cause : Word} (h : b.role = .active) :
    b.survivor cause = { b with paired := false, lastCause := cause, holdElapsed := 0, holdBeat := none } := by
  cases b
  simp_all [LaneBlk.survivor]

/-- `t` is `s` after lane `l` has acted on the departure of its partner. -/
structure Survives (l : LaneId) (s t : State) : Prop where
  own : (t.lane l).blk.lane = (s.lane l).blk.lane.survivor (s.lane l.other).blk.lane.lastCause
  other : (t.lane l.other).blk.lane = (s.lane l.other).blk.lane
  accepted : t.pkg.accepted = []
  outcomes : t.pkg.outcomes = []

theorem Survives.trans {l : LaneId} {s t u : State} (h : Survives l s t) (k : SameStanding t u) : Survives l s u :=
  ⟨(k.laneBlk l).trans h.own, (k.laneBlk l.other).trans h.other, k.accepted.trans h.accepted, k.outcomes.trans h.outcomes⟩

theorem State.forgetPartner_laneBlk (s : State) (l : LaneId) :
    ((s.forgetPartner l).lane l).blk.lane = { (s.lane l).blk.lane with
      paired := false, lastCause := (s.lane l.other).blk.lane.lastCause, holdElapsed := 0, holdBeat := none } := by
  have hkeeps := ((s.unpair l).settleCaptures_sameStanding l).laneBlk l
  simp only [State.forgetPartner, State.lane_onPkg, hkeeps]
  simp [State.unpair, Lane.restartHoldoff]

theorem State.forgetPartner_laneBlk_other (s : State) (l : LaneId) :
    ((s.forgetPartner l).lane l.other).blk.lane = (s.lane l.other).blk.lane := by
  have hkeeps := ((s.unpair l).settleCaptures_sameStanding l).laneBlk l.other
  simp only [State.forgetPartner, State.lane_onPkg, hkeeps]
  simp [State.unpair]

theorem State.partnerLeft_survives {s : State} {l : LaneId} (h : s.Departure l) : Survives l s (s.partnerLeft l) := by
  rw [State.partnerLeft_of_departure h]
  refine Survives.trans ?_ (State.goOnAlone_sameStanding ..)
  split
  next hstandby =>
    refine Survives.trans ⟨?_, ?_, ?_, ?_⟩ (State.selectLane_sameStanding ..)
    · simp [State.takeRole, Lane.detail, State.forgetPartner_laneBlk, LaneBlk.survivor, hstandby]
    · simp [State.takeRole, State.forgetPartner_laneBlk_other]
    · simp [State.takeRole, State.forgetPartner]
    · simp [State.takeRole, State.forgetPartner]
  next hnot =>
    have hactive : (s.lane l).blk.lane.role = .active := by
      have hserves := h.inService
      simpa [Lane.inService, hnot] using hserves
    refine Survives.trans ⟨?_, s.forgetPartner_laneBlk_other l, rfl, rfl⟩ (State.selectLane_sameStanding ..)
    rw [State.forgetPartner_laneBlk, LaneBlk.survivor_of_active hactive]

theorem State.active_of_leads {s : State} {l : LaneId} (h : (s.lane l).leads = true) (ho : (s.lane l.other).leads = false) :
    s.active = some l := by
  cases l <;> simp_all [State.active, State.lane, LaneId.other]

theorem Lane.leads_eq_false {x : Lane} (h : x.inService = false) (hh : x.blk.lane.role ≠ .halted) : x.leads = false := by
  simp only [Lane.inService, Bool.or_eq_false_iff, decide_eq_false_iff_not] at h
  simp [Lane.leads, h.2, hh]

theorem survivorTakesTheActiveRole : Claims.SurvivorTakesTheActiveRole := by
  intro s l hserves hpaired hgone hhalted t
  obtain ⟨hown, hother, haccepted, houtcomes⟩ := State.partnerLeft_survives (s := s) (l := l) ⟨hserves, hpaired, hgone⟩
  change (t.lane l).blk.lane = _ at hown
  have hrole : (t.lane l).blk.lane.role = .active := by rw [hown]; rfl
  have hleads : (t.lane l).leads = true := by simp [Lane.leads, hrole]
  have hfollows : (t.lane l.other).leads = false := by
    simpa [Lane.leads, t, hother] using Lane.leads_eq_false hgone hhalted
  refine ⟨hrole, ?_, ?_, ?_, houtcomes, haccepted, State.active_of_leads hleads hfollows⟩ <;> rw [hown] <;> rfl

/-! ### Class L detections -/

theorem State.raise_classL {s : State} {l : LaneId} {b : Nat} (lasting : Bool) (hclass : bitClass b = 2)
    (hx : (s.lane l).collects = true) (hnew : (s.lane l).hasBit b = false) :
    s.raise l b lasting = (s.flag l b lasting).leaveService l b := by
  simp [State.raise, hx, hnew, hclass]

theorem State.haltG_halted (s : State) : s.haltG.pkg.halted = true := by
  unfold State.haltG
  split
  · assumption
  · rfl

/-- Without a partner in service, a lane that runs answers a class L detection with the class G halt (R111). -/
theorem State.leaveService_of_partner_gone {s : State} {l : LaneId} (b : Nat) (hx : (s.lane l).collects = true)
    (hhalted : (s.lane l).blk.lane.role ≠ .halted) (hy : (s.lane l.other).inService = false) : s.leaveService l b = s.haltG := by
  by_cases hserves : (s.lane l).inService = true
  · simp [State.leaveService, hserves, hy]
  · have hrejoins : (s.lane l).blk.lane.role = .selftest ∨ (s.lane l).blk.lane.role = .transfer := by
      cases hrole : (s.lane l).blk.lane.role <;> simp_all [Lane.collects, Lane.inService]
    simp [State.leaveService, hserves, hy, hrejoins]

theorem State.leaveService_of_both {s : State} {l : LaneId} (b : Nat) (hx : (s.lane l).inService = true)
    (hy : (s.lane l.other).inService = true) :
    s.leaveService l b = ((s.cutFrames l).send l (.notice b)).onLane l (fun x => x.depart b s.pkg.beat l) := by
  simp [State.leaveService, hx, hy]

theorem Lane.depart_stops (x : Lane) (b now : Nat) (l : LaneId) :
    (x.depart b now l).blk.lane.role = .selftest ∧ (x.depart b now l).blk.lane.gatesClosed = true := by
  simp [Lane.depart]

theorem State.cutFrames_halted (s : State) (l : LaneId) : (s.cutFrames l).pkg.halted = s.pkg.halted := rfl

theorem classLWithoutPartnerIsClassG : Claims.ClassLWithoutPartnerIsClassG := by
  intro s l b hclass hx hhalted hnew hruns
  have hblk := (s.flag_sameStanding l b true).laneBlk
  rw [State.raise_classL true hclass hx hnew]
  refine ⟨fun hgone => ?_, fun hserves hpartner => ?_⟩
  · rw [State.leaveService_of_partner_gone b (by simpa [Lane.collects] using hx) (by simpa using hhalted)
      (by simpa [Lane.inService] using hgone)]
    exact State.haltG_halted _
  · rw [State.leaveService_of_both b (by simpa [Lane.inService] using hserves) (by simpa [Lane.inService] using hpartner)]
    refine ⟨?_, ?_⟩
    · simp [State.cutFrames_halted, (s.flag_keeps l l b true).2.2.2.2, hruns]
    · rw [State.lane_onLane]
      exact Lane.depart_stops ..

/-- Settles O41: once its partner has gone, the lane that remains is the active lane and unpaired (Table 03-4, R109, R110); a class L
detection is a departure where the partner is in service (R107) and the class G halt where it is not (R111). -/
theorem classLTakesALaneOut : Obligations.ClassLTakesALaneOut :=
  ⟨survivorTakesTheActiveRole, classLWithoutPartnerIsClassG⟩

end Sys2Proof.Machine
end

section
/-! SUPPORT. A core's write buffer holds 2,048 words; a store that finds no room in it is a program fault (R147, R148). -/

namespace Sys2Proof.Machine

/-- Setting an entry of a table without default leaves every other entry alone. -/
theorem lookup_oset_other {β : Type} {k u : Nat} (v : β) (hu : u ≠ k) : ∀ t : Tab β, (oset t k v).lookup u = t.lookup u
  | [] => by simp [oset, List.lookup_cons, beq_false_of_ne hu]
  | (i, w) :: r => by
    have ih := lookup_oset_other v hu r
    rcases Nat.lt_trichotomy k i with h | rfl | h
    · simp [oset, h, List.lookup_cons, beq_false_of_ne hu]
    · simp [oset, List.lookup_cons, beq_false_of_ne hu]
    · simp [oset, h.not_gt, h.ne', List.lookup_cons, ih]

theorem Core.buffer_of_full {k : Core} {w : Nat} (v : Word) (hnew : k.wbuf.lookup w = none) (hfull : 2048 ≤ k.wbuf.length) :
    k.buffer w v = none := by
  simp [Core.buffer, hnew, hfull]

theorem Core.buffer_of_room {k : Core} {w : Nat} (v : Word) (h : k.wbuf.lookup w ≠ none ∨ k.wbuf.length < 2048) :
    k.buffer w v = some { k with wbuf := oset k.wbuf w v } := by
  have hroom : ((k.wbuf.lookup w).isSome || decide (k.wbuf.length < 2048)) = true := by
    rcases h with h | h
    · rw [Option.isSome_iff_ne_none.mpr h, Bool.true_or]
    · simp [h]
  rw [Core.buffer, if_pos hroom]

theorem State.bufferWord_of_full {s : State} {l : LaneId} {c w : Nat} (v : Word)
    (h : ((s.lane l).core c).buffer w v = none) : s.bufferWord l c w v = none := by
  simp [State.bufferWord, h]

/-- A byte that takes effect at commit needs an entry of the buffer (Table 04-5). -/
theorem Lane.putByte_of_full {x : Lane} {p c a : Nat} (b : Byte) (hprivate : isPrivate a = false)
    (hlater : (x.part p).atOnce a = false) (hfull : ∀ v, (x.core c).buffer (a / 4) v = none) : x.putByte p c a b = none := by
  simp [Lane.putByte, hprivate, hlater, hfull]

theorem State.coreStore_of_full {s : State} {l : LaneId} {p c a n : Nat} (v : Word) (hn : 0 < n) (ha : a % n = 0)
    (hmay : s.mayWrite l p a n = true) (hprivate : isPrivate a = false) (hlater : ((s.lane l).part p).atOnce a = false)
    (hfull : ∀ v, ((s.lane l).core c).buffer (a / 4) v = none) : s.coreStore l p c a n v = none := by
  have hbytes : (s.lane l).putBytes p c a (leBytes n v.toNat) = none := by
    cases n with
    | zero => exact absurd hn (Nat.lt_irrefl 0)
    | succ m => simp [leBytes, Lane.putBytes, Lane.putByte_of_full _ hprivate hlater hfull]
  simp [State.coreStore, ha, hmay, hbytes]

/-- A store to block space does what the core's write of that register does. -/
theorem State.coreStore_of_block {s : State} {l : LaneId} {p c a n : Nat} (v : Word) (ha : a % n = 0)
    (hmay : s.mayWrite l p a n = false) (hblock : inBlocks a = true) (hn : n = 4) :
    s.coreStore l p c a n v = s.coreBlockWrite l p c a v := by
  subst hn
  simp [State.coreStore, ha, hmay, hblock]

theorem State.rvEffect_store_of_none {s : State} {l : LaneId} {p c size rs1 rs2 : Nat} {imm : Word} (n : Nat)
    (h : s.coreStore l p c (((s.lane l).core c).reg rs1 + imm).toNat size (((s.lane l).core c).reg rs2) = none) :
    s.rvEffect l p c (.store size rs1 rs2 imm) n =
      s.programFault l p c ((s.lane l).core c).pc ((s.lane l).core c).insnWord := by
  simp only [State.rvEffect, h]

/-- Settles O21: a full buffer takes no new word, and a store that needs one is a program fault, to memory and to block space
alike; a buffer with room, or with the word already in it, takes the word and keeps the others (R147, R148, R249). -/
theorem writeBufferHolds2048Entries : Obligations.WriteBufferHolds2048Entries := by
  refine ⟨fun k w v => ⟨Core.buffer_of_full v, fun hroom => ?_⟩, ?_⟩
  · exact ⟨_, Core.buffer_of_room v hroom, lookup_oset_same w v _, rfl, rfl, rfl, fun u hu => lookup_oset_other v hu _⟩
  · intro s l p c n size rs1 rs2 a imm k ha hsize haligned hnew hcount
    have hfull (v : Word) : k.buffer (a / 4) v = none := Core.buffer_of_full v hnew hcount
    refine ⟨fun hmay hprivate hlater => State.rvEffect_store_of_none n ?_,
      fun hmay hblock hfour hbuffered => State.rvEffect_store_of_none n ?_⟩ <;> rw [← ha]
    · exact State.coreStore_of_full _ hsize haligned hmay hprivate hlater hfull
    · rw [State.coreStore_of_block _ haligned hmay hblock hfour, hbuffered]
      exact State.bufferWord_of_full _ (hfull _)

end Sys2Proof.Machine
end

section
/-! SUPPORT. The ranks of a partition's cores (R130), and what step 4 of a cycle and the entry of step 5 leave as it is and what they
set (R134, R154, R155, R192). -/

namespace Sys2Proof.Machine

/-! ### Ranks -/

theorem Lane.coreRank_lt_of_lt {x : Lane} {p c d : Nat} (hc : c ∈ (x.part p).coreList) (hcd : c < d) :
    x.coreRank p c < x.coreRank p d := by
  have hbelow : (x.part p).coreList.filter (fun e => decide (e < c)) =
      ((x.part p).coreList.filter (fun e => decide (e < d))).filter (fun e => decide (e < c)) := by
    rw [List.filter_filter]
    refine List.filter_congr fun e _ => ?_
    simp only [← Bool.decide_and]
    exact decide_eq_decide.mpr ⟨fun h => ⟨h, h.trans hcd⟩, And.left⟩
  unfold Lane.coreRank
  rw [hbelow]
  exact List.length_filter_lt_length_iff_exists.mpr ⟨c, by simp [hc, hcd], by simp⟩

theorem Lane.coreRank_lt_iff {x : Lane} {p c d : Nat} (hc : c ∈ (x.part p).coreList) (hd : d ∈ (x.part p).coreList) :
    c < d ↔ x.coreRank p c < x.coreRank p d := by
  refine ⟨Lane.coreRank_lt_of_lt hc, fun h => ?_⟩
  rcases Nat.lt_trichotomy c d with hlt | rfl | hgt
  · exact hlt
  · omega
  · have := Lane.coreRank_lt_of_lt hd hgt
    omega

theorem Lane.coreRank_eq_zero_iff (x : Lane) (p c : Nat) : x.coreRank p c = 0 ↔ ∀ d ∈ (x.part p).coreList, c ≤ d := by
  simp [Lane.coreRank]

theorem Lane.coreRank_lt_length {x : Lane} {p c : Nat} (hc : c ∈ (x.part p).coreList) :
    x.coreRank p c < (x.part p).coreList.length :=
  List.length_filter_lt_length_iff_exists.mpr ⟨c, hc, by simp⟩

/-! ### Step 4 keeps what a partition runs -/

/-- What a partition runs: its place in the cycle, its image and its cores. -/
def Part.runs (q : Part) : Phase × Option Image × List Nat := (q.phase, q.runImage, q.coreList)

theorem Lane.runs_onPart (x : Lane) (p : Nat) {f : Part → Part} (hf : ∀ q, (f q).runs = q.runs) :
    ((x.onPart p f).part p).runs = (x.part p).runs := by
  rw [Lane.part_onPart]
  exact hf _

@[simp] theorem Lane.part_onCore (x : Lane) (c p : Nat) (f : Core → Core) : (x.onCore c f).part p = x.part p := rfl

theorem Lane.runs_foldl {α : Type} {p : Nat} {f : Lane → α → Lane} (hf : ∀ y e, ((f y e).part p).runs = (y.part p).runs)
    (es : List α) (x : Lane) : ((es.foldl f x).part p).runs = (x.part p).runs := by
  induction es generalizing x with
  | nil => rfl
  | cons e es ih => exact (ih (f x e)).trans (hf x e)

@[simp] theorem Lane.runs_execWrite (x : Lane) (p : Nat) (sy : Symbol) (bs : List Byte) :
    ((x.execWrite p sy bs).part p).runs = (x.part p).runs := by
  unfold Lane.execWrite
  split_ifs
  · split <;> rfl
  · exact Lane.runs_onPart _ _ fun _ => rfl
  · exact Lane.runs_onPart _ _ fun _ => rfl

@[simp] theorem Lane.runs_prepare (x : Lane) (p : Nat) : ((x.prepare p).part p).runs = (x.part p).runs := by
  dsimp only [Lane.prepare]
  refine (Lane.runs_foldl (fun w (e : Symbol × Force) => Lane.runs_execWrite w p e.1 _) _ _).trans ?_
  refine (Lane.runs_onPart _ _ ?_).trans ?_
  · exact fun _ => rfl
  · refine Lane.runs_foldl (fun z sy => ?_) _ x
    rw [Lane.runs_onPart]
    · split
      · rfl
      · exact Lane.runs_execWrite ..
    · intro q
      split <;> rfl

/-! ### Step 5 enters every core alike -/

/-- A change of several cores gives each of them what the change gives every core. -/
theorem Lane.core_foldl_onCore {P : Core → Prop} {f : Nat → Core → Core} (hf : ∀ c k, P (f c k)) (x : Lane) {c : Nat}
    {cs : List Nat} (hc : c ∈ cs) : P ((cs.foldl (fun y d => y.onCore d (f d)) x).core c) := by
  induction cs using List.reverseRecOn with
  | nil => simp at hc
  | append_singleton ds d ih =>
    rw [List.foldl_concat]
    by_cases hd : c = d
    · subst hd
      rw [Lane.core_onCore]
      exact hf _ _
    · rw [Lane.core_onCore_other _ _ hd]
      exact ih (by simpa [hd] using hc)

theorem Lane.runs_enterCores (x : Lane) (p : Nat) : ((x.enterCores p).part p).runs = (x.part p).runs :=
  Lane.runs_foldl (fun y c => congrArg Part.runs (y.part_onCore c p _)) _ x

theorem Lane.enterCores_core {x : Lane} {p c : Nat} {i : Image} (hi : (x.part p).runImage = some i)
    (hc : c ∈ (x.part p).coreList) : ((x.enterCores p).core c).run = .running ∧ ((x.enterCores p).core c).pc = w32 i.entry := by
  unfold Lane.enterCores
  simp only [hi]
  exact Lane.core_foldl_onCore (P := fun k => k.run = .running ∧ k.pc = w32 i.entry) (fun _ _ => ⟨rfl, rfl⟩) x hc

/-- A partition in step 5 goes on running its image, and each of its cores stands at the entry point. -/
theorem Lane.enterCores_of_runs {x : Lane} {p c : Nat} {i : Image} {cs : List Nat} (hx : (x.part p).runs = (.run, some i, cs))
    (hc : c ∈ cs) : ((x.enterCores p).part p).phase = .run ∧ ((x.enterCores p).part p).runImage = some i ∧
      ((x.enterCores p).core c).run = .running ∧ ((x.enterCores p).core c).pc = w32 i.entry := by
  have hentered := (x.runs_enterCores p).trans hx
  simp only [Part.runs, Prod.mk.injEq] at hx hentered
  obtain ⟨-, hi, rfl⟩ := hx
  obtain ⟨hphase, hi', -⟩ := hentered
  exact ⟨hphase, hi', Lane.enterCores_core hi hc⟩

/-- A cycle whose pick is released: the partition takes its snapshot, is prepared, and its cores enter (Table 04-4, steps 3 to 5). -/
theorem State.cycleRunStart_of_released {s : State} {l : LaneId} {p : Nat} (now : Nat) (hp : p < 16)
    (hx : (s.lane l).inService = true) (hphase : ((s.lane l).part p).phase = .pick)
    (hreleased : (s.lane l).isReleased ((s.lane l).part p).ticket = true)
    (hstamp : ((s.lane l).part p).stampDue = false ∨ (s.lane l.other).inService = false) :
    ∃ f : Part → Part, (∀ q, (f q).runs = (.run, q.runImage, q.coreList)) ∧
      (s.cycleRunStart l p now).lane l = (((s.lane l).onPart p f).prepare p).enterCores p := by
  have hgo : (!(((s.lane l).part p).stampDue && (s.lane l.other).inService)) = true := by
    rcases hstamp with h | h <;> simp [h]
  unfold State.cycleRunStart
  simp only [hp, hx, hphase, hreleased, hgo, decide_true, Bool.and_self, if_true, State.lane_onLane]
  refine ⟨_, ?_, rfl⟩
  intro q
  rfl

theorem exec_cycleRunStart (l : LaneId) (p beat : Nat) (s : State) :
    exec (.cycleRunStart l p beat) s = .next ((s.at_ beat).cycleRunStart l p (s.at_ beat).pkg.beat) := rfl

/-- Settles O34: a core's rank is the number of the partition's cores below it, and CYCLE_RUN_START enters every core of the partition
at the entry point of the one image that it runs (R130, R134). -/
theorem coresAreRanked : Obligations.CoresAreRanked := by
  refine ⟨fun x p c d => Lane.coreRank_lt_iff, fun x p c hc => ⟨x.coreRank_eq_zero_iff p c, Lane.coreRank_lt_length hc⟩, ?_⟩
  intro s l p beat c i hp hx hphase hreleased hi hstamp hc
  refine ⟨_, exec_cycleRunStart l p beat s, ?_⟩
  simp only [← s.lane_at beat] at hx hphase hreleased hi hstamp hc
  obtain ⟨f, hf, hlane⟩ := State.cycleRunStart_of_released (s.at_ beat).pkg.beat hp hx hphase hreleased hstamp
  rw [hlane]
  refine Lane.enterCores_of_runs ?_ hc
  rw [Lane.runs_prepare, Lane.part_onPart, hf, hi]

end Sys2Proof.Machine
end

section
/-! SUPPORT. What each check of Table 09-5 answers: steps 3 to 5 at the intake of a command, step 6 and the wait of R345 at its
admission, steps 7 to 10 at its execution. -/

namespace Sys2Proof.Machine

/-! ### Steps 3 to 5: the key, the sequence number and the credit of a protected command -/

section intake
variable {s : State} {l : LaneId} {h : Hdr} {op : Op} {e : Word} {n p : Nat} {k : Nat × List Byte × Word}

theorem State.entered_of_sender (hs : h.sender = some p) :
    s.entered l h op = s.onLane l (fun x => x.onSender p (fun q => q.takeFresh h op)) := by
  simp only [State.entered, hs]

theorem State.takeCommand_of_unprotected (hs : h.sender = none) :
    s.takeCommand l h op e n = s.admitCommand l h op e n := by
  simp only [State.takeCommand, hs]

/-- No command key is held (R335). -/
theorem State.takeCommand_of_noKey (hs : h.sender = some p) (hk : (s.lane l).keyOf 1 p = none) :
    s.takeCommand l h op e n = s.replyUnprotected l h (opCode op) .keyLost [] e := by
  simp only [State.takeCommand, hs, hk]

/-- A packet of another load of the key is discarded (R334). -/
theorem State.takeCommand_of_otherKey (hs : h.sender = some p) (hk : (s.lane l).keyOf 1 p = some k) (hg : h.keyGen ≠ some k.2.2) :
    s.takeCommand l h op e n = s := by
  simp only [State.takeCommand, hs, hk, if_pos hg]

/-- A SEQ that is not fresh, of a command that the reply cache does not hold (R338, R339). -/
theorem State.takeCommand_of_replayed (hs : h.sender = some p) (hk : (s.lane l).keyOf 1 p = some k) (hg : h.keyGen = some k.2.2)
    (hseq : freshSeq ((s.lane l).sender p).high.toNat ((s.lane l).sender p).marked h.seq.toNat = false)
    (hkept : ((s.lane l).sender p).kept.find? (fun q => q.sameAs h op) = none) :
    s.takeCommand l h op e n = s.replyUnprotected l h (opCode op) .replay (beBytes 4 ((s.lane l).sender p).high.toNat) e := by
  simp only [State.takeCommand, hs, hk, hg, hseq, hkept, ne_eq, not_true_eq_false, if_false, Bool.not_false, if_true]

/-- A fresh command enters its sender's window; the sender's credit then says whether it goes on (R338, R342). -/
theorem State.takeCommand_of_fresh (hs : h.sender = some p) (hk : (s.lane l).keyOf 1 p = some k) (hg : h.keyGen = some k.2.2)
    (hseq : freshSeq ((s.lane l).sender p).high.toNat ((s.lane l).sender p).marked h.seq.toNat = true) :
    s.takeCommand l h op e n = if 16 ≤ (s.lane l).outstandingOf p then (s.entered l h op).reply l h (opCode op) .noCredit [] e
      else (s.entered l h op).admitCommand l h op e n := by
  simp only [State.takeCommand, State.entered_of_sender hs, hs, hk, hg, hseq, ne_eq, not_true_eq_false, if_false, Bool.not_true,
    Bool.false_eq_true]

end intake

/-! ### Step 6 and the wait for the command's PICK -/

section admission
variable {s : State} {l : LaneId} {h : Hdr} {op : Op} {e : Word} {n : Nat}

/-- A reserved FLAGS bit, a STATUS that is not 0, or a PICK more than 1,000 ahead (R332, R345). -/
theorem State.admitCommand_of_badHeader
    (hbad : h.flagsOk = false ∨ h.statusZero = false ∨ (1000 < (h.pick - e).toNat ∧ (h.pick - e).toNat < 2 ^ 31)) :
    s.admitCommand l h op e n = s.reply l h (opCode op) .badParam [] e := by
  unfold State.admitCommand
  refine if_pos ?_
  simp only [Bool.or_eq_true, Bool.and_eq_true, Bool.not_eq_true', decide_eq_true_eq, or_assoc]
  exact hbad

/-- With FLAGS and STATUS in order, the distance of the PICK alone decides. -/
theorem State.admitCommand_of_goodHeader (hf : h.flagsOk = true) (hz : h.statusZero = true)
    (hnear : ¬ (1000 < (h.pick - e).toNat ∧ (h.pick - e).toNat < 2 ^ 31)) :
    s.admitCommand l h op e n = if 1 ≤ (h.pick - e).toNat ∧ (h.pick - e).toNat ≤ 1000 then
      s.onLane l (fun x => x.onMan (fun m => { m with outstanding := m.outstanding ++ [⟨h, op, e, n, .epoch, false, s.pkg.beat⟩] }))
      else s.execute l h op e n := by
  simp only [State.admitCommand, hf, hz, Bool.not_true, Bool.false_or, Bool.and_eq_true, decide_eq_true_eq, if_neg hnear]

/-- A PICK at most 1,000 ahead makes the command wait (R345). -/
theorem State.admitCommand_of_ahead (hf : h.flagsOk = true) (hz : h.statusZero = true) (hlow : 1 ≤ (h.pick - e).toNat)
    (hhigh : (h.pick - e).toNat ≤ 1000) :
    s.admitCommand l h op e n =
      s.onLane l (fun x => x.onMan (fun m => { m with outstanding := m.outstanding ++ [⟨h, op, e, n, .epoch, false, s.pkg.beat⟩] })) := by
  rw [State.admitCommand_of_goodHeader hf hz (by omega), if_pos ⟨hlow, hhigh⟩]

/-- A PICK that is not ahead lets the command execute. -/
theorem State.admitCommand_of_due (hf : h.flagsOk = true) (hz : h.statusZero = true)
    (hdue : (h.pick - e).toNat = 0 ∨ 2 ^ 31 ≤ (h.pick - e).toNat) : s.admitCommand l h op e n = s.execute l h op e n := by
  rw [State.admitCommand_of_goodHeader hf hz (by omega), if_neg (by omega)]

end admission

/-! ### Steps 7 to 10: the opcode, the life cycle and the halt -/

theorem State.execute_of_refused {s : State} {h : Hdr} {op : Op} {st : Status} (l : LaneId) (e : Word) (n : Nat)
    (hst : s.earlyRefusal h op = some st) :
    s.execute l h op e n = s.replyWith l ((s.lane l).replyKey h) h (opCode op) st [] e := by
  simp only [State.execute, hst]

/-- Past the checks of the opcode and of the life cycle, a halted module refuses what is not of R350. -/
theorem State.earlyRefusal_of_halted {s : State} {h : Hdr} {op : Op} (hhalted : s.pkg.halted = true)
    (hfast : h.fast = true → fastCodes.contains (opCode op) = true) (hknown : ∀ c, op ≠ .unknown c)
    (hallowed : codeAllowed s.pkg.life (decide (h.via = .service)) h.sender.isNone (opCode op) = true)
    (hmeters : ¬ (s.pkg.order = .m00 ∧ 0x0301 ≤ opCode op ∧ opCode op ≤ 0x0304)) (hcode : opCode op ∉ haltedCodes) :
    s.earlyRefusal h op = some .safeState := by
  have hpath : (h.fast && !fastCodes.contains (opCode op)) = false := by
    cases hf : h.fast
    · rfl
    · simp only [hfast hf, Bool.not_true, Bool.and_false]
  have hmetering : (decide (s.pkg.order = .m00) && decide (0x0301 ≤ opCode op) && decide (opCode op ≤ 0x0304)) = false := by
    simpa [and_assoc] using hmeters
  have hhalt : (s.pkg.halted && !haltedCodes.contains (opCode op)) = true := by
    simpa [hhalted] using hcode
  unfold State.earlyRefusal
  split
  · exact absurd rfl (hknown _)
  · simp only [hpath, hmetering, hallowed, hhalt, Bool.or_false, Bool.not_true, Bool.false_eq_true, if_false, if_true]

/-! ### The statements -/

/-- Settles O7: the checks of steps 3 to 6 of Table 09-5, each with its answer (R332, R334, R335, R338, R339, R342, R345, R349). -/
theorem commandsAreRefusedInOrder : Obligations.CommandsAreRefusedInOrder := by
  intro s l h op e n
  refine ⟨fun p hs => ⟨State.takeCommand_of_noKey hs, fun k hk => ⟨State.takeCommand_of_otherKey hs hk, fun hg => ⟨?_, ?_⟩⟩⟩,
    State.takeCommand_of_unprotected, State.admitCommand_of_badHeader, State.admitCommand_of_ahead, State.admitCommand_of_due,
    fun _ => State.execute_of_refused l e n⟩
  · exact State.takeCommand_of_replayed hs hk hg
  · intro hseq
    rw [State.takeCommand_of_fresh hs hk hg hseq]
    exact ⟨fun hfull => if_pos hfull, fun hcredit => if_neg (Nat.not_le.mpr hcredit)⟩

/-- Settles O8: the twelve opcodes are those that step 9 of Table 09-5 lets pass (R350). -/
theorem haltedModuleRefusesCommands : Obligations.HaltedModuleRefusesCommands :=
  fun _ _ _ hhalted hfast hknown hallowed hmeters hcode => State.earlyRefusal_of_halted hhalted hfast hknown hallowed hmeters hcode

end Sys2Proof.Machine
end

section
/-! SUPPORT. The calendar of the always-on domain (R459, R461, R462, Table 13-1): the leap year, the length of a month, the checks of a
date and the next second, which keeps to the dates that Table 13-1 accepts. -/

namespace Sys2Proof.Machine

/-! ### Leap years and months -/

theorem isLeap_iff (y : Nat) : isLeap y = true ↔ y % 4 = 0 ∧ y % 100 ≠ 0 ∨ y % 400 = 0 := by
  simp [isLeap]

theorem monthDays_february (y : Nat) : monthDays y 2 = if isLeap y then 29 else 28 := rfl

theorem monthDays_december (y : Nat) : monthDays y 12 = 31 := rfl

theorem monthDays_february_eq_29_iff (y : Nat) : monthDays y 2 = 29 ↔ isLeap y = true := by
  rw [monthDays_february]
  split <;> simp [*]

theorem monthDays_february_eq_29_or_28 (y : Nat) : monthDays y 2 = 29 ∨ monthDays y 2 = 28 := by
  rw [monthDays_february]
  split <;> simp

theorem one_le_monthDays (y m : Nat) : 1 ≤ monthDays y m := by
  unfold monthDays
  split_ifs <;> decide

/-! ### The checks of Table 13-1 and the next second -/

theorem dateOk_iff (d : DateTime) :
    dateOk d = true ↔ (2000 ≤ d.year ∧ d.year ≤ 2999) ∧ (1 ≤ d.month ∧ d.month ≤ 12) ∧
      (1 ≤ d.day ∧ d.day ≤ monthDays d.year d.month) ∧ d.hour ≤ 23 ∧ d.minute ≤ 59 ∧ d.second ≤ 59 := by
  simp only [dateOk, Bool.and_eq_true, decide_eq_true_eq, and_assoc]

section next
variable {d e : DateTime}

/-- The next second counts one field on and starts every finer field anew. -/
theorem dtNext_some_cases (h : dtNext d = some e) :
    (d.second < 59 ∧ e = { d with second := d.second + 1 }) ∨
    (d.minute < 59 ∧ e = { d with second := 0, minute := d.minute + 1 }) ∨
    (d.hour < 23 ∧ e = { d with second := 0, minute := 0, hour := d.hour + 1 }) ∨
    (d.day < monthDays d.year d.month ∧ e = { d with second := 0, minute := 0, hour := 0, day := d.day + 1 }) ∨
    (d.month < 12 ∧ e = { d with second := 0, minute := 0, hour := 0, day := 1, month := d.month + 1 }) ∨
    (d.year < 2999 ∧ e = ⟨d.year + 1, 1, 1, 0, 0, 0⟩) := by
  unfold dtNext at h
  split_ifs at h with hsec hmin hhour hday hmonth hyear <;> obtain rfl := Option.some.inj h
  · exact .inl ⟨hsec, rfl⟩
  · exact .inr (.inl ⟨hmin, rfl⟩)
  · exact .inr (.inr (.inl ⟨hhour, rfl⟩))
  · exact .inr (.inr (.inr (.inl ⟨hday, rfl⟩)))
  · exact .inr (.inr (.inr (.inr (.inl ⟨hmonth, rfl⟩))))
  · exact .inr (.inr (.inr (.inr (.inr ⟨hyear, rfl⟩))))

/-- The calendar ends where every field is at its last value. -/
theorem dtNext_eq_none_iff :
    dtNext d = none ↔ 59 ≤ d.second ∧ 59 ≤ d.minute ∧ 23 ≤ d.hour ∧ monthDays d.year d.month ≤ d.day ∧ 12 ≤ d.month ∧ 2999 ≤ d.year := by
  simp [dtNext, ite_eq_iff]

/-- A date that Table 13-1 accepts is followed by one that it accepts. -/
theorem dateOk_of_dtNext (hd : dateOk d = true) (h : dtNext d = some e) : dateOk e = true := by
  rw [dateOk_iff] at hd ⊢
  obtain ⟨⟨hylow, hyhigh⟩, ⟨hmlow, hmhigh⟩, ⟨hdlow, hdhigh⟩, hhour, hmin, hsec⟩ := hd
  have hfirst : 1 ≤ monthDays d.year (d.month + 1) := one_le_monthDays ..
  have hnewYear : 1 ≤ monthDays (d.year + 1) 1 := one_le_monthDays ..
  obtain ⟨hlt, rfl⟩ | ⟨hlt, rfl⟩ | ⟨hlt, rfl⟩ | ⟨hlt, rfl⟩ | ⟨hlt, rfl⟩ | ⟨hlt, rfl⟩ := dtNext_some_cases h <;>
    dsimp only <;> omega

theorem dtNext_eq_none_iff_of_dateOk (hd : dateOk d = true) : dtNext d = none ↔ d = ⟨2999, 12, 31, 23, 59, 59⟩ := by
  refine ⟨fun hend => ?_, ?_⟩
  · obtain ⟨year, month, day, hour, minute, second⟩ := d
    obtain ⟨⟨-, hyhigh⟩, ⟨-, hmhigh⟩, ⟨-, hdhigh⟩, hhour, hmin, hsec⟩ := (dateOk_iff _).mp hd
    obtain ⟨hsec', hmin', hhour', hday', hmonth', hyear'⟩ := dtNext_eq_none_iff.mp hend
    obtain rfl : month = 12 := Nat.le_antisymm hmhigh hmonth'
    obtain rfl : day = 31 := (Nat.le_antisymm hdhigh hday').trans (monthDays_december year)
    obtain rfl : year = 2999 := Nat.le_antisymm hyhigh hyear'
    obtain rfl : hour = 23 := Nat.le_antisymm hhour hhour'
    obtain rfl : minute = 59 := Nat.le_antisymm hmin hmin'
    obtain rfl : second = 59 := Nat.le_antisymm hsec hsec'
    rfl
  · rintro rfl
    rfl

end next

/-- After 28 February comes 29 February in a leap year and 1 March in another. -/
theorem dtNext_of_february_28 (y : Nat) :
    dtNext ⟨y, 2, 28, 23, 59, 59⟩ = some (if isLeap y then ⟨y, 2, 29, 0, 0, 0⟩ else ⟨y, 3, 1, 0, 0, 0⟩) := by
  cases hleap : isLeap y <;> simp [dtNext, monthDays_february, hleap]

/-! ### The statement -/

/-- Settles O29: the leap years and the months of R459, and a calendar that stays within Table 13-1 to its last second. -/
theorem calendarIsGregorian : Obligations.CalendarIsGregorian := by
  refine ⟨fun d hd => ((dateOk_iff d).mp hd).1, fun y => ⟨?_, monthDays_february_eq_29_or_28 y⟩, by decide, by decide,
    fun _ _ => dateOk_of_dtNext, fun _ => dtNext_eq_none_iff_of_dateOk, dtNext_of_february_28⟩
  rw [monthDays_february_eq_29_iff, isLeap_iff]

end Sys2Proof.Machine
end

section
/-! SUPPORT. What every row does to the queue, the fuses, the halt, the beat count and the life cycle: the lemmas `f_fwd` over the
operations, carried over `exec` and over one step of the machine. -/

namespace Sys2Proof.Machine

/-! ### Rows -/

theorem Fwd.ite {r t u : State} {c : Prop} [Decidable c] (ht : Fwd r t) (hu : Fwd r u) : Fwd r (if c then t else u) := by
  split
  · exact ht
  · exact hu

/-- A row of a timer that may not be running. -/
theorem Fwd.timer {r u : State} {o : Option Nat} {f : Nat → State} (hf : ∀ e, Fwd r (f e)) (hu : Fwd r u) :
    Fwd r (match o with | some e => f e | none => u) := by
  cases o with
  | none => exact hu
  | some e => exact hf e

/-- A command row is its command. -/
theorem exec_of_commandOf {i : Instr} {h : Hdr} {op : Op} (hc : commandOf i = some (h, op)) (s : State) :
    exec i s = .next (s.command h op) := by
  cases i <;> cases hc <;> rfl

/-- With lane `l` alone in agreement, a command is taken by that lane. -/
theorem State.command_of_alone {s : State} {l : LaneId} (hal : s.Alone l) (h : Hdr) (op : Op) :
    s.command h op = (s.takeCommand l h op s.releasedEpoch s.pkg.beat).onLane l Lane.reserve := by
  obtain ⟨hl, hother⟩ := hal
  cases l <;> simp only [State.lane, LaneId.other] at hl hother <;> simp [State.command, State.eachLane, hl, hother]

/-- Every row but the reset of the module and its release answers a state further on. -/
theorem exec_fwd (i : Instr) (s : State) (hv : i ≠ .vrstReset) (hr : ∀ b, i ≠ .resetRelease b) :
    ∃ t, exec i s = .next t ∧ Fwd s t := by
  have h0 : Fwd s s := .refl s
  have hat : ∀ n, Fwd s (s.at_ n) := fun n => State.at_fwd s n h0
  have hcommand : ∀ {h op}, commandOf i = some (h, op) → ∃ t, exec i s = .next t ∧ Fwd s t :=
    fun hc => ⟨_, exec_of_commandOf hc s, State.command_fwd _ _ _ h0⟩
  cases i with
  | pendingReply _ _ _ _ => exact ⟨_, rfl, State.pendingReply_fwd (hfwd := hat _) ..⟩
  | instruction _ _ => exact ⟨_, rfl, State.asCore_fwd (hf := fun _ => State.coreStep_fwd (hfwd := h0) ..) (hfwd := h0) ..⟩
  | ecallPick _ _ => exact ⟨_, rfl, State.asCore_fwd (hf := fun _ => State.callPick_fwd (hfwd := h0) ..) (hfwd := h0) ..⟩
  | ringPost _ _ => exact ⟨_, rfl, State.asCore_fwd (hf := fun _ => State.callPost_fwd (hfwd := h0) ..) (hfwd := h0) ..⟩
  | ringTake _ _ => exact ⟨_, rfl, State.asCore_fwd (hf := fun _ => State.callTake_fwd (hfwd := h0) ..) (hfwd := h0) ..⟩
  | restartCause _ _ => exact ⟨_, rfl, State.asCore_fwd (hf := fun _ => State.callCause_fwd (hfwd := h0) ..) (hfwd := h0) ..⟩
  | cycleInfo _ _ => exact ⟨_, rfl, State.asCore_fwd (hf := fun _ => State.callInfo_fwd (hfwd := h0) ..) (hfwd := h0) ..⟩
  | pickReq _ _ => exact ⟨_, rfl, State.registerWrite_fwd (hfwd := h0) ..⟩
  | sysWideMbx _ _ _ => exact ⟨_, rfl, State.registerWrite_fwd (hfwd := h0) ..⟩
  | laneDigestMbx _ _ _ => exact ⟨_, rfl, State.registerWrite_fwd (hfwd := h0) ..⟩
  | hedSnapMbx _ _ _ => exact ⟨_, rfl, State.registerWrite_fwd (hfwd := h0) ..⟩
  | loopBankMbx _ _ _ => exact ⟨_, rfl, State.registerWrite_fwd (hfwd := h0) ..⟩
  | nrgAccMbx _ _ _ => exact ⟨_, rfl, State.registerWrite_fwd (hfwd := h0) ..⟩
  | rtcTimeMbx _ _ _ => exact ⟨_, rfl, State.registerWrite_fwd (hfwd := h0) ..⟩
  | keySlotMbx _ _ _ => exact ⟨_, rfl, State.registerWrite_fwd (hfwd := h0) ..⟩
  | keyMeasMbx _ _ _ => exact ⟨_, rfl, State.registerWrite_fwd (hfwd := h0) ..⟩
  | recWinMbx _ _ _ => exact ⟨_, rfl, State.registerWrite_fwd (hfwd := h0) ..⟩
  | mailboxCaptureDone _ _ _ => exact ⟨_, rfl, State.onLane_fwd _ _ _ h0⟩
  | rtcTime0Read _ r _ => cases r with
    | core _ => exact ⟨_, rfl, hat _⟩
    | _ => exact ⟨_, rfl, State.onLane_fwd _ _ _ (hat _)⟩
  | rtcTime4Read _ r => cases r with
    | core _ => exact ⟨_, rfl, h0⟩
    | _ => exact ⟨_, rfl, State.onLane_fwd _ _ _ h0⟩
  | rtcFreezeTimeout _ _ _ => exact ⟨_, rfl, State.onLane_fwd _ _ _ (hat _)⟩
  | rtcTick => exact ⟨_, rfl, State.rtcTick_fwd (hfwd := h0) ..⟩
  | ringDoorbellPost _ _ _ => exact ⟨_, rfl, .ite (State.doorbellPost_fwd (hfwd := h0) ..) h0⟩
  | ringDoorbellTake _ _ _ => exact ⟨_, rfl, .ite (State.doorbellTake_fwd (hfwd := h0) ..) h0⟩
  | fltAck _ _ => exact ⟨_, rfl, State.registerWrite_fwd (hfwd := h0) ..⟩
  | rtcSetGo _ _ => exact ⟨_, rfl, State.setGo_fwd (hfwd := h0) ..⟩
  | recover _ _ _ => exact ⟨_, rfl, .ite (State.onLane_fwd _ _ _ h0) h0⟩
  | recCtlFreeze _ => exact ⟨_, rfl, State.registerWrite_fwd (hfwd := h0) ..⟩
  | recCtlThaw _ => exact ⟨_, rfl, State.registerWrite_fwd (hfwd := h0) ..⟩
  | postedWrite _ _ _ => exact ⟨_, rfl, State.postedWrite_fwd (hfwd := h0) ..⟩
  | postedWriteTaken _ _ => exact ⟨_, rfl, State.postTaken_fwd (hfwd := h0) ..⟩
  | registerWrite _ _ _ _ => exact ⟨_, rfl, State.registerWrite_fwd (hfwd := h0) ..⟩
  | pickRequestAccept => exact ⟨_, rfl, State.pickRequestAccept_fwd (hfwd := h0) ..⟩
  | pickClose _ => exact ⟨_, rfl, State.pickClose_fwd (hfwd := hat _) ..⟩
  | closeReceived _ => exact ⟨_, rfl, State.closeReceived_fwd (hfwd := h0) ..⟩
  | epochExchange _ => exact ⟨_, rfl, State.epochExchange_fwd (hfwd := h0) ..⟩
  | epochRelease _ _ => exact ⟨_, rfl, State.epochRelease_fwd (hfwd := hat _) ..⟩
  | soloRelease _ _ => exact ⟨_, rfl, State.soloRelease_fwd (hfwd := hat _) ..⟩
  | agreementTimeout _ _ => exact ⟨_, rfl, State.agreementTimeout_fwd (hfwd := hat _) ..⟩
  | cycleExecutivePick _ _ => exact ⟨_, rfl, State.executivePick_fwd (hfwd := hat _) ..⟩
  | ready _ _ _ => exact ⟨_, rfl, State.ready_fwd (hfwd := hat _) ..⟩
  | readyReceived _ _ => exact ⟨_, rfl, State.readyReceived_fwd (hfwd := h0) ..⟩
  | readyLate _ _ _ => exact ⟨_, rfl, State.readyLate_fwd (hfwd := hat _) ..⟩
  | lateReadinessWindow _ _ _ => exact ⟨_, rfl, State.lateWindow_fwd (hfwd := hat _) ..⟩
  | cycleRunStart _ _ _ => exact ⟨_, rfl, State.cycleRunStart_fwd (hfwd := hat _) ..⟩
  | coreReturn _ _ _ => exact ⟨_, rfl, State.coreReturn_fwd (hfwd := hat _) ..⟩
  | watchdogOverrun _ _ => exact ⟨_, rfl, State.watchdog_fwd (hfwd := hat _) ..⟩
  | overrunNotice _ _ => exact ⟨_, rfl, State.overrunNotice_fwd (hfwd := h0) ..⟩
  | partitionStarting _ _ => exact ⟨_, rfl, State.partitionStarting_fwd (hfwd := h0) ..⟩
  | exchangeStaged _ _ _ => exact ⟨_, rfl, State.exchangeStaged_fwd (hfwd := h0) ..⟩
  | planDigest _ _ => exact ⟨_, rfl, State.planReceived_fwd (hfwd := h0) ..⟩
  | install _ _ => exact ⟨_, rfl, State.installReceived_fwd (hfwd := h0) ..⟩
  | exchangeTimeout _ _ _ => exact ⟨_, rfl, State.exchangeTimeout_fwd (hfwd := hat _) ..⟩
  | savePeriodExpiry _ => exact ⟨_, rfl, State.savePeriodExpiry_fwd (hfwd := hat _) ..⟩
  | saveComplete _ => exact ⟨_, rfl, State.saveComplete_fwd (hfwd := h0) ..⟩
  | writeRetry _ _ => exact ⟨_, rfl, State.writeRetry_fwd (hfwd := h0) ..⟩
  | sampleFrame _ _ _ => exact ⟨_, rfl, State.sampleFrame_fwd (hfwd := h0) ..⟩
  | frameCheck _ _ _ => exact ⟨_, rfl, State.frameCheck_fwd (hfwd := h0) ..⟩
  | outputUpdate _ _ _ => exact ⟨_, rfl, State.literalsMoved_fwd (hfwd := State.outputUpdate_fwd (hfwd := hat _) ..) ..⟩
  | regionUpdateTimer _ _ _ => exact ⟨_, rfl, State.regionUpdateTimer_fwd (hfwd := hat _) ..⟩
  | updateTimeout _ _ _ => exact ⟨_, rfl, State.literalsMoved_fwd (hfwd := State.updateTimeout_fwd (hfwd := hat _) ..) ..⟩
  | disagreementWindow _ _ => exact ⟨_, rfl, State.literalsMoved_fwd (hfwd := State.disagreementWindow_fwd (hfwd := hat _) ..) ..⟩
  | commitDigest _ _ _ => exact ⟨_, rfl, State.compareDigest_fwd (hfwd := hat _) ..⟩
  | digestWindow _ _ => exact ⟨_, rfl, State.digestWindow_fwd (hfwd := hat _) ..⟩
  | keepalive _ _ _ => exact ⟨_, rfl, State.keepalive_fwd (hfwd := hat _) ..⟩
  | subLinkLoss _ _ _ => exact ⟨_, rfl, State.subLinkLoss_fwd (hfwd := hat _) ..⟩
  | heartbeatToggle _ _ => exact ⟨_, rfl, State.heartbeatToggle_fwd (hfwd := hat _) ..⟩
  | heartbeatMissing _ _ => exact ⟨_, rfl, State.heartbeatMissing_fwd (hfwd := hat _) ..⟩
  | faultLine _ _ => exact ⟨_, rfl, State.seeFaultLine_fwd (hfwd := hat _) ..⟩
  | faultNotice _ _ => exact ⟨_, rfl, State.seeNotice_fwd (hfwd := hat _) ..⟩
  | rejoinReset _ => exact ⟨_, rfl, State.rejoinReset_fwd (hfwd := h0) ..⟩
  | rejoinSelfTest _ _ _ => exact ⟨_, rfl, State.rejoinSelfTest_fwd (hfwd := hat _) ..⟩
  | rejoinKeys _ _ => exact ⟨_, rfl, State.rejoinKeys_fwd (hfwd := hat _) ..⟩
  | rejoinPreCopy _ => exact ⟨_, rfl, State.rejoinPreCopy_fwd (hfwd := h0) ..⟩
  | rejoinFinalCopy _ _ => exact ⟨_, rfl, State.rejoinFinalCopy_fwd (hfwd := h0) ..⟩
  | rejoinEngineState _ _ => exact ⟨_, rfl, State.rejoinEngineState_fwd (hfwd := h0) ..⟩
  | rejoinJoin _ _ => exact ⟨_, rfl, State.rejoinJoin_fwd (hfwd := hat _) ..⟩
  | regionFrame _ _ => exact ⟨_, rfl, State.literalsMoved_fwd (hfwd := State.regionFrame_fwd (hfwd := h0) ..) ..⟩
  | testSlot _ _ _ _ => exact ⟨_, rfl, State.literalsMoved_fwd (hfwd := State.testSlot_fwd (hfwd := hat _) ..) ..⟩
  | overcurrent _ _ => exact ⟨_, rfl, State.literalsMoved_fwd (hfwd := State.overcurrent_fwd (hfwd := hat _) ..) ..⟩
  | fieldSupplyFault _ _ => exact ⟨_, rfl, State.literalsMoved_fwd (hfwd := State.fieldFault_fwd (hfwd := h0) ..) ..⟩
  | thresholdCrossing _ _ _ => exact ⟨_, rfl, State.thresholdCrossing_fwd (hfwd := h0) ..⟩
  | literalVector _ _ _ => exact ⟨_, rfl, State.literalVector_fwd (hfwd := hat _) ..⟩
  | vectorRefresh _ _ => exact ⟨_, rfl, State.vectorRefresh_fwd (hfwd := hat _) ..⟩
  | vectorTimeout _ _ _ => exact ⟨_, rfl, State.vectorTimeout_fwd (hfwd := hat _) ..⟩
  | inhibitMessage _ _ => exact ⟨_, rfl, State.literalsMoved_fwd (hfwd := State.inhibitMessage_fwd (hfwd := h0) ..) ..⟩
  | crcCheck _ _ _ => exact ⟨_, rfl, State.literalsMoved_fwd (hfwd := State.crcCheck_fwd (hfwd := h0) ..) ..⟩
  | crossRegionCrcCheck _ _ _ _ => exact ⟨_, rfl, State.crossCrcCheck_fwd (hfwd := hat _) ..⟩
  | walkingVector _ _ => exact ⟨_, rfl, State.literalsMoved_fwd (hfwd := State.walkingVector_fwd (hfwd := h0) ..) ..⟩
  | heddlePersist _ _ => exact ⟨_, rfl, State.heddlePersist_fwd (hfwd := h0) ..⟩
  | heddleVerify _ _ _ => exact ⟨_, rfl, State.heddleVerify_fwd (hfwd := h0) ..⟩
  | heddleSwitchOverlapEnd _ => exact ⟨_, rfl, State.heddleOverlapEnd_fwd (hfwd := h0) ..⟩
  | heddleMark _ _ _ => exact ⟨_, rfl, State.heddleMark_fwd (hfwd := hat _) ..⟩
  | sampleInstant _ _ => exact ⟨_, rfl, State.sampleInstant_fwd (hfwd := hat _) ..⟩
  | sampleMessage _ _ => exact ⟨_, rfl, State.sampleMessage_fwd (hfwd := h0) ..⟩
  | sampleComputation _ _ _ => exact ⟨_, rfl, State.sampleComputation_fwd (hfwd := hat _) ..⟩
  | onTimeJudgement _ _ _ => exact ⟨_, rfl, State.onTimeJudgement_fwd (hfwd := hat _) ..⟩
  | judgementMessage _ _ => exact ⟨_, rfl, State.judgementMessage_fwd (hfwd := h0) ..⟩
  | outputPhase _ _ _ => exact ⟨_, rfl, State.outputPhase_fwd (hfwd := hat _) ..⟩
  | lateSample _ _ _ => exact ⟨_, rfl, State.lateSample_fwd (hfwd := hat _) ..⟩
  | lateSampleWindow _ _ _ => exact ⟨_, rfl, State.lateSampleWindow_fwd (hfwd := hat _) ..⟩
  | blockCrc _ _ => exact ⟨_, rfl, State.blockCheck_fwd (hfwd := hat _) ..⟩
  | windowEnd _ => exact ⟨_, rfl, State.windowEnd_fwd (hfwd := hat _) ..⟩
  | windowMessage _ => exact ⟨_, rfl, State.windowMessage_fwd (hfwd := h0) ..⟩
  | pulseStart _ _ => exact ⟨_, rfl, .ite (hat _).updLanes (hat _)⟩
  | pulseEnd _ _ => exact ⟨_, rfl, .ite (hat _).updLanes (hat _)⟩
  | netFrameReceived _ _ _ _ => exact ⟨_, rfl, .ite (State.onLane_fwd _ _ _ (hat _)) (hat _)⟩
  | pauseTimerExpiry _ _ _ => exact ⟨_, rfl, .timer (fun _ => .ite (State.onLane_fwd _ _ _ (hat _)) (hat _)) (hat _)⟩
  | pauseRepeat _ _ _ => exact ⟨_, rfl, .timer (fun _ => .ite (State.onLane_fwd _ _ _ (hat _)) (hat _)) (hat _)⟩
  | pauseLong _ _ _ => exact ⟨_, rfl, .timer (fun _ => .ite (State.flag_fwd (hfwd := State.onLane_fwd _ _ _ (hat _)) ..) (hat _)) (hat _)⟩
  | pauseCapped _ _ _ => exact ⟨_, rfl, .timer (fun _ => .ite (State.flag_fwd (hfwd := State.onLane_fwd _ _ _ (hat _)) ..) (hat _)) (hat _)⟩
  | arpRequest _ => exact ⟨_, rfl, State.onLane_fwd _ _ _ h0⟩
  | neighbourSolicitation _ => exact ⟨_, rfl, State.onLane_fwd _ _ _ h0⟩
  | echoRequest _ => exact ⟨_, rfl, State.onLane_fwd _ _ _ h0⟩
  | intakeInterval _ => exact ⟨_, rfl, .ite ((hat _).upd rfl rfl rfl rfl rfl rfl rfl rfl id (Nat.le_refl _) (Nat.le_refl _)) (hat _)⟩
  | prpSourceAgeout _ _ _ _ => exact ⟨_, rfl, State.onLane_fwd _ _ _ (hat _)⟩
  | txFrameStart _ _ _ => exact ⟨_, rfl, State.txStart_fwd (hfwd := hat _) ..⟩
  | txUnderrun _ _ _ => exact ⟨_, rfl, State.txUnderrun_fwd (hfwd := hat _) ..⟩
  | sfHoldEnd _ _ _ => exact ⟨_, rfl, .timer (fun _ => .ite (State.onLane_fwd _ _ _ (hat _)) (hat _)) (hat _)⟩
  | txAgedDrop _ _ _ => exact ⟨_, rfl, .ite (State.onLane_fwd _ _ _ (hat _)) (hat _)⟩
  | prpSupervisionTimer _ _ => exact ⟨_, rfl, .ite (State.onLane_fwd _ _ _ (hat _)) (hat _)⟩
  | linkLoss _ _ => exact ⟨_, rfl, State.linkLoss_fwd (hfwd := h0) ..⟩
  | speedDecision _ _ _ _ => exact ⟨_, rfl, State.speedDecision_fwd (hfwd := hat _) ..⟩
  | renegotiationTimeout _ _ _ => exact ⟨_, rfl, State.renegTimeout_fwd (hfwd := hat _) ..⟩
  | lowerSuspendedEnd _ _ _ => exact ⟨_, rfl, .timer (fun _ => .ite (State.onLane_fwd _ _ _ (hat _)) (hat _)) (hat _)⟩
  | bulkSegment _ => exact ⟨_, rfl, State.bulkSegment_fwd (hfwd := h0) ..⟩
  | bulkTimeout _ _ _ _ => exact ⟨_, rfl, State.bulkTimeout_fwd (hfwd := hat _) ..⟩
  | eventResend _ _ _ => exact ⟨_, rfl, State.eventResend_fwd (hfwd := hat _) ..⟩
  | subscriptionEnd _ _ _ => exact ⟨_, rfl, State.subscriptionEnd_fwd (hfwd := hat _) ..⟩
  | spWrite _ _ _ => exact ⟨_, rfl, State.spWrite_fwd (hfwd := h0) ..⟩
  | spRead _ => exact ⟨_, rfl, State.spRead_fwd (hfwd := h0) ..⟩
  | spStatus => exact ⟨_, rfl, State.spStatus_fwd (hfwd := h0) ..⟩
  | canFrameCapture _ _ _ _ => exact ⟨_, rfl, .ite (State.onLane_fwd _ _ _ (hat _)) (hat _)⟩
  | canIntake _ _ => exact ⟨_, rfl, .ite (State.onLane_fwd _ _ _ h0) h0⟩
  | canTxTake _ _ => exact ⟨_, rfl, State.canTake_fwd (hfwd := hat _) ..⟩
  | canTxComplete _ _ _ => exact ⟨_, rfl, State.canComplete_fwd (hfwd := h0) ..⟩
  | canTxAged _ _ _ => exact ⟨_, rfl, .ite (State.onLane_fwd _ _ _ (hat _)) (hat _)⟩
  | busOff _ _ _ => exact ⟨_, rfl, State.enterBusOff_fwd (hfwd := hat _) ..⟩
  | busOffRecovery _ _ => exact ⟨_, rfl, State.busRecovered_fwd (hfwd := h0) ..⟩
  | recoveryWaitEnd _ _ _ => exact ⟨_, rfl, .timer (fun _ => .ite (State.onLane_fwd _ _ _ (hat _)) (hat _)) (hat _)⟩
  | stuckDom _ _ => exact ⟨_, rfl, .ite (State.flag_fwd (hfwd := State.onLane_fwd _ _ _ h0) ..) h0⟩
  | rtcAlarm _ => exact ⟨_, rfl, State.rtcAlarm_fwd (hfwd := h0) ..⟩
  | epochWrap => exact ⟨_, rfl, State.wrapEpoch_fwd (hfwd := h0) ..⟩
  | cellLow _ => exact ⟨_, rfl, State.cellReading_fwd (hfwd := h0) ..⟩
  | kekRemask _ => exact ⟨_, rfl, (State.onDom_fwd _ _ h0).updLanes⟩
  | domainPowerOnReset => exact ⟨_, rfl, (State.onDom_fwd _ _ h0).updLanes⟩
  | tamper _ => exact ⟨_, rfl, State.tamper_fwd (hfwd := h0) ..⟩
  | completionDetection _ _ _ => exact ⟨_, rfl, State.completionDetected_fwd (hfwd := hat _) ..⟩
  | stallDetected _ _ _ => exact ⟨_, rfl, State.stalled_fwd (hfwd := hat _) ..⟩
  | testToken _ _ _ => exact ⟨_, rfl, State.testToken_fwd (hfwd := hat _) ..⟩
  | marginAlarm _ _ _ => exact ⟨_, rfl, State.marginAlarm_fwd (hfwd := hat _) ..⟩
  | clockLoss _ _ _ => exact ⟨_, rfl, State.clockLoss_fwd (hfwd := hat _) ..⟩
  | makerTestPin => exact ⟨_, rfl, .ite h0 (State.flagBoth_fwd (hfwd := h0) ..)⟩
  | eccError _ _ _ _ _ => exact ⟨_, rfl, State.eccError_fwd (hfwd := hat _) ..⟩
  | supervisorSelfTest _ _ _ => exact ⟨_, rfl, State.supervisorTest_fwd (hfwd := hat _) ..⟩
  | collectorDisagree _ _ => exact ⟨_, rfl, State.collectorDiffers_fwd (hfwd := hat _) ..⟩
  | frontEndHeartbeatLoss _ _ => exact ⟨_, rfl, State.noHeartbeats_fwd (hfwd := hat _) ..⟩
  | coreSupplyStep _ _ => exact ⟨_, rfl, State.coreSupplyStep_fwd (hfwd := hat _) ..⟩
  | supplyWarning _ => exact ⟨_, rfl, State.supplyWarning_fwd (hfwd := hat _) ..⟩
  | finalSaveDone _ _ => exact ⟨_, rfl, State.finalSaveDone_fwd (hfwd := hat _) ..⟩
  | warningCleared _ => exact ⟨_, rfl, State.warningCleared_fwd (hfwd := hat _) ..⟩
  | vrstReset => exact absurd rfl hv
  | resetRelease _ => exact absurd rfl (hr _)
  | bootComplete _ _ _ _ => exact ⟨_, rfl, State.bootComplete_fwd (hfwd := h0) ..⟩
  | startupSelfTest _ _ _ => exact ⟨_, rfl, State.startupSelfTest_fwd (hfwd := hat _) ..⟩
  | laneAnnouncement _ _ => exact ⟨_, rfl, State.laneAnnouncement_fwd (hfwd := hat _) ..⟩
  | pairingTimeout _ _ => exact ⟨_, rfl, State.pairingTimeout_fwd (hfwd := hat _) ..⟩
  | startupConfiguration _ => exact ⟨_, rfl, State.startupConfiguration_fwd (hfwd := h0) ..⟩
  | startupFrontEnds _ _ => exact ⟨_, rfl, State.startupFrontEnds_fwd (hfwd := hat _) ..⟩
  | linkUp _ _ _ => exact ⟨_, rfl, State.linkUp_fwd (hfwd := hat _) ..⟩
  | t3ClockRestored => exact ⟨_, rfl, State.t3Restored_fwd (hfwd := h0) ..⟩
  | decimatorBlock _ _ _ => exact ⟨_, rfl, State.decimatorBlock_fwd (hfwd := h0) ..⟩
  | readbackFault _ _ => exact ⟨_, rfl, State.literalsMoved_fwd (hfwd := State.readbackFault_fwd (hfwd := hat _) ..) ..⟩
  | frontEndRestart _ => exact ⟨_, rfl, State.frontEndRestart_fwd (hfwd := h0) ..⟩
  | fieldSupplyRestored _ => exact ⟨_, rfl, State.fieldRestored_fwd (hfwd := h0) ..⟩
  | laneSupplyFault _ _ => exact ⟨_, rfl, State.laneSupplyFault_fwd (hfwd := hat _) ..⟩
  | canBusError _ _ _ _ => exact ⟨_, rfl, State.busError_fwd (hfwd := h0) ..⟩
  | stuckDomCleared _ _ => exact ⟨_, rfl, .ite (State.onLane_fwd _ _ _ h0) h0⟩
  | flashWriteComplete _ _ => exact ⟨_, rfl, State.flashWriteComplete_fwd (hfwd := hat _) ..⟩
  | makerSessionOpen _ => exact ⟨_, rfl, .ite (State.onPkg_fwd _ _ h0 rfl rfl rfl rfl rfl rfl rfl rfl id (Nat.le_refl _)) h0⟩
  | _ => exact hcommand rfl

/-- The two rows of the module's reset keep the queue and the fuses, and the life cycle moves as Table 16-7 permits. -/
theorem exec_onward (i : Instr) (s : State) : ∃ t, exec i s = .next t ∧ Onward s t := by
  by_cases hv : i = .vrstReset
  · subst hv
    exact ⟨_, rfl, State.vrstReset_onward s⟩
  by_cases hr : ∃ b, i = .resetRelease b
  · obtain ⟨b, rfl⟩ := hr
    exact ⟨_, rfl, State.resetRelease_onward s⟩
  obtain ⟨t, ht, hfwd⟩ := exec_fwd i s hv (fun b hb => hr ⟨b, hb⟩)
  exact ⟨t, ht, hfwd.kept⟩

/-- What a row answers is further on than the state it started from. -/
theorem exec_next_fwd {i : Instr} {s t : State} (h : exec i s = .next t) (hv : i ≠ .vrstReset) (hr : ∀ b, i ≠ .resetRelease b) :
    Fwd s t := by
  obtain ⟨u, hu, hfwd⟩ := exec_fwd i s hv hr
  cases hu.symm.trans h
  exact hfwd

theorem exec_next_onward {i : Instr} {s t : State} (h : exec i s = .next t) : Onward s t := by
  obtain ⟨u, hu, hon⟩ := exec_onward i s
  cases hu.symm.trans h
  exact hon

/-! ### Steps -/

theorem step_of_nil {s : State} (h : s.pending = []) : step s = .next (s.at_ (s.pkg.beat + 1)) := by
  simp only [step, h]

theorem step_of_cons {s : State} {i : Instr} {r : List Instr} (h : s.pending = i :: r) :
    step s = exec i { s with pending := r } := by
  simp only [step, h]

/-- A step keeps the fuses and the order of the life cycle, whose state moves along Table 16-7. -/
theorem step_onward {s t : State} (h : step s = .next t) :
    t.pkg.order = s.pkg.order ∧ t.pkg.serial = s.pkg.serial ∧
      (s.lifeOk → t.lifeOk ∧ LifeReaches s.pkg.life t.pkg.life ∧ s.pkg.lcGen.toNat ≤ t.pkg.lcGen.toNat) := by
  cases hq : s.pending with
  | nil =>
    rw [step_of_nil hq] at h
    cases h
    exact ⟨rfl, rfl, (State.at_fwd s _ (.refl s)).kept.life⟩
  | cons i r =>
    rw [step_of_cons hq] at h
    have hon := exec_next_onward h
    exact ⟨hon.order, hon.serial, hon.life⟩

theorem step_consumes (s : State) : ∃ t, step s = .next t ∧ Consumed s t := by
  cases hq : s.pending with
  | nil => exact ⟨_, step_of_nil hq, by simp [Consumed, hq]⟩
  | cons i r =>
    obtain ⟨t, ht, hon⟩ := exec_onward i { s with pending := r }
    exact ⟨t, (step_of_cons hq).trans ht, by simp [Consumed, hon.pending, hq]⟩

/-- No transition of Table 16-7 leaves VOID. -/
theorem eq_void_of_lifeReaches {a b : LifeCycle} (h : LifeReaches a b) (ha : a = .void) : b = .void := by
  induction h with
  | refl => exact ha
  | tail _ hstep ih =>
    rw [ih] at hstep
    cases hstep

/-! ### The statements -/

/-- Settles O1: by the definition of a step on a queue that is not empty. -/
theorem stepRunsTheFrontCommand : Obligations.StepRunsTheFrontCommand :=
  fun _ _ _ h => step_of_cons h

/-- Settles O2: every row answers a next state and keeps the queue's rest; on an empty queue one beat passes (log entry 1). -/
theorem everyStepGoesOn : Obligations.EveryStepGoesOn := by
  refine ⟨step_consumes, fun s hq => ?_⟩
  simp [step_of_nil hq, State.at_, State.onPkg]

/-- Settles O3: every row carries the two fuses over. -/
theorem fusesNeverChange : Obligations.FusesNeverChange := by
  intro order serial s t ⟨horder, hserial⟩ h
  obtain ⟨ho, hs, -⟩ := step_onward h
  exact ⟨ho.trans horder, hs.trans hserial⟩

/-- Settles O4: every row but the reset and its release moves the beat count forward only and keeps a halt (R245, R485). -/
theorem onlyResetGoesBack : Obligations.OnlyResetGoesBack :=
  ⟨fun _ _ _ h hv hr => (exec_next_fwd h hv hr).beat, fun _ _ _ hhalted h hv hr => (exec_next_fwd h hv hr).halted hhalted⟩

/-- Settles O5: the life cycle moves along Table 16-7 in every row, and no transition leaves VOID (R536, R537). -/
theorem lifeCycleMovesByItsTable : Obligations.LifeCycleMovesByItsTable := by
  refine ⟨fun s t hok h => (step_onward h).2.2 hok, fun s t ⟨hvoid, hok⟩ h => ?_⟩
  obtain ⟨hok', hreaches, -⟩ := (step_onward h).2.2 hok
  exact ⟨eq_void_of_lifeReaches hreaches hvoid, hok'⟩

/-- Settles O6: a command row is `State.command`, which runs lane A first, then lane B, and reserves SEQ at the end of each
(R340; the order of the lanes and the place of the reservation are the model's choice, log entries 110 and 86). -/
theorem commandsRunInEveryLane : Obligations.CommandsRunInEveryLane := by
  intro i h op s hc
  refine ⟨exec_of_commandOf hc s, fun hb => ?_, fun l hal => ?_⟩
  · rw [exec_of_commandOf hc s, State.command_both hb]
  · rw [exec_of_commandOf hc s, State.command_of_alone hal]

end Sys2Proof.Machine
end

section
/-! SUPPORT. What accepting a command and answering it leave unchanged (R338, R339, R343, R440, R455), and how a command row whose
check passes is answered. -/

namespace Sys2Proof.Machine

/-- A fold of operations that each keep what `p` reads keeps it. -/
theorem foldl_keeps {σ α β : Type} {p : σ → β} {f : σ → α → σ} (hf : ∀ y e, p (f y e) = p y) (es : List α) (x : σ) :
    p (es.foldl f x) = p x := by
  induction es generalizing x with
  | nil => rfl
  | cons e es ih => exact (ih (f x e)).trans (hf x e)

/-! ### What answering leaves of a lane -/

/-- What neither a result word nor a notice nor a reply touches: memory, cores, partitions, stored configuration, MRAM, the
collector and the recorder's records. -/
def Lane.stored (x : Lane) : Tab Part × Tab Core × Flash × Mram × FltBlk × List RecRecord :=
  (x.parts, x.cores, x.flash, x.mram, x.blk.flt, x.blk.recd.records)

@[simp] theorem Lane.stored_setWres (x : Lane) (b off code : Nat) : (x.setWres b off code).stored = x.stored := by
  unfold Lane.setWres
  dsimp only
  split <;> rfl

@[simp] theorem Lane.stored_onRing (x : Lane) (r : Nat) (f : Ring → Ring) : (x.onRing r f).stored = x.stored := rfl
@[simp] theorem Lane.stored_onSender (x : Lane) (p : Nat) (f : Sender → Sender) : (x.onSender p f).stored = x.stored := rfl
@[simp] theorem Lane.stored_onPort (x : Lane) (n : Nat) (f : PortSt → PortSt) : (x.onPort n f).stored = x.stored := by
  unfold Lane.onPort
  split <;> rfl

@[simp] theorem Lane.stored_meterItemWres (x old : Lane) (i : MeterItem) : (x.meterItemWres old i).stored = x.stored := by
  unfold Lane.meterItemWres
  dsimp only
  split
  all_goals try exact Lane.stored_setWres ..
  all_goals
    split
    · rfl
    · exact Lane.stored_setWres ..

@[simp] theorem Lane.stored_commandWres (x old : Lane) (l : LaneId) (op : Op) : (x.commandWres old l op).stored = x.stored := by
  unfold Lane.commandWres
  dsimp only
  split
  all_goals try exact Lane.stored_setWres ..
  case h_1 => exact foldl_keeps (fun _ _ => Lane.stored_setWres ..) _ _
  case h_4 => exact foldl_keeps (fun _ _ => Lane.stored_meterItemWres ..) _ _
  case h_7 => exact foldl_keeps (fun y i => by split_ifs <;> simp) _ _
  case h_14 => rfl
  all_goals split_ifs <;> simp

@[simp] theorem Lane.stored_notice (x : Lane) (h : Hdr) (opcode : Nat) (e : Word) (owners : List Nat) (ps : List Byte) :
    (x.notice h opcode e owners ps).stored = x.stored :=
  foldl_keeps (fun _ _ => Lane.stored_onRing ..) _ _

@[simp] theorem Lane.stored_onNet (x : Lane) (f : NetBlk → NetBlk) : (x.onNet f).stored = x.stored := rfl

@[simp] theorem Lane.stored_postFrame (x : Lane) (room : Bool) (ring beat : Nat) (dst : Source) (sport : Nat) (bs : List Byte) :
    (x.postFrame room ring beat dst sport bs).stored = x.stored := by
  unfold Lane.postFrame
  dsimp only
  split
  · rfl
  · split
    · rfl
    · simp

@[simp] theorem Lane.stored_postTx (x : Lane) (ring beat : Nat) (dst : Source) (sport : Nat) (bs : List Byte) :
    (x.postTx ring beat dst sport bs).stored = x.stored := by
  unfold Lane.postTx Lane.dropTx
  dsimp only
  split_ifs <;> simp

/-! ### What a reply leaves of the state -/

/-- From `t` to `u` lane `l` keeps its memories and records, and beyond it only the reply queue of the service port has moved. -/
structure OnlyReplies (l : LaneId) (t u : State) : Prop where
  lane : (u.lane l).stored = (t.lane l).stored
  other : u.lane l.other = t.lane l.other
  dom : u.pkg.dom = t.pkg.dom
  beat : u.pkg.beat = t.pkg.beat
  pending : u.pending = t.pending

theorem OnlyReplies.trans {l : LaneId} {s t u : State} (h : OnlyReplies l s t) (k : OnlyReplies l t u) : OnlyReplies l s u :=
  ⟨k.lane.trans h.lane, k.other.trans h.other, k.dom.trans h.dom, k.beat.trans h.beat, k.pending.trans h.pending⟩

theorem OnlyReplies.onLane (l : LaneId) (t : State) {f : Lane → Lane} (hf : (f (t.lane l)).stored = (t.lane l).stored) :
    OnlyReplies l t (t.onLane l f) := by
  constructor <;> simp [hf]

theorem State.sendPacket_onlyReplies (s : State) (l : LaneId) (via : Via) (dst : Source) (b : List Byte) :
    OnlyReplies l s (s.sendPacket l via dst b) := by
  unfold State.sendPacket
  split
  · exact .onLane l s (Lane.stored_postTx ..)
  · split <;> constructor <;> simp

theorem State.replyWith_onlyReplies (s : State) (l : LaneId) (key : Option (List Byte)) (h : Hdr) (opcode : Nat) (st : Status)
    (ps : List Byte) (e : Word) : OnlyReplies l s (s.replyWith l key h opcode st ps e) := by
  unfold State.replyWith
  split
  · exact (OnlyReplies.onLane l s (Lane.stored_onSender ..)).trans (State.sendPacket_onlyReplies ..)
  · exact State.sendPacket_onlyReplies ..

theorem State.answered_onlyReplies (u t : State) (l : LaneId) (h : Hdr) (op : Op) (ps : List Byte) :
    OnlyReplies l t (u.answered t l h op ps) :=
  (OnlyReplies.onLane l t (by simp)).trans (State.replyWith_onlyReplies ..)

/-- Settles O9: accepting touches the sender alone, and answering is result words, notices and a reply, none of which touches the
lane's memories (R338, R339, R343, R440, R455). -/
theorem acceptingAndAnsweringFrame : Obligations.AcceptingAndAnsweringFrame := by
  intro u t l h op ps
  obtain ⟨hlane, hother, hdom, hbeat, hpending⟩ := u.answered_onlyReplies t l h op ps
  simp only [Lane.stored, Prod.mk.injEq] at hlane
  obtain ⟨hparts, hcores, hflash, hmram, hflt, hrec⟩ := hlane
  refine ⟨⟨by simp, by simp, by simp, ?_⟩, hother, hparts, hcores, hflash, hmram, hflt, hrec, hdom, hbeat, hpending⟩
  unfold State.entered
  split
  · exact ⟨rfl, rfl, rfl, rfl⟩
  · simp

end Sys2Proof.Machine
end

section
/-! SUPPORT. A command row whose check passes in the one lane of agreement: how what `runOp` answers becomes what the row leaves. -/

namespace Sys2Proof.Machine

/-- An operation whose reserved bytes are 0 and whose check passes runs. -/
theorem State.guarded_of_checked {s : State} {h : Hdr} {c : Option Status} {f : State → State × Answer}
    (hr : h.reservedOk = true) (hc : c = none) : s.guarded h c f = f s := by
  subst hc
  simp [State.guarded, withReserved, hr]

section rows
variable {i : Instr} {s : State} {l : LaneId} {h : Hdr} {op : Op} {c : State → Option Status} {f : State → State}

/-- A command row whose operation ends with OK answers. -/
theorem answersOk_of_runOp {ps : State → List Byte} (hc : commandOf i = some (h, op))
    (hrun : s.Alone l → h.reservedOk = true → c (s.entered l h op) = none →
      (s.entered l h op).runOp l h s.releasedEpoch op = (f (s.entered l h op), .done .ok (ps (s.entered l h op)))) :
    AnswersOk i s l h op c f ps := by
  intro ⟨halone, hacc, hres⟩ hck
  rw [exec_of_commandOf hc, State.command_done halone hacc (hrun halone hres hck)]

/-- A command row whose operation waits answers later. -/
theorem answersLater_of_runOp {why : State → Waiting} (hc : commandOf i = some (h, op))
    (hrun : s.Alone l → h.reservedOk = true → c (s.entered l h op) = none →
      (s.entered l h op).runOp l h s.releasedEpoch op = (f (s.entered l h op), .later (why (s.entered l h op))))
    (hbeat : ∀ u, (f u).pkg.beat = u.pkg.beat) (hwhy : ∀ u p i, why u ≠ .transfer p i) :
    AnswersLater i s l h op c f why := by
  intro ⟨halone, hacc, hres⟩ hck
  rw [exec_of_commandOf hc, State.command_later halone hacc (hrun halone hres hck) (by simp [hbeat]) (hwhy _)]

end rows

/-! ### What entering leaves -/

@[simp] theorem State.entered_parts (s : State) (l k : LaneId) (h : Hdr) (op : Op) :
    ((s.entered l h op).lane k).parts = (s.lane k).parts := by
  unfold State.entered
  split
  · rfl
  · cases l <;> cases k <;> rfl

@[simp] theorem State.entered_part (s : State) (l k : LaneId) (h : Hdr) (op : Op) (p : Nat) :
    ((s.entered l h op).lane k).part p = (s.lane k).part p := by
  simp only [Lane.part, State.entered_parts]

/-! ### Commands that answer with values of one lane (R347) -/

/-- No outcome is kept for the command. -/
theorem State.find_outcome_of_noOutcome {s u : State} {h : Hdr} (hpkg : u.pkg = s.pkg) (hno : s.noOutcome h) :
    u.pkg.outcomes.find? (fun o => o.1 = h && o.2.1 = s.releasedEpoch) = none := by
  rw [hpkg, List.find?_eq_none]
  intro o ho hp
  exact hno o ho (by simpa using hp)

/-- A lane alone in agreement, with no capture of the partner left for the command, answers with its own. -/
theorem State.jointReply_of_alone {s u : State} {l : LaneId} {h : Hdr} {op : Op} (hrel : (u.lane l.other).releases = false)
    (hpkg : u.pkg = s.pkg) (hno : s.noOutcome h) :
    u.jointReply l h s.releasedEpoch op = (u, u.jointAnswer l h op (orderCaptures op l true (u.capture l op) []).1
      (orderCaptures op l true (u.capture l op) []).2) := by
  simp only [State.jointReply, State.find_outcome_of_noOutcome hpkg hno, hrel, Bool.not_false, if_true]

@[simp] theorem State.entered_releases_other (s : State) (l : LaneId) (h : Hdr) (op : Op) :
    ((s.entered l h op).lane l.other).releases = (s.lane l.other).releases := by
  rw [State.entered_other]

/-- The same for a command that has just entered. -/
theorem State.jointReply_entered {s : State} {l : LaneId} (halone : s.Alone l) {h : Hdr} (hno : s.noOutcome h) (op : Op) :
    (s.entered l h op).jointReply l h s.releasedEpoch op = (s.entered l h op, (s.entered l h op).jointAnswer l h op
      (orderCaptures op l true ((s.entered l h op).capture l op) []).1
      (orderCaptures op l true ((s.entered l h op).capture l op) []).2) :=
  State.jointReply_of_alone ((s.entered_releases_other l h op).trans halone.2) (State.entered_pkg ..) hno

/-! ### General commands -/

/-- Settles O10: each operation of Table 09-8 in the one lane of agreement. -/
theorem generalCommandsComplete : Obligations.GeneralCommandsComplete := by
  intro s l h
  refine ⟨?_, fun bs => ?_, fun hno => ?_, fun n => ?_, ?_, fun k a => ?_, fun k a => ?_, fun k a => ?_⟩
  · exact answersOk_of_runOp rfl (fun _ hr _ => by rw [State.runOp]; exact State.guarded_of_checked hr rfl)
  · exact answersOk_of_runOp rfl (fun _ hr _ => by rw [State.runOp]; exact State.guarded_of_checked hr rfl)
  · exact answersOk_of_runOp rfl (fun halone hr _ => by
      rw [State.runOp]; exact (State.guarded_of_checked hr rfl).trans (State.jointReply_entered halone hno _))
  · exact answersOk_of_runOp rfl (fun _ hr hck => by rw [State.runOp]; exact State.guarded_of_checked hr hck)
  · exact answersLater_of_runOp rfl (fun _ hr _ => by rw [State.runOp]; exact State.guarded_of_checked hr rfl) (fun _ => rfl) (fun _ _ _ => nofun)
  · exact answersOk_of_runOp rfl (fun _ hr _ => by rw [State.runOp]; exact State.guarded_of_checked hr rfl)
  · exact answersOk_of_runOp rfl (fun _ hr _ => by rw [State.runOp]; exact State.guarded_of_checked hr rfl)
  · exact answersOk_of_runOp rfl (fun _ hr _ => by rw [State.runOp]; exact State.guarded_of_checked hr rfl)

/-! ### Points, forces and units -/

/-- Settles O11: each operation of Table 09-9 in the one lane of agreement. A value written to an owner that does not run waits in
`pointsNext`, which R354 applies at the release of the next pick; the index of a force is the model's choice (log entries 75, 77). -/
theorem pointCommandsComplete : Obligations.PointCommandsComplete := by
  intro s l h
  refine ⟨fun f c => ?_, fun is => ?_, fun f => ?_, fun m f hm => ?_, fun a m => ?_, fun is => ?_⟩
  · exact answersOk_of_runOp rfl (fun _ hr hck => by rw [State.runOp]; exact State.guarded_of_checked hr hck)
  · exact answersOk_of_runOp rfl (fun _ hr hck => by rw [State.runOp]; exact State.guarded_of_checked hr hck)
  · exact answersOk_of_runOp rfl (fun _ hr hck => by rw [State.runOp]; exact State.guarded_of_checked hr hck)
  · have hmode : (decide (m = 1) || decide (m = 2)) = true := by simpa using hm
    exact answersOk_of_runOp rfl (fun _ hr hck => by
      rw [State.runOp]; exact State.guarded_of_checked hr ((if_pos hmode).trans hck))
  · exact answersOk_of_runOp rfl (fun _ hr hck => by rw [State.runOp]; exact State.guarded_of_checked hr hck)
  · exact answersOk_of_runOp rfl (fun _ hr hck => by rw [State.runOp]; exact State.guarded_of_checked hr hck)

end Sys2Proof.Machine
end

section
/-! SUPPORT. What shared operations leave as it was: the literals that moved, the causes that end, the replies that leave. -/

namespace Sys2Proof.Machine

/-! ### Replies do not move the beat count -/

@[simp] theorem State.beat_replyWith (s : State) (l : LaneId) (key : Option (List Byte)) (h : Hdr) (opcode : Nat) (st : Status)
    (ps : List Byte) (e : Word) : (s.replyWith l key h opcode st ps e).pkg.beat = s.pkg.beat :=
  (State.replyWith_onlyReplies ..).beat

@[simp] theorem State.beat_finish (s : State) (l : LaneId) (o : Outstanding) (st : Status) (ps : List Byte) :
    (s.finish l o st ps).pkg.beat = s.pkg.beat := by
  simp [State.finish, State.reply]

@[simp] theorem State.beat_finishAll (s : State) (l : LaneId) (why : Waiting) (st : Status) (ps : List Byte) :
    (s.finishAll l why st ps).pkg.beat = s.pkg.beat :=
  foldl_keeps (p := fun t : State => t.pkg.beat) (fun _ _ => State.beat_finish ..) _ _

@[simp] theorem State.beat_endCommit (s : State) (l : LaneId) (r : Nat) (st : Status) (ps : List Byte) :
    (s.endCommit l r st ps).pkg.beat = s.pkg.beat := by
  simp [State.endCommit]

@[simp] theorem State.beat_endCommits (s : State) (r : Nat) (st : Status) : (s.endCommits r st).pkg.beat = s.pkg.beat := by
  simp only [State.endCommits]
  split <;> split <;> simp

@[simp] theorem State.beat_heddleCompare (s : State) (l : LaneId) (r : Nat) : (s.heddleCompare l r).pkg.beat = s.pkg.beat := by
  unfold State.heddleCompare
  dsimp only
  repeat' split
  all_goals simp

@[simp] theorem State.beat_postWrite (s : State) (p : Post) (wait : Bool) : (s.postWrite p wait).pkg.beat = s.pkg.beat := by
  unfold State.postWrite
  repeat' split
  all_goals simp

/-- The answers of a posted write that has ended, in one lane. -/
def State.answerPosted (s : State) (k : LaneId) (h : Hdr) (st : Status) : State :=
  ((s.lane k).man.outstanding.filter (fun o => o.hdr = h && o.why = .timeSet)).foldl (fun (u : State) o =>
    let params := match o.op with | .timeTrim v => (if st = .ok then beBytes 2 (twos 16 v) else []) | _ => []
    let u1 := u.finish k o st params
    match o.op with
    | .timeTrim v =>
      if st = .ok then u1.onLane k (fun x =>
        (x.onFlash (fun f => { f with trim := some v })).startFlash .config u1.pkg.beat) else u1
    | _ => u1) s

@[simp] theorem State.beat_answerPosted (s : State) (k : LaneId) (h : Hdr) (st : Status) :
    (s.answerPosted k h st).pkg.beat = s.pkg.beat := by
  refine foldl_keeps (p := fun t : State => t.pkg.beat) (fun u o => ?_) _ _
  dsimp only
  split
  · split <;> simp
  · simp

@[simp] theorem State.beat_postOutcome (s : State) (l : LaneId) (h : Hdr) (st : Status) :
    (s.postOutcome l h st).pkg.beat = s.pkg.beat := by
  have hboth : ((s.answerPosted l h st).answerPosted l.other h st).pkg.beat = s.pkg.beat := by simp
  unfold State.postOutcome
  dsimp only
  split
  · split
    · exact hboth
    · exact hboth
  · exact hboth

@[simp] theorem State.beat_postRtc (s : State) (p : Post) (wait : Bool) : (s.postRtc p wait).pkg.beat = s.pkg.beat := by
  unfold State.postRtc
  repeat' split
  all_goals simp

/-! ### Literals that moved -/

/-- The fields of a front-end die that say which literals it has sent. -/
def FrontEnd.unsent (f : FrontEnd) : FrontEnd := { f with vector := 0, lastVector := none, vectorBeat := 0, planeDiff := none }

/-- From `s` to `t` front-end dies have sent literal vectors: the lanes have moved in the vectors that reached them alone, and the
dies in what they say of the vectors they sent. -/
structure OnlyVectors (s t : State) : Prop where
  lane : ∀ l, ∃ v, t.lane l = { s.lane l with vectorIn := v }
  fe : ∀ q, (t.fe q).unsent = (s.fe q).unsent
  pkg : { t.pkg with rfe := [] } = { s.pkg with rfe := [] }
  draws : t.draws = s.draws
  pending : t.pending = s.pending

theorem OnlyVectors.refl (s : State) : OnlyVectors s s := ⟨fun _ => ⟨_, rfl⟩, fun _ => rfl, rfl, rfl, rfl⟩

theorem OnlyVectors.trans {s t u : State} (h : OnlyVectors s t) (k : OnlyVectors t u) : OnlyVectors s u := by
  refine ⟨fun l => ?_, fun q => (k.fe q).trans (h.fe q), k.pkg.trans h.pkg, k.draws.trans h.draws, k.pending.trans h.pending⟩
  obtain ⟨v, hv⟩ := h.lane l
  obtain ⟨w, hw⟩ := k.lane l
  exact ⟨w, by rw [hw, hv]⟩

theorem OnlyVectors.onFe (s : State) (r : Nat) {f : FrontEnd → FrontEnd} (hf : (f (s.fe r)).unsent = (s.fe r).unsent) :
    OnlyVectors s (s.onFe r f) := by
  refine ⟨fun l => ⟨_, by simp; rfl⟩, fun q => ?_, by simp, by simp, by simp⟩
  by_cases h : q = r
  · subst h; simpa using hf
  · rw [State.fe_onFe_other s f h]

theorem Lane.vectorIn_or_same (x : Lane) (w : List (Nat × Nat × BitVec 64 × BitVec 64)) :
    ∃ v, (if x.collects then { x with vectorIn := w } else x) = { x with vectorIn := v } := by
  split
  · exact ⟨_, rfl⟩
  · exact ⟨x.vectorIn, rfl⟩

theorem State.sendVector_onlyVectors (s : State) (r : Nat) : OnlyVectors s (s.sendVector r) := by
  refine (OnlyVectors.onFe s r ?_).trans ⟨fun l => ?_, fun _ => rfl, rfl, rfl, rfl⟩
  case refine_2 =>
    cases l with
    | a => exact Lane.vectorIn_or_same _ _
    | b => exact Lane.vectorIn_or_same _ _
  rfl

theorem State.literalsMoved_onlyVectors (s : State) (r : Nat) : OnlyVectors s (s.literalsMoved r) := by
  unfold State.literalsMoved
  split
  · exact .refl s
  · exact (s.sendVector_onlyVectors r).trans (.onFe _ r rfl)

theorem State.allLiteralsMoved_onlyVectors (s : State) : OnlyVectors s s.allLiteralsMoved := by
  unfold State.allLiteralsMoved
  generalize List.range 8 = rs
  induction rs generalizing s with
  | nil => exact .refl s
  | cons r rs ih => exact (s.literalsMoved_onlyVectors r).trans (ih _)

/-- What a lane holds beside the vectors that reached it is as it was. -/
theorem OnlyVectors.keeps {s t : State} (h : OnlyVectors s t) {β : Type} {p : Lane → β}
    (hp : ∀ x v, p { x with vectorIn := v } = p x) (l : LaneId) : p (t.lane l) = p (s.lane l) := by
  obtain ⟨v, hv⟩ := h.lane l
  rw [hv, hp]

end Sys2Proof.Machine
end

section
/-! SUPPORT. The heddle, loop and bulk commands in the one lane of agreement (R249, R288, R356 to R366). -/

namespace Sys2Proof.Machine

/-! ### The heddle -/

/-- Step 1 of a commit in a lane whose partner is not in service makes no comparison. -/
theorem State.heddleCompare_of_partnerOut {s : State} {l : LaneId} {r : Nat} {k : HedCommit}
    (hk : (s.lane l).blk.hed.commit.lookup r = some k) (hstep : k.step = 1) (hout : (s.lane l.other).inService = false) :
    s.heddleCompare l r = s.onLane l (fun x => x.commitStep r 2) := by
  simp [State.heddleCompare, hk, hstep, hout]

theorem Lane.commitStep_lookup {x : Lane} {r : Nat} {k : HedCommit} (hk : x.blk.hed.commit.lookup r = some k) (n : Nat) :
    (x.commitStep r n).blk.hed.commit.lookup r = some { k with step := n } := by
  simp [Lane.commitStep, hk, lookup_oset_same]

theorem heddleCommandsComplete : Claims.HeddleCommandsComplete := by
  intro s l h
  refine ⟨fun r o d _ _ => ?_, fun r c => ?_, fun r k hk hstep hout => ?_⟩
  · exact answersOk_of_runOp rfl (fun _ hr hck => by rw [State.runOp]; exact State.guarded_of_checked hr hck)
  · exact answersLater_of_runOp rfl (fun _ hr hck => by rw [State.runOp]; exact State.guarded_of_checked hr hck)
      (fun _ => by simp) (fun _ _ _ => nofun)
  · rw [State.heddleCompare_of_partnerOut hk hstep hout, State.lane_onLane, Lane.commitStep_lookup hk]

/-! ### The loop engine -/

theorem loopCommandsComplete : Claims.LoopCommandsComplete := by
  intro s l h
  refine ⟨fun i o ws => ?_, fun i p ph en => ?_, fun n ws => ?_, fun n b g => ?_, fun f c => ?_, fun p => ?_, fun p ht => ?_,
    fun p ht => ?_, fun p => ?_⟩
  · exact answersOk_of_runOp rfl (fun _ hr hck => by rw [State.runOp]; exact State.guarded_of_checked hr hck)
  · exact answersOk_of_runOp rfl (fun _ hr hck => by rw [State.runOp]; exact State.guarded_of_checked hr hck)
  · exact answersOk_of_runOp rfl (fun _ hr hck => by rw [State.runOp]; exact State.guarded_of_checked hr hck)
  · exact answersOk_of_runOp rfl (fun _ hr hck => by rw [State.runOp]; exact State.guarded_of_checked hr hck)
  · exact answersOk_of_runOp rfl (fun _ hr hck => by rw [State.runOp]; exact State.guarded_of_checked hr hck)
  · exact answersOk_of_runOp rfl (fun _ hr hck => by rw [State.runOp]; exact State.guarded_of_checked hr hck)
  · exact answersOk_of_runOp rfl (fun _ hr hck => by
      rw [State.runOp]; exact (State.guarded_of_checked hr hck).trans (if_pos ht))
  · exact answersOk_of_runOp rfl (fun _ hr hck => by
      rw [State.runOp]; exact (State.guarded_of_checked hr hck).trans (if_pos ht))
  · exact answersOk_of_runOp rfl (fun _ hr hck => by rw [State.runOp]; exact State.guarded_of_checked hr hck)

/-- Settles O12: each operation of Tables 09-10 and 09-11 in the one lane of agreement, and step 1 of Table 06-12 without a partner. -/
theorem heddleAndLoopCommandsComplete : Obligations.HeddleAndLoopCommandsComplete :=
  ⟨heddleCommandsComplete, loopCommandsComplete⟩

end Sys2Proof.Machine
end

section
/-! SUPPORT. Commands whose data go by bulk transfer (R357 to R366). -/

namespace Sys2Proof.Machine

/-- A command whose operation opens a transfer is answered PENDING at once. -/
theorem State.execute_opens {u t : State} {l : LaneId} {h : Hdr} {op : Op} {p i : Nat} {e : Word}
    (he : u.earlyRefusal h op = none) (hepoch : u.releasedEpoch = e) (hr : u.runOp l h e op = (t, .later (.transfer p i))) :
    u.execute l h op e u.pkg.beat = u.opens t l h op p i := by
  simp [State.execute, he, hr, State.opens, hepoch]

/-- A command whose operation sends its reply itself. -/
theorem State.execute_sent {u t : State} {l : LaneId} {h : Hdr} {op : Op} {e : Word} {n : Nat}
    (he : u.earlyRefusal h op = none) (hr : u.runOp l h e op = (t, .sent)) : u.execute l h op e n = t := by
  simp [State.execute, he, hr]

theorem State.earlyRefusal_entered {s : State} {l : LaneId} {h : Hdr} {op : Op} (ha : s.Accepts l h op) :
    (s.entered l h op).earlyRefusal h op = none := by
  rw [State.earlyRefusal_pkg h op (State.entered_pkg ..)]
  exact ha.2.2.2.1

theorem State.command_opens {s : State} {l : LaneId} (hal : s.Alone l) {h : Hdr} {op : Op} (ha : s.Accepts l h op)
    {t : State} {p i : Nat} (hr : (s.entered l h op).runOp l h s.releasedEpoch op = (t, .later (.transfer p i))) :
    s.command h op = ((s.entered l h op).opens t l h op p i).onLane l Lane.reserve := by
  rw [State.command_alone hal ha]
  have hx := State.execute_opens (State.earlyRefusal_entered ha) (by simp) hr
  simpa using congrArg (fun u => State.onLane u l Lane.reserve) hx

theorem State.command_sent {s : State} {l : LaneId} (hal : s.Alone l) {h : Hdr} {op : Op} (ha : s.Accepts l h op)
    {t : State} (hr : (s.entered l h op).runOp l h s.releasedEpoch op = (t, .sent)) :
    s.command h op = t.onLane l Lane.reserve := by
  rw [State.command_alone hal ha, State.execute_sent (State.earlyRefusal_entered ha) hr]

/-- A pattern that a bulk READ may report comes from a port that carries bulk, with the sender's bulk key loaded. -/
theorem bulkRead_sent {u : State} {l : LaneId} {h : Hdr} {p : PatternArgs} (e : Word) (ht : p.transfer ≠ 0)
    (hck : checkPatternRead (u.lane l) h p = none) : (u.bulkRead l h e p).2 = .sent := by
  have ⟨hvia, hkey⟩ : h.via ≠ .service ∧ ((u.lane l).keyOf 2 (h.sender.getD 0)).isNone = false := by
    unfold checkPatternRead at hck
    split at hck
    · cases hck
    · simp only [ht, if_false] at hck
      split_ifs at hck with hfit hnokey
      · simp only [Bool.or_eq_true, not_or, decide_eq_true_eq] at hfit
        exact ⟨hfit.2, Bool.eq_false_iff.mpr hnokey⟩
  unfold State.bulkRead
  cases hv : h.via with
  | service => exact absurd hv hvia
  | estate | floor =>
    cases hk : (u.lane l).keyOf 2 (h.sender.getD 0) with
    | none => simp [hk] at hkey
    | some k => simp [bulkRingOf]

/-- Settles O13: WRITE by bulk and PROGRAM_LOAD open a transfer of their sender, READ by bulk sends its reply itself. -/
theorem bulkCommandsOpenTransfers : Obligations.BulkCommandsOpenTransfers := by
  intro s l h
  refine ⟨fun p ht ⟨hal, hacc, hres⟩ hck => ?_, fun p ht ⟨hal, hacc, hres⟩ hck => ?_, fun part n i ⟨hal, hacc, hres⟩ hck => ?_⟩
  · refine (exec_of_commandOf rfl s).trans (congrArg Host.Outcome.next (State.command_opens hal hacc ?_))
    rw [State.runOp, State.guarded_of_checked hres hck, if_neg ht]
    simp [State.alone, Lane.openTransfer, State.onLane]
  · have hsent := bulkRead_sent s.releasedEpoch ht hck
    refine ⟨hsent, (exec_of_commandOf rfl s).trans (congrArg Host.Outcome.next (State.command_sent hal hacc ?_))⟩
    rw [State.runOp, State.guarded_of_checked hres hck, if_neg ht, ← hsent]
  · refine (exec_of_commandOf rfl s).trans (congrArg Host.Outcome.next (State.command_opens hal hacc ?_))
    rw [State.runOp, State.guarded_of_checked hres hck]
    simp [State.alone, Lane.openTransfer, State.onLane]

end Sys2Proof.Machine
end

section
/-! SUPPORT. The metering, program, recorder and time commands in the one lane of agreement. -/

namespace Sys2Proof.Machine

/-! ### Numbers as bytes -/

theorem foldl_beBytes (n a v : Nat) :
    (beBytes n v).foldl (fun c b => c * 256 + b.toNat) a = a * 256 ^ n + v % 256 ^ n := by
  induction n generalizing a with
  | zero => simp [beBytes, Nat.mod_one]
  | succ n ih =>
    have hbyte : v % 256 ^ (n + 1) = v / 256 ^ n % 256 * 256 ^ n + v % 256 ^ n := by
      rw [pow_succ, Nat.mod_mul, Nat.mul_comm, Nat.add_comm]
    rw [beBytes, List.foldl_cons, ih, hbyte]
    simp only [BitVec.toNat_ofNat]
    ring

/-- The bytes of a number that fits read back as it. -/
theorem beNat_beBytes {n v : Nat} (hv : v < 256 ^ n) : beNat (beBytes n v) = v := by
  rw [beNat, foldl_beBytes, Nat.mod_eq_of_lt hv]
  simp

theorem length_beBytes (n v : Nat) : (beBytes n v).length = n := by
  induction n with
  | zero => rfl
  | succ n ih => rw [beBytes, List.length_cons, ih]

theorem beAt_beBytes {n v : Nat} (hv : v < 256 ^ n) : beAt (beBytes n v) 0 n = v := by
  rw [beAt, List.drop_zero, List.take_of_length_le (length_beBytes n v).le, beNat_beBytes hv]

/-! ### Metering -/

/-- METER_READ in a lane alone answers with the window that the lane has reached. -/
theorem State.jointAnswer_meterRead {u : State} {l : LaneId} {h : Hdr} {st f c : Nat} {b : List Byte}
    (hfit : (u.lane l).blk.nrg.window < 2 ^ 64) :
    u.jointAnswer l h (.meterRead st f c) (beBytes 8 (u.lane l).blk.nrg.window) b =
      .done .ok (u.meterReadBytes l (u.lane l).blk.nrg.window st f c) := by
  have hback := beAt_beBytes (n := 8) (v := (u.lane l).blk.nrg.window) (by omega)
  simp [State.jointAnswer, hback, State.jointBytes]

theorem meterCommandsComplete : Claims.MeterCommandsComplete := by
  intro s l h
  refine ⟨fun is => ?_, fun st f c hst hno hfit => ?_, fun c => ?_, fun f c => ?_⟩
  · exact answersOk_of_runOp rfl (fun _ hr hck => by rw [State.runOp]; exact State.guarded_of_checked hr hck)
  · refine answersOk_of_runOp rfl (fun halone hr hck => ?_)
    have hck' : (match (s.entered l h (.meterRead st f c)).checkMeterList l h f c with
        | some q => some q | none => if 2 < st then some .badParam else none) = none := by
      rw [hck]; exact if_neg (by omega)
    rw [State.runOp]
    refine (State.guarded_of_checked hr hck').trans ((State.jointReply_entered halone hno _).trans ?_)
    exact congrArg (Prod.mk _) (State.jointAnswer_meterRead (by simpa using hfit))
  · exact answersLater_of_runOp rfl (fun _ hr hck => by rw [State.runOp]; exact State.guarded_of_checked hr hck)
      (fun _ => by simp) (fun _ _ _ => nofun)
  · exact answersOk_of_runOp rfl (fun _ hr hck => by rw [State.runOp]; exact State.guarded_of_checked hr hck)

/-! ### Programs and the recorder -/

theorem runExchange_of_loaded {x : Lane} {p : Nat} {i : Image} (hi : (x.part p).loaded = some i) (h : Hdr) (e : Word) (now : Nat) :
    runExchange x h e now p = (x.onPart p (fun k => { k with exch := some { hdr := h, epoch := e, beat := now, image := i } }),
      .later (.exchange p)) := by
  simp [runExchange, hi]

theorem runRestart_of_permitted {x : Lane} {h : Hdr} {p : Nat} (hok : ¬ ((x.part p).state = .waitTime ∧ h.sender.getD 0 ≠ 0))
    (m : Nat) (k : BitVec 16) : runRestart x h p m k =
      (x.onPart p (fun q => { q with restart := some ⟨m, k, 0⟩ }), .later (.partStart p)) := by
  simp only [runRestart, Bool.and_eq_true, decide_eq_true_eq, if_neg hok]

theorem programAndRecorderCommandsComplete : Claims.ProgramAndRecorderCommandsComplete := by
  intro s l h
  refine ⟨fun p r g i hi => ?_, fun p m k hm hok => ?_, fun p => ?_, fun p => ?_, ?_, fun a m => ?_, ?_⟩
  · refine answersLater_of_runOp rfl (fun _ hr hck => ?_) (fun _ => by simp) (fun _ _ _ => nofun)
    rw [State.runOp]
    refine (State.guarded_of_checked hr hck).trans ?_
    rw [runExchange_of_loaded (by simpa using hi)]
    rfl
  · refine answersLater_of_runOp rfl (fun _ hr hck => ?_) (fun _ => by simp) (fun _ _ _ => nofun)
    have hck' : (match (s.entered l h (.restart p m k)).checkRestart l h p k with
        | some .notPermitted => some .notPermitted | c => if 2 < m then some .badParam else c) = none := by
      rw [hck]; exact if_neg (by omega)
    rw [State.runOp]
    refine (State.guarded_of_checked hr hck').trans ?_
    rw [runRestart_of_permitted (by simpa using hok)]
    rfl
  · exact answersOk_of_runOp rfl (fun _ hr hck => by rw [State.runOp]; exact State.guarded_of_checked hr hck)
  · exact answersLater_of_runOp rfl (fun _ hr hck => by rw [State.runOp]; exact State.guarded_of_checked hr hck)
      (fun _ => by simp) (fun _ _ _ => nofun)
  · exact answersOk_of_runOp rfl (fun _ hr hck => by rw [State.runOp]; exact State.guarded_of_checked hr hck)
  · exact answersOk_of_runOp rfl (fun _ hr hck => by rw [State.runOp]; exact State.guarded_of_checked hr hck)
  · exact answersOk_of_runOp rfl (fun _ hr hck => by rw [State.runOp]; exact State.guarded_of_checked hr hck)

/-! ### Time -/

/-- A write of the calendar that has no outcome yet is posted, and waits. -/
theorem State.runPost_of_noOutcome {s u : State} {h : Hdr} (hpkg : u.pkg = s.pkg) (hno : s.noOutcome h) (l : LaneId) (r : PwReg)
    (words : List Word) (ps : List Byte) : u.runPost l h s.releasedEpoch r words ps =
      (u.postRtc { lane := l, reg := r, words := words, hdr := some h } true, .later .timeSet) := by
  simp only [State.runPost, State.find_outcome_of_noOutcome hpkg hno]

theorem timeCommandsComplete : Claims.TimeCommandsComplete := by
  intro s l h hno
  refine ⟨?_, fun d => ?_, fun v => ?_⟩
  · exact answersOk_of_runOp rfl (fun halone hr _ => by
      rw [State.runOp]; exact (State.guarded_of_checked hr rfl).trans (State.jointReply_entered halone hno _))
  · exact answersLater_of_runOp rfl (fun _ hr hck => by
      rw [State.runOp]
      exact (State.guarded_of_checked hr hck).trans (State.runPost_of_noOutcome (by simp) hno ..))
      (fun _ => by simp) (fun _ _ _ => nofun)
  · exact answersLater_of_runOp rfl (fun _ hr hck => by
      rw [State.runOp]
      exact (State.guarded_of_checked hr hck).trans (State.runPost_of_noOutcome (by simp) hno ..))
      (fun _ => by simp) (fun _ _ _ => nofun)

/-- Settles O14: each operation of Tables 09-12 to 09-15 in the one lane of agreement (R467 to R472 for the recorder). A tenant's RESTART of a
partition that waits for time is not of the claim. -/
theorem meterProgramAndTimeCommandsComplete : Obligations.MeterProgramAndTimeCommandsComplete :=
  ⟨meterCommandsComplete, programAndRecorderCommandsComplete, timeCommandsComplete⟩

end Sys2Proof.Machine
end

section
/-! SUPPORT. The network, fault, lane, policy and setting commands, and the pending reply. -/

namespace Sys2Proof.Machine

/-! ### Network and CAN -/

theorem networkCommandsComplete : Claims.NetworkCommandsComplete := by
  intro s l h
  refine ⟨fun n => ?_, fun f => ?_, fun c => ?_, fun m => ?_⟩
  · exact answersOk_of_runOp rfl (fun _ hr hck => by rw [State.runOp]; exact State.guarded_of_checked hr hck)
  · exact answersOk_of_runOp rfl (fun _ hr hck => by rw [State.runOp]; exact State.guarded_of_checked hr hck)
  · exact answersOk_of_runOp rfl (fun _ hr hck => by rw [State.runOp]; exact State.guarded_of_checked hr hck)
  · exact answersOk_of_runOp rfl (fun _ hr hck => by rw [State.runOp]; exact State.guarded_of_checked hr hck)

/-! ### FAULT_ACK leaves the roles of the lanes -/

@[simp] theorem Lane.laneBlk_clearBit (x : Lane) (b : Nat) : (x.clearBit b).blk.lane = x.blk.lane := by
  unfold Lane.clearBit
  split <;> rfl

@[simp] theorem State.laneBlk_endCauseBoth (s : State) (b : Nat) (k : LaneId) :
    ((s.endCauseBoth b).lane k).blk.lane = (s.lane k).blk.lane := by
  cases k <;> rfl

@[simp] theorem Lane.laneBlk_ackScope (x : Lane) (e : Word) (scope index : Nat) : (x.ackScope e scope index).blk.lane = x.blk.lane := by
  unfold Lane.ackScope
  dsimp only
  refine (foldl_keeps (p := fun y : Lane => y.blk.lane) (by intros; rfl) _ _).trans ?_
  refine (foldl_keeps (p := fun y : Lane => y.blk.lane) (by intros; rfl) _ _).trans ?_
  exact foldl_keeps (p := fun y : Lane => y.blk.lane) (fun _ _ => Lane.laneBlk_clearBit ..) _ _

@[simp] theorem State.laneBlk_endOvercurrents (s : State) (k : LaneId) :
    (s.endOvercurrents.lane k).blk.lane = (s.lane k).blk.lane := by
  refine foldl_keeps (p := fun t : State => (t.lane k).blk.lane) (fun t r => ?_) _ _
  refine foldl_keeps (p := fun t : State => (t.lane k).blk.lane) (fun u i => ?_) _ _
  split <;> simp

@[simp] theorem State.lane_enableStages (s : State) (bits : List Nat) (k : LaneId) : (s.enableStages bits).lane k = s.lane k := by
  refine foldl_keeps (p := fun t : State => t.lane k) (fun t b => ?_) _ _
  split <;> simp

@[simp] theorem State.laneBlk_allLiteralsMoved (s : State) (k : LaneId) :
    (s.allLiteralsMoved.lane k).blk.lane = (s.lane k).blk.lane :=
  s.allLiteralsMoved_onlyVectors.keeps (p := fun x => x.blk.lane) (fun _ _ => rfl) k

@[simp] theorem State.laneBlk_ackFaults (s : State) (e : Word) (sc i : Nat) (k : LaneId) :
    ((s.ackFaults e sc i).1.lane k).blk.lane = (s.lane k).blk.lane := by
  unfold State.ackFaults
  dsimp only
  split
  · simp
  · rw [State.laneBlk_allLiteralsMoved, State.lane_enableStages, ← s.laneBlk_endOvercurrents k]
    cases k <;> simp [State.lane]

/-- Whether a lane releases epochs is read off its role. -/
theorem Lane.releases_eq_of_laneBlk {x y : Lane} (h : x.blk.lane = y.blk.lane) : x.releases = y.releases := by
  simp only [Lane.releases, Lane.inService, h]

theorem State.length_ackFaults {s : State} {e : Word} {sc i : Nat} {bs : List Byte} {gone : List Nat}
    (h : (s.ackFaults e sc i).2 = some (bs, gone)) : bs.length = 4 := by
  unfold State.ackFaults at h
  dsimp only at h
  split at h
  · cases h
  · simp only [Option.some.injEq, Prod.mk.injEq] at h
    rw [← h.1, List.length_append, length_beBytes, length_beBytes]

/-- FAULT_ACK of a scope that is not the module, in a lane alone, that no lasting cause refuses. -/
theorem State.runFaultAck_of_alone {s u : State} {l : LaneId} {h : Hdr} {sc i : Nat} {bs : List Byte} {gone : List Nat}
    (hrel : (u.lane l.other).releases = false) (hpkg : u.pkg = s.pkg) (hno : s.noOutcome h) (hsc : sc ≠ 6)
    (hack : (u.ackFaults s.releasedEpoch sc i).2 = some (bs, gone)) :
    u.runFaultAck l h s.releasedEpoch sc i = ((u.ackFaults s.releasedEpoch sc i).1, .done .ok bs) := by
  have hrel' : ((u.ackFaults s.releasedEpoch sc i).1.lane l.other).releases = false := by
    rw [Lane.releases_eq_of_laneBlk (u.laneBlk_ackFaults s.releasedEpoch sc i l.other), hrel]
  simp only [State.runFaultAck, State.find_outcome_of_noOutcome hpkg hno, hack, hrel', if_neg hsc, Bool.false_eq_true,
    List.take_left' (State.length_ackFaults hack), if_true, if_false]

/-! ### Faults and lanes -/

/-- A reading that does not go by the leader's capture is done with the lane's own. -/
theorem State.jointAnswer_done {op : Op} (hop : leaderGives op = false) (s : State) (l : LaneId) (h : Hdr) (a b : List Byte) :
    s.jointAnswer l h op a b = .done .ok (s.jointBytes l h op a b) := by
  cases op
  case meterRead => cases hop
  all_goals rfl

/-- The same for a command that has just entered. -/
theorem State.jointReply_own {s : State} {l : LaneId} (halone : s.Alone l) {h : Hdr} (hno : s.noOutcome h) {op : Op}
    (hop : leaderGives op = false) : (s.entered l h op).jointReply l h s.releasedEpoch op =
      (s.entered l h op, .done .ok ((s.entered l h op).ownReply l h op)) := by
  rw [State.jointReply_entered halone hno, State.jointAnswer_done hop]
  rfl

theorem faultAndLaneCommandsComplete : Claims.FaultAndLaneCommandsComplete := by
  intro s l h
  refine ⟨fun f c hno => ?_, fun sc i bs gone hno hsc hack => ?_, fun hno => ?_, fun p o => ?_⟩
  · exact answersOk_of_runOp rfl (fun halone hr hck => by
      rw [State.runOp]; exact (State.guarded_of_checked hr hck).trans (State.jointReply_own halone hno rfl))
  · exact answersOk_of_runOp rfl (fun halone hr hck => by
      rw [State.runOp]
      exact (State.guarded_of_checked hr hck).trans
        (State.runFaultAck_of_alone ((s.entered_releases_other l h _).trans halone.2) (State.entered_pkg ..) hno hsc hack))
  · exact answersOk_of_runOp rfl (fun halone hr _ => by
      rw [State.runOp]; exact (State.guarded_of_checked hr rfl).trans (State.jointReply_own halone hno rfl))
  · exact answersOk_of_runOp rfl (fun _ hr hck => by rw [State.runOp]; exact State.guarded_of_checked hr hck)

/-! ### Policies and settings -/

theorem policyAndSettingCommandsComplete : Claims.PolicyAndSettingCommandsComplete := by
  intro s l h
  refine ⟨fun i f c hno => ?_, fun i n v => ?_, fun i n v => ?_, fun is => ?_, fun i n hno => ?_⟩
  · exact answersOk_of_runOp rfl (fun halone hr hck => by
      rw [State.runOp]; exact (State.guarded_of_checked hr hck).trans (State.jointReply_own halone hno rfl))
  · exact answersOk_of_runOp rfl (fun _ hr hck => by rw [State.runOp]; exact State.guarded_of_checked hr hck)
  · exact answersOk_of_runOp rfl (fun _ hr hck => by
      rw [State.runOp]
      refine (State.guarded_of_checked hr hck).trans ?_
      simp [State.alone, runPolicyPin, State.onLane])
  · exact answersOk_of_runOp rfl (fun _ hr hck => by rw [State.runOp]; exact State.guarded_of_checked hr hck)
  · exact answersOk_of_runOp rfl (fun halone hr hck => by
      rw [State.runOp]
      exact (State.guarded_of_checked hr hck).trans (State.jointReply_entered halone hno _))

/-! ### Both lanes reply with both captures (R347) -/

theorem orderCaptures_own {op : Op} (hop : leaderGives op = false) (l : LaneId) (leads : Bool) (own theirs : List Byte) :
    orderCaptures op l leads own theirs = if l = .a then (own, theirs) else (theirs, own) := by
  cases l <;> simp [orderCaptures, hop]

theorem lanesReplyWithBothCaptures : Claims.LanesReplyWithBothCaptures := by
  intro s l h op e hop
  refine ⟨fun hempty hpartner => ?_, fun n theirs hone => ?_⟩
  · simp [State.jointReply, hempty, hpartner, hop, State.onPkg]
  · have htaken : s.onPkg (fun p => { p with outcomes := p.outcomes.erase (h, e, n, theirs) }) =
        s.onPkg (fun p => { p with outcomes := [] }) := by
      simp [State.onPkg, hone]
    simp [State.jointReply, hone, htaken, orderCaptures_own hop, State.jointAnswer_done hop]

/-- Settles O16: each operation of Tables 09-16 to 09-19 in the one lane of agreement, and the two captures with both lanes. FAULT_ACK
of the module (scope 6) is not of the claim. -/
theorem networkLaneAndSettingCommandsComplete : Obligations.NetworkLaneAndSettingCommandsComplete :=
  ⟨networkCommandsComplete, faultAndLaneCommandsComplete, policyAndSettingCommandsComplete, lanesReplyWithBothCaptures⟩

/-! ### The pending reply (R348) -/

/-- The first entry equal to `o` becomes `v`, and no other moves. -/
theorem oset1_of_not_mem {before after : List Outstanding} {o : Outstanding} (ho : o ∉ before) (v : Outstanding) :
    State.pendingReply.oset1 (before ++ o :: after) o v = before ++ v :: after := by
  induction before with
  | nil => simp [State.pendingReply.oset1]
  | cons a r ih =>
    simp only [List.mem_cons, not_or] at ho
    rw [List.cons_append, State.pendingReply.oset1, if_neg (Ne.symm ho.1), ih ho.2, List.cons_append]

/-- Settles O17: the row looks for the first command that is due and marks it (R348). -/
theorem pendingReplyAfter45Ms : Obligations.PendingReplyAfter45Ms := by
  intro s l sender seq beat o due
  have hfind : ((s.at_ beat).lane l).man.outstanding.find? (fun q => q.hdr.sender = sender && q.hdr.seq = seq && !q.pendingSent &&
      decide (q.beat + 4500000 ≤ (s.at_ beat).pkg.beat)) = due.head? := by
    rw [List.head?_filter]
    simp
  refine ⟨fun before after hsplit hnot hdue => ?_, fun hdue => ?_⟩
  · change Host.Outcome.next ((s.at_ beat).pendingReply l sender seq) = _
    rw [State.pendingReply, hfind, hdue]
    refine congrArg (fun t : State => Host.Outcome.next (t.reply l o.hdr (opCode o.op) .pending [] o.epoch)) ?_
    simp [State.onLane, Lane.onMan, hsplit, oset1_of_not_mem hnot]
  · change Host.Outcome.next ((s.at_ beat).pendingReply l sender seq) = _
    rw [State.pendingReply, hfind, hdue, List.head?_nil]

end Sys2Proof.Machine
end

section
/-! SUPPORT. One instruction of an application core, and its environment calls (R131 to R139, R147, R168). -/

namespace Sys2Proof.Machine

/-! ### What a register write of a core leaves -/

@[simp] theorem Core.reg_zero (k : Core) : k.reg 0 = 0 := rfl

theorem Core.reg_setReg_same (k : Core) (r : Nat) (v : Word) : (k.setReg r v).reg r = if r = 0 then 0 else v := by
  unfold Core.setReg Core.reg
  split <;> simp

theorem Core.reg_setReg_other (k : Core) {r q : Nat} (v : Word) (h : q ≠ r) : (k.setReg r v).reg q = k.reg q := by
  unfold Core.setReg
  split
  · rfl
  · simp only [Core.reg, tget_tput_other v h]

@[simp] theorem Core.setReg_fields (k : Core) (r : Nat) (v : Word) :
    (k.setReg r v).mem = k.mem ∧ (k.setReg r v).wbuf = k.wbuf ∧ (k.setReg r v).pc = k.pc := by
  unfold Core.setReg
  split <;> exact ⟨rfl, rfl, rfl⟩

theorem Core.reg_congr {k j : Core} (h : k.regs = j.regs) (r : Nat) : k.reg r = j.reg r := by
  simp [Core.reg, h]

/-! ### What the change of a core leaves of the state -/

theorem OnlyCore.onCore (s : State) (l : LaneId) (c : Nat) (f : Core → Core) : OnlyCore s (s.onLane l (fun x => x.onCore c f)) l c := by
  refine ⟨by simp, by simp, by simp, by simp, by simp [Lane.onCore], fun d hd => ?_⟩
  rw [State.lane_onLane, Lane.core_onCore_other _ _ hd]

@[simp] theorem State.core_onCore (s : State) (l : LaneId) (c : Nat) (f : Core → Core) :
    ((s.onLane l (fun x => x.onCore c f)).lane l).core c = f ((s.lane l).core c) := by
  rw [State.lane_onLane, Lane.core_onCore]

/-- From `s` to `t` core `c` of lane `l` has written register `rd` with `v` and gone to `pc`, and nothing else has moved. -/
def WritesRegister (s t : State) (l : LaneId) (c rd : Nat) (v pc : Word) : Prop :=
  OnlyCore s t l c ∧ ((t.lane l).core c).pc = pc ∧ ((t.lane l).core c).mem = ((s.lane l).core c).mem ∧
    ((t.lane l).core c).wbuf = ((s.lane l).core c).wbuf ∧ (∀ r, r ≠ rd → ((t.lane l).core c).reg r = ((s.lane l).core c).reg r) ∧
    ((t.lane l).core c).reg rd = if rd = 0 then 0 else v

theorem State.coreWrites_writesRegister (s : State) (l : LaneId) (c rd : Nat) (v pc : Word) :
    WritesRegister s (s.coreWrites l c rd v pc) l c rd v pc := by
  refine ⟨.onCore s l c _, ?_⟩
  rw [State.coreWrites, State.core_onCore]
  refine ⟨rfl, by simp, by simp, fun r hr => ?_, ?_⟩
  · exact (Core.reg_congr rfl r).trans (Core.reg_setReg_other _ v hr)
  · exact (Core.reg_congr rfl rd).trans (Core.reg_setReg_same _ rd v)

/-! ### The instruction at the program counter -/

theorem State.asCore_of_running {s : State} {l : LaneId} {c p : Nat} (h : (s.lane l).running c = some p) (f : Nat → State) :
    s.asCore l c f = f p := by
  simp [State.asCore, h]

theorem exec_instruction {s : State} {l : LaneId} {c p : Nat} (h : (s.lane l).running c = some p) :
    exec (.instruction l c) s = .next (s.coreStep l p c) :=
  congrArg Host.Outcome.next (State.asCore_of_running h _)

/-- Settles O18: the cases of `coreStep` (R131 to R134); the encodings are log entry 90. -/
theorem instructionExecutes : Obligations.InstructionExecutes := by
  intro s l c p hrun
  rw [exec_instruction hrun]
  refine ⟨fun hret => ?_, fun hret => ⟨fun hfetch => ?_, fun w n hfetch => ⟨fun hdec => ?_, fun i hdec => ?_⟩⟩⟩
  · simp [State.coreStep, hret]
  · simp [State.coreStep, hret, hfetch]
  · simp [State.coreStep, hret, hfetch, hdec]
  · simp [State.coreStep, hret, hfetch, hdec]

/-- Settles O19: each of the integer instructions is one register write of its core (log entry 90). -/
theorem integerInstructionsWriteOneRegister : Obligations.IntegerInstructionsWriteOneRegister := by
  intro s l p c n i rd v pc k h
  have hwrites : ∃ v', s.rvEffect l p c i n = s.coreWrites l c rd v' pc ∧ (rd ≠ 0 → v' = v) := by
    obtain ⟨rfl, rfl⟩ | ⟨imm, rfl, rfl, rfl⟩ | ⟨imm, rfl, rfl, rfl⟩ | ⟨rs1, imm, rfl, rfl, rfl⟩ | ⟨f, rs1, imm, rfl, rfl, rfl⟩ |
      ⟨f, rs1, rs2, rfl, rfl, rfl⟩ | ⟨cond, rs1, rs2, imm, rfl, rfl, rfl⟩ := h
    case inr.inr.inr.inr.inr.inr => exact ⟨0, rfl, fun h0 => absurd rfl h0⟩
    all_goals exact ⟨_, rfl, fun _ => rfl⟩
  obtain ⟨v', ht, hv⟩ := hwrites
  obtain ⟨honly, hpc, hmem, hbuf, hother, hsame⟩ := s.coreWrites_writesRegister l c rd v' pc
  dsimp only
  rw [ht]
  refine ⟨honly, hpc, hmem, hbuf, hother, hsame.trans ?_⟩
  split
  · rfl
  · exact hv ‹_›

/-! ### Loads and stores -/

/-- An entry inside a write of consecutive entries reads back. -/
theorem tget_tputList_inside {α : Type} [DecidableEq α] {d : α} :
    ∀ (vs : List α) (t : Tab α) (k i : Nat) (hi : i < vs.length), tget d (tputList d t k vs) (k + i) = vs[i]
  | v :: vs, t, k, 0, _ => by
    rw [Nat.add_zero, tputList, tget_tputList_other vs _ _ _ (Or.inl (Nat.lt_add_one k)), tget_tput_same, List.getElem_cons_zero]
  | v :: vs, t, k, i + 1, hi => by
    have ih := tget_tputList_inside (d := d) vs (tput d t k v) (k + 1) i (by simpa using hi)
    rw [tputList, List.getElem_cons_succ, ← ih, Nat.add_right_comm, Nat.add_assoc]

theorem length_leBytes (n v : Nat) : (leBytes n v).length = n := by
  induction n generalizing v with
  | zero => rfl
  | succ n ih => rw [leBytes, List.length_cons, ih]

theorem getElem_leBytes : ∀ (n v i : Nat) (hi : i < (leBytes n v).length), (leBytes n v)[i] = BitVec.ofNat 8 (v / 256 ^ i)
  | n + 1, v, 0, _ => by simp [leBytes]
  | n + 1, v, i + 1, hi => by
    simp only [leBytes, List.getElem_cons_succ]
    rw [getElem_leBytes n (v / 256) i, Nat.div_div_eq_div_mul, pow_succ, Nat.mul_comm]

theorem filter_tins {α : Type} (k : Nat) (v : α) : ∀ t : Tab α, (tins k v t).filter (fun e => e.1 ≠ k) = t.filter (fun e => e.1 ≠ k)
  | [] => by simp [tins]
  | (i, w) :: r => by
    have ih := filter_tins k v r
    simp only [tins]
    split
    · simp
    · simp only [List.filter_cons, ih]

/-- Of two writes of one entry the second stands. -/
theorem tput_tput {α : Type} [DecidableEq α] (d : α) (t : Tab α) (k : Nat) (v w : α) : tput d (tput d t k v) k w = tput d t k w := by
  have hfilter : (tput d t k v).filter (fun e => e.1 ≠ k) = t.filter (fun e => e.1 ≠ k) := by
    unfold tput
    dsimp only
    split
    · simp
    · rw [filter_tins]; simp
  unfold tput at hfilter ⊢
  simp only [hfilter]

theorem State.onLane_onLane (s : State) (l : LaneId) (f g : Lane → Lane) :
    (s.onLane l f).onLane l g = s.onLane l (fun x => g (f x)) := by
  cases l <;> rfl

theorem Lane.onCore_onCore (x : Lane) (c : Nat) (f g : Core → Core) : (x.onCore c f).onCore c g = x.onCore c (fun k => g (f k)) := by
  simp only [Lane.onCore, tmod, tget_tput_same, tput_tput]

theorem Lane.putByte_private (x : Lane) (p c : Nat) {a : Nat} (b : Byte) (h : a < 0x80000) :
    x.putByte p c a b = some (x.onCore c (fun k => { k with mem := memWrite k.mem a [b] })) := by
  simp [Lane.putByte, isPrivate, h, memWrite, tputList]

/-- A write that stays in the core's own memory takes effect at once, and cannot fail. -/
theorem Lane.putBytes_private (p c : Nat) : ∀ (bs : List Byte) (x : Lane) (a : Nat) (b : Byte), a + bs.length < 0x80000 →
    x.putBytes p c a (b :: bs) = some (x.onCore c (fun k => { k with mem := memWrite k.mem a (b :: bs) }))
  | [], x, a, b, h => by
    rw [Lane.putBytes, Lane.putByte_private x p c b (by simpa using h)]
    rfl
  | b' :: bs, x, a, b, h => by
    rw [List.length_cons] at h
    have ih := Lane.putBytes_private p c bs (x.onCore c (fun k => { k with mem := memWrite k.mem a [b] })) (a + 1) b' (by omega)
    rw [Lane.putBytes, Lane.putByte_private x p c b (by omega)]
    refine ih.trans ?_
    rw [Lane.onCore_onCore]
    rfl

theorem State.coreStore_private {s : State} {l : LaneId} {p c a n : Nat} (v : Word) (ha : a % n = 0) (hend : a + n ≤ 0x80000)
    (hn : 0 < n) (hcode : ((s.lane l).part p).codeLen ≤ a) :
    s.coreStore l p c a n v = some (s.onLane l (fun x => x.onCore c (fun k => { k with mem := memWrite k.mem a (leBytes n v.toNat) }))) := by
  have hmay : s.mayWrite l p a n = true := by
    simp [State.mayWrite, isPrivate, show a < 0x80000 by omega, hcode]
  obtain ⟨m, rfl⟩ : ∃ m, n = m + 1 := ⟨n - 1, by omega⟩
  have hput := Lane.putBytes_private p c (leBytes m (v.toNat / 256)) (s.lane l) a (BitVec.ofNat 8 v.toNat)
    (by rw [length_leBytes]; omega)
  simp only [State.coreStore, ha, ne_eq, not_true_eq_false, if_false, hmay, if_true]
  rw [leBytes, hput, Option.map_some]
  simp [State.onLane]

theorem privateStoresWriteTheirBytes : Claims.PrivateStoresWriteTheirBytes := by
  intro s l p c n size rs1 rs2 a imm k haddr halign hend hsize hcode
  have hpos : 0 < size := by omega
  have heffect : s.rvEffect l p c (.store size rs1 rs2 imm) n = (s.onLane l (fun x => x.onCore c (fun k => { k with
      mem := memWrite k.mem a (leBytes size (((s.lane l).core c).reg rs2).toNat) }))).coreWrites l c 0 0
      (((s.lane l).core c).pc + w32 n) := by
    simp only [State.rvEffect]
    rw [← haddr, State.coreStore_private _ halign hend hpos hcode]
  dsimp only
  rw [heffect, State.coreWrites, State.onLane_onLane]
  simp only [Lane.onCore_onCore]
  refine ⟨.onCore s l c _, ?_⟩
  rw [State.core_onCore]
  refine ⟨rfl, rfl, fun _ => rfl, fun i hi => ?_, fun b hb => ?_⟩
  · exact (tget_tputList_inside _ _ a i (by rwa [length_leBytes])).trans (getElem_leBytes ..)
  · exact memWrite_other _ a b _ (by rwa [length_leBytes])

/-! #### Loads -/

theorem State.coreLoad_of_mayRead {s : State} {l : LaneId} {p a n : Nat} (c : Nat) (ha : a % n = 0) (hmay : s.mayRead l p a n = true) :
    s.coreLoad l p c a n = ((s.lane l).coreNat p c a n, s) := by
  simp [State.coreLoad, ha, hmay]

/-- What the selvedge guard refuses reads 0. -/
theorem State.coreLoad_of_refused {s : State} {l : LaneId} {p a n : Nat} (c : Nat)
    (h : a % n ≠ 0 ∨ (s.mayRead l p a n = false ∧ (inBlocks a = false ∨ n ≠ 4))) :
    s.coreLoad l p c a n = (0, s.selvedge l p c 0 a) := by
  obtain ha | ⟨hmay, hblock⟩ := h
  · simp [State.coreLoad, ha]
  · have hb : (inBlocks a && decide (n = 4)) = false := by obtain h | h := hblock <;> simp [h]
    simp [State.coreLoad, hmay, hb]

theorem State.rvEffect_load {s : State} {l : LaneId} {p c size rs1 a : Nat} {imm : Word} (ha : a = (((s.lane l).core c).reg rs1 + imm).toNat)
    (n rd : Nat) (sgn : Bool) {r : Nat × State} (hr : s.coreLoad l p c a size = r) :
    s.rvEffect l p c (.load size sgn rd rs1 imm) n =
      r.2.coreWrites l c rd (if sgn then sext (8 * size) r.1 else w32 r.1) (((s.lane l).core c).pc + w32 n) := by
  subst hr ha
  rfl

/-- A selvedge violation sets its bit and records a detail, and moves no memory. -/
theorem State.selvedge_keeps (s : State) (l : LaneId) (p c access a : Nat) :
    ((s.selvedge l p c access a).lane l).parts = (s.lane l).parts ∧ ((s.selvedge l p c access a).lane l).cores = (s.lane l).cores := by
  simp [State.selvedge, Lane.detail]

theorem bitClass_bitSelvedge {p : Nat} (hp : p < 16) : bitClass (bitSelvedge p) = 1 := by
  revert hp
  revert p
  decide

theorem State.selvedge_hasBit {s : State} {l : LaneId} {p : Nat} (c access a : Nat) (hp : p < 16) (hc : (s.lane l).collects = true) :
    ((s.selvedge l p c access a).lane l).hasBit (bitSelvedge p) = true := by
  have hflag := State.flag_hasBit s l (b := bitSelvedge p) false hc (by simp [bitClass_bitSelvedge hp])
  simpa [State.selvedge, Lane.detail, Lane.hasBit] using hflag

theorem loadsReadOrAreRefused : Claims.LoadsReadOrAreRefused := by
  intro s l p c n size rd rs1 a sgn imm k ha
  refine ⟨fun halign hmay => ?_, fun hrefused => ?_⟩
  · exact State.rvEffect_load ha n rd sgn (State.coreLoad_of_mayRead c halign hmay)
  · obtain ⟨hparts, hcores⟩ := s.selvedge_keeps l p c 0 a
    exact ⟨State.rvEffect_load ha n rd sgn (State.coreLoad_of_refused c hrefused), hparts, hcores, State.selvedge_hasBit c 0 a⟩

/-- Settles O20: a store to the core's own memory is a write of the core's memory that cannot fail; a load reads, or is a selvedge violation that reads 0
(the encodings are log entry 90). -/
theorem loadsAndStoresAccessMemory : Obligations.LoadsAndStoresAccessMemory :=
  ⟨privateStoresWriteTheirBytes, loadsReadOrAreRefused⟩

/-! ### Environment calls -/

theorem State.callPost_of_room {s : State} {l : LaneId} {p c : Nat} (hring : (((s.lane l).core c).reg 10).toNat = 16 + p)
    (hmin : 1 ≤ (((s.lane l).core c).reg 12).toNat) (hmax : (((s.lane l).core c).reg 12).toNat ≤ ringLargest (16 + p))
    (hreads : s.bufferReads l p (((s.lane l).core c).reg 11).toNat (((s.lane l).core c).reg 12).toNat = true)
    (hroom : ((s.lane l).part p).postSlots + slotsOf (((s.lane l).core c).reg 12).toNat ≤ ((s.lane l).part p).freeAtStart) :
    s.callPost l p c = (s.onLane l (fun y => y.onPart p (fun r => { r with
      posts := r.posts ++ [(List.range (((s.lane l).core c).reg 12).toNat).map (fun i =>
        (s.lane l).coreByte p c ((((s.lane l).core c).reg 11).toNat + i))] }))).callEnds l c 0 := by
  simp [State.callPost, hring, hreads, Nat.not_lt.mpr hmin, Nat.not_lt.mpr hmax, Nat.not_lt.mpr hroom]

/-- RING_TAKE by the core of rank 0, of a ring of its partition, with a buffer that it may write. -/
theorem State.callTake_of_permitted {s : State} {l : LaneId} {p c : Nat}
    (hring : (((s.lane l).core c).reg 10).toNat = p ∨ (((s.lane l).core c).reg 10).toNat = 32 + p) (hrank : (s.lane l).coreRank p c = 0)
    (hwrites : s.bufferWrites l p (((s.lane l).core c).reg 11).toNat (((s.lane l).core c).reg 12).toNat = true) :
    s.callTake l p c = match (s.lane l).takeable p (((s.lane l).core c).reg 10).toNat with
      | none => s.callEnds l c 1
      | some e =>
        if (((s.lane l).core c).reg 12).toNat < e.bytes.length then s.badArg l p c 1 (((s.lane l).core c).reg 11)
        else s.callWrites l p c (((s.lane l).core c).reg 11).toNat e.bytes (fun t =>
          (t.onLane l (fun y => (y.onRing (((s.lane l).core c).reg 10).toNat
            (fun g => match g.take with | some r => r.2 | none => g)).onCore c
            (fun r => r.setReg 11 (w32 e.bytes.length)))).callEnds l c 0) := by
  have hno : (decide ((((s.lane l).core c).reg 10).toNat ≠ p) && decide ((((s.lane l).core c).reg 10).toNat ≠ 32 + p)) = false := by
    simpa using fun h => hring.resolve_left h
  simp only [State.callTake, hno, hrank, hwrites, Bool.false_eq_true, if_false, ne_eq, not_true_eq_false, Bool.not_true] <;>
    rfl

theorem State.callWrites_of_put {s : State} {l : LaneId} {p c a : Nat} {bs : List Byte} {y : Lane}
    (h : (s.lane l).putBytes p c a bs = some y) (go : State → State) : s.callWrites l p c a bs go = go (s.onLane l (fun _ => y)) := by
  simp [State.callWrites, h]

theorem Lane.onCore_congr {x : Lane} {c : Nat} {f g : Core → Core} (h : f (x.core c) = g (x.core c)) : x.onCore c f = x.onCore c g := by
  simp only [Lane.core] at h
  simp only [Lane.onCore, tmod, h]

theorem State.onLane_congr {s : State} {l : LaneId} {f g : Lane → Lane} (h : f (s.lane l) = g (s.lane l)) : s.onLane l f = s.onLane l g :=
  congrArg (s.setLane l) h

theorem State.callPick_of_few {s : State} {l : LaneId} {c : Nat} (p : Nat) (h : ((s.lane l).core c).pickCalls < 8) :
    s.callPick l p c = (s.onLane l (fun x => x.onCore c (fun k => { k with
      count := k.count + 1, pickCalls := k.pickCalls + 1, run := .waiting (k.count + 1), waitStart := s.pkg.beat,
      pc := k.pc + 4 }))).requestPick l (.core c) (((s.lane l).core c).count + 1) :=
  (if_neg (Nat.not_le.mpr h)).trans
    (congrArg (fun t : State => t.requestPick l (.core c) _) (State.onLane_congr (Lane.onCore_congr rfl)))

/-- Settles O22: the five calls on a running core. That a row acts without asking for an ECALL at the program counter is the model's
choice (log entry 79). -/
theorem environmentCallsComplete : Obligations.EnvironmentCallsComplete := by
  intro s l c p hrun x k
  have hcall : ∀ {f : Nat → State} {t : State}, f p = t →
      (Host.Outcome.next (s.asCore l c f) : Host.Outcome State Fault Refusal) = .next t :=
    fun h => congrArg Host.Outcome.next ((State.asCore_of_running hrun _).trans h)
  refine ⟨fun hfew => hcall (State.callPick_of_few p hfew), fun hmany => hcall (if_pos hmany),
    fun hring hmin hmax hreads hroom => hcall (State.callPost_of_room hring hmin hmax hreads hroom),
    fun hring hrank hwrites => ⟨fun hnone => hcall ?_, fun e y hsome hfit hput => hcall ?_⟩,
    fun hzero => hcall (if_pos hzero), fun hwrites y hput => hcall ?_⟩
  · rw [State.callTake_of_permitted hring hrank hwrites, hnone]
  · rw [State.callTake_of_permitted hring hrank hwrites, hsome]
    exact (if_neg (Nat.not_lt.mpr hfit)).trans (State.callWrites_of_put hput _)
  · exact (if_neg (by simpa using hwrites)).trans (State.callWrites_of_put hput _)

end Sys2Proof.Machine
end

section
/-! SUPPORT. Mailbox requests, the calendar's mailbox, and doorbells: two statements that a lost clock and an ordering code without
metering refute (R33, R434, R442, R453). -/

namespace Sys2Proof.Machine

/-! ### A module without metering has no NRG block -/

/-- A module of ordering code M00 whose lane A is active. -/
def meterlessState : State :=
  { State.reset with
    pkg := { State.reset.pkg with order := .m00 }
    a := State.reset.a.onLaneBlk (fun b => { b with role := .active }) }

theorem meterlessState_noMeter : meterlessState.pkg.noMeter 5 = true := rfl

/-- A write of block 5 of a module that has no metering has no effect. -/
theorem exec_nrgAccMbx_of_noMeter {s : State} (h : s.pkg.noMeter 5 = true) (l : LaneId) (v : Word) :
    exec (.nrgAccMbx l .service v) s = .next s := by
  change Host.Outcome.next (s.registerWrite l .service (mbxAddr .nrgAcc) v) = _
  have hblock : blockOf_ (mbxAddr .nrgAcc) = 5 := by decide
  simp only [State.registerWrite, hblock, State.serviceWrite, h, if_true, ite_self]

/-- Refutes O23: NRG_ACC_MBX with circuit selector 1 by the service port of a module of ordering code M00. Such a module has no NRG
block, so the row leaves the state as it was (R434), while the request of the statement stores the selector. -/
theorem not_mailboxRequestsComplete : ¬ Obligations.MailboxRequestsComplete := by
  intro h
  obtain ⟨hmanaged, -⟩ := h meterlessState .a .nrgAcc 0x100#32
  have hservice := (hmanaged rfl).2
  rw [mailboxRow, exec_nrgAccMbx_of_noMeter meterlessState_noMeter] at hservice
  have hsel := congrArg (fun t : State => ((t.lane .a).mailbox .nrgAcc .service).sel) (Host.Outcome.next.inj hservice)
  exact absurd hsel (by decide)

/-! ### A capture from an island whose clock is lost -/

/-- A module whose lane A has lost the clock of island 5. -/
def clocklessState : State := State.reset.onLane .a (fun x => { x with lostClocks := [(5, 0)] })

/-- Refutes O24: SYS_WIDE_MBX of counter 0 by the lane manager while the clock of its island is lost. No capture is made (R33), and the
statement asks for the words as they are, T3 and RTC_TIME apart. -/
theorem not_mailboxesCaptureAndFreeze : ¬ Obligations.MailboxesCaptureAndFreeze := by
  intro ⟨hwhole, _⟩
  obtain ⟨hstarts, -⟩ := hwhole clocklessState .a .sysWide .manager 1#32 rfl
  obtain ⟨-, hcapture⟩ := hstarts rfl (by decide)
  have hlost : ((clocklessState.managerRequest .a .manager .sysWide 1#32).lane .a).mailbox .sysWide .manager =
      { ((clocklessState.managerRequest .a .manager .sysWide 1#32).lane .a).mailbox .sysWide .manager with capture := none } := by
    decide
  rw [hlost] at hcapture
  cases hcapture

/-! ### Doorbells -/

theorem State.doorbellPost_of_written {s : State} {l : LaneId} {r n : Nat} (hr : r < 64)
    (h : n ≤ ((s.lane l).ring r).entries.length - ((s.lane l).ring r).visible) :
    s.doorbellPost l r n = s.onLane l (fun x => x.onRing r (fun g =>
      { g with entries := showEntries n g.entries, posted := g.posted + w32 n })) := by
  simp only [State.doorbellPost, if_neg (Nat.not_le.mpr hr), if_neg (Nat.not_lt.mpr h)]

theorem State.doorbellPost_of_above {s : State} {l : LaneId} {r n : Nat} (hr : r < 64)
    (h : ((s.lane l).ring r).entries.length - ((s.lane l).ring r).visible < n) : s.doorbellPost l r n = s.flag l 2082 false := by
  simp only [State.doorbellPost, if_neg (Nat.not_le.mpr hr), if_pos h]

theorem State.doorbellTake_of_visible {s : State} {l : LaneId} {r n : Nat} (hr : r < 64)
    (h : n ≤ ((s.lane l).ring r).consumed.length + ((s.lane l).ring r).visible) :
    s.doorbellTake l r n = s.onLane l (fun x => x.onRing r (fun g =>
      { g with consumed := g.consumed.drop n, entries := g.entries.drop (n - g.consumed.length), taken := g.taken + w32 n })) := by
  simp only [State.doorbellTake, if_neg (Nat.not_le.mpr hr), if_neg (Nat.not_lt.mpr h)]

theorem State.doorbellTake_of_above {s : State} {l : LaneId} {r n : Nat} (hr : r < 64)
    (h : ((s.lane l).ring r).consumed.length + ((s.lane l).ring r).visible < n) : s.doorbellTake l r n = s.flag l 2082 false := by
  simp only [State.doorbellTake, if_neg (Nat.not_le.mpr hr), if_pos h]

/-- Settles O25: the doorbells of a ring compare the count with what is written or visible (R453, log entry 72). -/
theorem doorbellsMoveEntries : Obligations.DoorbellsMoveEntries := by
  intro s l r n hmanaged hr g
  have hpost : exec (.ringDoorbellPost l r n) s = .next (s.doorbellPost l r n) := congrArg Host.Outcome.next (if_pos hmanaged)
  have htake : exec (.ringDoorbellTake l r n) s = .next (s.doorbellTake l r n) := congrArg Host.Outcome.next (if_pos hmanaged)
  refine ⟨fun h => ?_, fun h => ?_, fun h => ?_, fun h => ?_, fun f q hq => ?_⟩
  · rw [hpost, State.doorbellPost_of_written hr h]
  · rw [hpost, State.doorbellPost_of_above hr h]
  · rw [htake, State.doorbellTake_of_visible hr h]
  · rw [htake, State.doorbellTake_of_above hr h]
  · rw [State.lane_onLane, Lane.ring_onRing_other _ f hq]

end Sys2Proof.Machine
end

section
/-! SUPPORT. Register writes that take effect (R42, R50, R427, R434, R501, R507). -/

namespace Sys2Proof.Machine

theorem State.registerWrite_manager {s : State} {l : LaneId} {addr : Nat} (v : Word) (hm : (s.lane l).managed = true)
    (ha : addr % 4 = 0) (hb : inBlocks addr = true) :
    s.registerWrite l .manager addr v = s.managerWrite l (blockOf_ addr) (offsetOf addr) v := by
  simp [State.registerWrite, hm, ha, hb]

theorem State.registerWrite_service {s : State} {l : LaneId} {addr : Nat} (v : Word) (hm : (s.lane l).managed = true)
    (ha : addr % 4 = 0) (hb : inBlocks addr = true) :
    s.registerWrite l .service addr v = s.serviceWrite l (blockOf_ addr) (offsetOf addr) v := by
  simp [State.registerWrite, hm, ha, hb]

/-! ### Clearing a bit -/

@[simp] theorem Lane.cause_clearBit (x : Lane) (b : Nat) : (x.clearBit b).blk.flt.cause = x.blk.flt.cause := by
  unfold Lane.clearBit
  split <;> rfl

theorem Lane.hasBit_clearBit {x : Lane} {b : Nat} (h : x.hasCause b = false) (c : Nat) :
    (x.clearBit b).hasBit c = (x.hasBit c && decide (c ≠ b)) := by
  have hiff : c ∈ (x.clearBit b).blk.flt.sticky ↔ c ∈ x.blk.flt.sticky ∧ c ≠ b := by simp [Lane.clearBit, h]
  rw [Bool.eq_iff_iff, Bool.and_eq_true]
  simpa [Lane.hasBit] using hiff

/-- Clearing bits that no cause holds clears these and no other. -/
theorem Lane.hasBit_foldl_clearBit (c : Nat) : ∀ (bs : List Nat) (x : Lane), (∀ b ∈ bs, x.hasCause b = false) →
    (bs.foldl (fun (z : Lane) b => z.clearBit b) x).hasBit c = (x.hasBit c && !bs.contains c)
  | [], x, _ => by simp
  | b :: bs, x, h => by
    have hrest : ∀ d ∈ bs, (x.clearBit b).hasCause d = false := fun d hd => by
      simpa [Lane.hasCause] using h d (List.mem_cons_of_mem b hd)
    rw [List.foldl_cons, Lane.hasBit_foldl_clearBit c bs _ hrest, Lane.hasBit_clearBit (h b List.mem_cons_self) c,
      List.contains_cons, Bool.not_or, Bool.and_assoc]
    simp only [ne_eq, decide_not, Bool.beq_eq_decide_eq]

/-! ### What an acknowledgement leaves of the programs -/

/-- What a program has of a lane: its core's memory and registers, and its partition's shared window. -/
def Lane.programs (x : Lane) : Tab Core × (Nat → Mem) := (x.cores, fun p => (x.part p).shared)

theorem Lane.programs_onPart (x : Lane) (p : Nat) {f : Part → Part} (hf : ∀ q, (f q).shared = q.shared) :
    (x.onPart p f).programs = x.programs := by
  refine Prod.ext rfl (funext fun q => ?_)
  by_cases h : q = p
  · subst h; simp [Lane.programs, hf]
  · simp [Lane.programs, Lane.part_onPart_other x f h]

@[simp] theorem Lane.programs_clearBit (x : Lane) (b : Nat) : (x.clearBit b).programs = x.programs := by
  unfold Lane.clearBit
  split <;> rfl

theorem Lane.programs_ackScope (x : Lane) (e : Word) (sc i : Nat) : (x.ackScope e sc i).programs = x.programs := by
  unfold Lane.ackScope
  dsimp only
  refine (foldl_keeps (p := Lane.programs) (fun y p => Lane.programs_onPart y p (by intros; rfl)) _ _).trans ?_
  refine (foldl_keeps (p := Lane.programs) (by intros; rfl) _ _).trans ?_
  exact foldl_keeps (p := Lane.programs) (fun _ _ => Lane.programs_clearBit ..) _ _

/-- Bits that no cause holds are cleared where the scope names them. -/
theorem Lane.hasBit_ackScope {x : Lane} (e : Word) {sc i : Nat} (hnone : ∀ b, ackActs sc i b = true → x.hasCause b = false) (c : Nat) :
    (x.ackScope e sc i).hasBit c = (x.hasBit c && !ackActs sc i c) := by
  have hcleared := Lane.hasBit_foldl_clearBit c (x.blk.flt.sticky.filter (ackActs sc i)) x
    (fun b hb => hnone b (List.mem_filter.mp hb).2)
  have hflt : (x.ackScope e sc i).hasBit c =
      ((x.blk.flt.sticky.filter (ackActs sc i)).foldl (fun (z : Lane) b => z.clearBit b) x).hasBit c := by
    unfold Lane.ackScope
    dsimp only
    refine (foldl_keeps (p := fun y : Lane => y.hasBit c) (by intros; rfl) _ _).trans ?_
    exact foldl_keeps (p := fun y : Lane => y.hasBit c) (by intros; rfl) _ _
  rw [hflt, hcleared]
  cases hbit : x.hasBit c with
  | false => rfl
  | true =>
    have hmem : c ∈ x.blk.flt.sticky := by simpa [Lane.hasBit] using hbit
    simp [hmem]

/-- From `s` to `t` causes of bits may have ended, and vectors may have reached the lanes, but no bit was set or cleared. -/
structure OnlyCausesEnd (s t : State) : Prop where
  bits : ∀ k b, (t.lane k).hasBit b = (s.lane k).hasBit b
  causes : ∀ k b, (t.lane k).hasCause b = true → (s.lane k).hasCause b = true
  programs : ∀ k, (t.lane k).programs = (s.lane k).programs

theorem OnlyCausesEnd.refl (s : State) : OnlyCausesEnd s s := ⟨fun _ _ => rfl, fun _ _ => id, fun _ => rfl⟩

theorem OnlyCausesEnd.trans {s t u : State} (h : OnlyCausesEnd s t) (k : OnlyCausesEnd t u) : OnlyCausesEnd s u :=
  ⟨fun l b => (k.bits l b).trans (h.bits l b), fun l b hb => h.causes l b (k.causes l b hb),
    fun l => (k.programs l).trans (h.programs l)⟩

theorem OnlyCausesEnd.foldl {α : Type} {f : State → α → State} (hf : ∀ t e, OnlyCausesEnd t (f t e)) (es : List α) (s : State) :
    OnlyCausesEnd s (es.foldl f s) := by
  induction es generalizing s with
  | nil => exact .refl s
  | cons e es ih => exact (hf s e).trans (ih _)

theorem State.lane_endCauseBoth (s : State) (b : Nat) (k : LaneId) : (s.endCauseBoth b).lane k = (s.lane k).endCause b := by
  cases k <;> rfl

theorem State.endCauseBoth_onlyCausesEnd (s : State) (b : Nat) : OnlyCausesEnd s (s.endCauseBoth b) := by
  refine ⟨fun k c => ?_, fun k c h => ?_, fun k => ?_⟩
  · rw [State.lane_endCauseBoth]; rfl
  · rw [State.lane_endCauseBoth] at h
    simp only [Lane.hasCause, Lane.endCause, Lane.onFlt_fields, List.contains_iff_mem, List.mem_filter] at h ⊢
    exact h.1
  · rw [State.lane_endCauseBoth]; rfl

theorem State.endOvercurrents_onlyCausesEnd (s : State) : OnlyCausesEnd s s.endOvercurrents := by
  refine .foldl (fun t r => .foldl (fun u i => ?_) _ _) _ _
  split
  · exact State.endCauseBoth_onlyCausesEnd ..
  · exact .refl _

/-! ### FLT_ACK -/

theorem Package.noMeter_of_ne (p : Package) {b : Nat} (h : b ≠ 5) : ¬ p.noMeter b = true := by
  simp [Package.noMeter, h]

theorem exec_fltAck {s : State} {l : LaneId} (v : Word) (hm : (s.lane l).managed = true) : exec (.fltAck l v) s = .next (s.fltAck v) :=
  congrArg Host.Outcome.next ((State.registerWrite_manager (addr := 0x40090008) v hm (by decide) (by decide)).trans
      (if_neg (Package.noMeter_of_ne _ (by decide))))

/-- A bit that either lane may have acknowledged is set in one of them, of class S and of the scope. -/
theorem State.mem_ackable (s : State) (sc i b : Nat) : b ∈ s.ackable sc i ↔
    ((s.a.hasBit b = true ∨ s.b.hasBit b = true) ∧ ackActs sc i b = true ∧ bitClass b = 3) := by
  have hfold : ∀ (bs t : List Nat), b ∈ bs.foldl (fun t c => insSorted c t) t ↔ b ∈ bs ∨ b ∈ t := by
    intro bs
    induction bs with
    | nil => simp
    | cons c bs ih => intro t; simp only [List.foldl_cons, ih, mem_insSorted, List.mem_cons]; tauto
  simp only [State.ackable, hfold, List.mem_filter, Bool.and_eq_true, decide_eq_true_eq, Lane.hasBit, List.contains_iff_mem]
  tauto

/-- Whether a lasting cause refuses an acknowledgement: a bit of class S of its scope has one. -/
theorem State.ackRefused_iff (s : State) (sc i : Nat) :
    (s.ackable sc i).any (fun b => s.a.hasCause b || s.b.hasCause b) = true ↔
      ∃ b, ((s.a.hasBit b = true ∨ s.b.hasBit b = true) ∧ ackActs sc i b = true ∧ bitClass b = 3) ∧
        (s.a.hasCause b = true ∨ s.b.hasCause b = true) := by
  simp only [List.any_eq_true, State.mem_ackable, Bool.or_eq_true]

/-- What an acknowledgement that is not refused makes of a lane, the vectors that reach it apart. -/
theorem State.ackFaults_lane {s : State} (e : Word) {sc i : Nat}
    (hgo : ¬ (decide (sc ≠ 6) && (s.endOvercurrents.ackable sc i).any
      (fun b => s.endOvercurrents.a.hasCause b || s.endOvercurrents.b.hasCause b)) = true)
    {β : Type} {p : Lane → β} (hp : ∀ (x : Lane) v, p { x with vectorIn := v } = p x) (k : LaneId) :
    p ((s.ackFaults e sc i).1.lane k) = p ((s.endOvercurrents.lane k).ackScope e sc i) := by
  have hlits : ∀ u : State, p (u.allLiteralsMoved.lane k) = p (u.lane k) := fun u => OnlyVectors.keeps (p := p) u.allLiteralsMoved_onlyVectors hp k
  unfold State.ackFaults
  dsimp only
  rw [if_neg hgo, hlits, State.lane_enableStages]
  cases k with
  | a => simp only [State.lane]
  | b => simp only [State.lane]

/-- With no cause of its scope an acknowledgement is not refused. -/
theorem State.not_ackRefused {s : State} {sc i : Nat} (hnone : ∀ k b, ackActs sc i b = true → (s.lane k).hasCause b = false) :
    ¬ (decide (sc ≠ 6) && (s.endOvercurrents.ackable sc i).any
      (fun b => s.endOvercurrents.a.hasCause b || s.endOvercurrents.b.hasCause b)) = true := by
  rw [Bool.and_eq_true, State.ackRefused_iff]
  rintro ⟨-, b, ⟨-, hacts, -⟩, hc | hc⟩
  · exact Bool.eq_false_iff.mp (hnone .a b hacts) (s.endOvercurrents_onlyCausesEnd.causes .a b hc)
  · exact Bool.eq_false_iff.mp (hnone .b b hacts) (s.endOvercurrents_onlyCausesEnd.causes .b b hc)

/-- With no cause left to hold a bit, the bits of the scope are cleared and no other. -/
theorem State.ackFaults_of_noCause {s : State} (e : Word) {sc i : Nat}
    (hnone : ∀ k b, ackActs sc i b = true → (s.lane k).hasCause b = false) (k : LaneId) :
    (∀ b, ((s.ackFaults e sc i).1.lane k).hasBit b = ((s.lane k).hasBit b && !ackActs sc i b)) ∧
    ((s.ackFaults e sc i).1.lane k).programs = (s.lane k).programs := by
  have hend := s.endOvercurrents_onlyCausesEnd
  have hnone' : ∀ b, ackActs sc i b = true → (s.endOvercurrents.lane k).hasCause b = false := fun b hb =>
    Bool.eq_false_iff.mpr fun hc => Bool.eq_false_iff.mp (hnone k b hb) (hend.causes k b hc)
  have hgo := State.not_ackRefused hnone
  refine ⟨fun b => ?_, ?_⟩
  · exact (State.ackFaults_lane e hgo (p := fun x => x.hasBit b) (fun _ _ => rfl) k).trans
      ((Lane.hasBit_ackScope e hnone' b).trans (by rw [hend.bits]))
  · exact (State.ackFaults_lane e hgo (p := Lane.programs) (fun _ _ => rfl) k).trans
      ((Lane.programs_ackScope ..).trans (hend.programs k))

theorem sameMemory_of_programs {s t : State} (h : ∀ k, (t.lane k).programs = (s.lane k).programs) : SameMemory s t := by
  intro k
  obtain ⟨hcores, hshared⟩ := Prod.mk.inj (h k)
  exact ⟨fun c a => by rw [Lane.core, Lane.core, hcores], fun p a => by rw [congrFun hshared p]⟩

theorem sameCoreRegs_of_programs {s t : State} (h : ∀ k, (t.lane k).programs = (s.lane k).programs) : SameCoreRegs s t := by
  intro k c r
  obtain ⟨hcores, -⟩ := Prod.mk.inj (h k)
  rw [Lane.core, Lane.core, hcores]

theorem fltAckCompletes : Claims.FltAckCompletes := by
  intro s l v hm sc i
  rw [exec_fltAck v hm]
  refine ⟨fun hrange hnone => ?_, fun hrange hsc ⟨b, k, hacts, hclass, hbit, hcause⟩ => ?_, fun hrange => ?_⟩
  · have hnone' : ∀ k b, ackActs sc i b = true → (s.lane k).hasCause b = false := fun k b hb => by
      obtain ⟨ha, hb⟩ := hnone b hb
      cases k
      · exact ha
      · exact hb
    have hleft := State.ackFaults_of_noCause (s.lane s.activeLane).blk.pick.released hnone'
    refine ⟨_, congrArg Host.Outcome.next (if_pos hrange), fun k b hb => ?_, fun k b hb => ?_,
      sameMemory_of_programs fun k => (hleft k).2, sameCoreRegs_of_programs fun k => (hleft k).2⟩
    · rw [(hleft k).1, hb, Bool.not_true, Bool.and_false]
    · rw [(hleft k).1, hb, Bool.not_false, Bool.and_true]
  · have hrefused : (decide (sc ≠ 6) && (s.endOvercurrents.ackable sc i).any
        (fun b => s.endOvercurrents.a.hasCause b || s.endOvercurrents.b.hasCause b)) = true := by
      rw [Bool.and_eq_true, State.ackRefused_iff]
      rw [← s.endOvercurrents_onlyCausesEnd.bits] at hbit
      refine ⟨by simpa using hsc, b, ⟨?_, hacts, hclass⟩, ?_⟩
      · cases k
        · exact .inl hbit
        · exact .inr hbit
      · cases k
        · exact .inl hcause
        · exact .inr hcause
    have hsame : s.fltAck v = s := by
      simp only [State.fltAck, State.ackFaults]
      rw [if_pos hrange, if_pos hrefused]
    rw [hsame]
  · have hsame : s.fltAck v = s := if_neg (by simpa using hrange)
    rw [hsame]

/-! ### RECOVER, REC_CTL and PICK_REQ -/

theorem Lane.bus_onBus_other (x : Lane) {n m : Nat} (f : BusSt → BusSt) (h : m ≠ n) : (x.onBus n f).bus m = x.bus m :=
  tget_tmod_other _ f h

theorem recoverCompletes : Claims.RecoverCompletes := by
  intro s l n v hn b
  cases hv : bitOf v 4 with
  | false => exact ⟨s, congrArg Host.Outcome.next (if_neg (by simp [hv])), by simp; rfl, fun _ _ => rfl, rfl, rfl⟩
  | true =>
    refine ⟨_, congrArg Host.Outcome.next (if_pos (by simp [hv, hn])), ?_, fun m hm => ?_, by simp, by simp⟩
    · rw [State.lane_onLane, Lane.bus_onBus]
      simp [BusSt.requestRecovery]
      rfl
    · rw [State.lane_onLane, Lane.bus_onBus_other _ _ hm]

theorem RecBlk.frozen_gap {r : RecBlk} (h : r.frozen = false) (pick : Word) : (r.gap pick).frozen = false := by
  unfold RecBlk.gap
  split
  · exact h
  · simp [RecBlk.write, h]

theorem recCtlCompletes : Claims.RecCtlCompletes := by
  refine ⟨fun r i => ⟨fun hp hf => ?_, fun hp hf => ?_, fun hp => ?_⟩, fun s l hm => ⟨?_, ?_⟩⟩
  · simp [RecBlk.takeFreeze, RecBlk.freeze, hp, hf]
  · simp only [RecBlk.takeFreeze, hp, RecBlk.thaw, hf, if_true, and_true]
    exact RecBlk.frozen_gap rfl i.n
  · simp [RecBlk.takeFreeze, hp]
  · exact congrArg Host.Outcome.next ((State.registerWrite_manager (addr := 0x400A0004) _ hm (by decide) (by decide)).trans
      (if_neg (Package.noMeter_of_ne _ (by decide))))
  · exact congrArg Host.Outcome.next ((State.registerWrite_manager (addr := 0x400A0004) _ hm (by decide) (by decide)).trans
      (if_neg (Package.noMeter_of_ne _ (by decide))))

/-! ### An application core -/

/-- A write by a core that runs to an aligned register of block space. -/
theorem State.coreRegisterWrite_of_running {s : State} {l : LaneId} {c p addr : Nat} (hrun : (s.lane l).running c = some p)
    (ha : addr % 4 = 0) (hb : inBlocks addr = true) (v : Word) :
    s.registerWrite l (.core c) addr v =
      (s.coreBlockWrite l p c addr v).getD (s.programFault l p c ((s.lane l).core c).pc ((s.lane l).core c).insnWord) := by
  have hgo : ¬ (decide (addr % 4 ≠ 0) || !inBlocks addr) = true := by simp [ha, hb]
  simp only [State.registerWrite, State.coreRegisterWrite, hrun, if_neg hgo]
  cases s.coreBlockWrite l p c addr v <;> rfl

theorem State.coreRegisterWrite_of_refused {s : State} {l : LaneId} {c p addr : Nat} (hrun : (s.lane l).running c = some p)
    (h : addr % 4 ≠ 0 ∨ inBlocks addr = false) (v : Word) :
    s.registerWrite l (.core c) addr v = s.selvedge l p c 1 addr := by
  have hno : (decide (addr % 4 ≠ 0) || !inBlocks addr) = true := by simpa using h
  simp only [State.registerWrite, State.coreRegisterWrite, hrun, if_pos hno]

theorem Snap.sight_pick (v : Snap) (p off : Nat) : v.sight p 1 off = .seen := by
  unfold Snap.sight
  split <;> rfl

theorem State.coreBlockWrite_pickReq (s : State) (l : LaneId) (p c : Nat) :
    s.coreBlockWrite l p c 0x40010000 1#32 = some (s.askPick l c) := by
  have hblock : blockOf_ 0x40010000 = 1 := by decide
  have hoff : offsetOf 0x40010000 = 0 := by decide
  have hmbx : mbxReqAt 1 0 = none := by decide
  have hbit : bitOf 1#32 0 = true := by decide
  simp [State.coreBlockWrite, hblock, hoff, hmbx, hbit, Package.noMeter, Snap.sight_pick]

theorem pickReqCompletes : Claims.PickReqCompletes := by
  intro s l c p hrun k
  have hexec : exec (.pickReq l c) s = .next (s.askPick l c) := by
    refine congrArg Host.Outcome.next ?_
    rw [State.coreRegisterWrite_of_running hrun (by decide) (by decide), State.coreBlockWrite_pickReq, Option.getD_some]
  have hlane : ∀ m, (s.askPick l c).lane m = (s.onLane l (fun x => x.onCore c (fun k =>
      { k with count := ((s.lane l).core c).count + 1, run := .asking }))).lane m := fun m => by
    rw [State.askPick, State.requestPick, State.lane_onPkg]
  refine ⟨_, hexec, ?_, ?_, fun d hd => ?_, ?_, ?_, ?_⟩
  · simp [State.askPick, State.requestPick, k]
  · rw [hlane, State.core_onCore]
  · rw [hlane, State.lane_onLane, Lane.core_onCore_other _ _ hd]
  · rw [hlane, State.lane_onLane]; rfl
  · rw [hlane, State.lane_onLane]; rfl
  · rw [hlane, State.lane_onLane_other]

/-- Settles O26: each write goes through the reader's own path to its register (R42, R50, R427, R434, R501, R507). -/
theorem registerWritesComplete : Obligations.RegisterWritesComplete := by
  refine ⟨fltAckCompletes, recoverCompletes, recCtlCompletes, pickReqCompletes, fun s l v hm => ⟨fun addr ha hb => ⟨?_, ?_⟩,
    fun c p hrun => ⟨fun addr h => ?_, fun addr t ha hb ht => ?_, fun addr ha hb ht => ?_⟩⟩⟩
  · exact congrArg Host.Outcome.next (State.registerWrite_manager v hm ha hb)
  · exact congrArg Host.Outcome.next (State.registerWrite_service v hm ha hb)
  · exact congrArg Host.Outcome.next (State.coreRegisterWrite_of_refused hrun h v)
  · exact congrArg Host.Outcome.next ((State.coreRegisterWrite_of_running hrun ha hb v).trans (by rw [ht, Option.getD_some]))
  · exact congrArg Host.Outcome.next ((State.coreRegisterWrite_of_running hrun ha hb v).trans (by rw [ht, Option.getD_none]))

end Sys2Proof.Machine
end

section
/-! SUPPORT. What setting a collector bit leaves of a lane: everything beside the collector and the event that enters (R482 to R488). -/

namespace Sys2Proof.Machine

/-- A lane without its collector and without what the entry of an event moves. -/
def Lane.beyondEvents (x : Lane) : Lane :=
  { x with blk := { x.blk with flt := {}, pick := {} }, man := { x.man with seqNext := [] }, arrivals := 0, held := [], open_ := [],
           openBytes := 0 }

@[simp] theorem Lane.beyondEvents_onFlt (x : Lane) (f : FltBlk → FltBlk) : (x.onFlt f).beyondEvents = x.beyondEvents := rfl

@[simp] theorem Lane.beyondEvents_takeEvent (x : Lane) (e : Event) : (x.takeEvent e).beyondEvents = x.beyondEvents := by
  unfold Lane.takeEvent
  split <;> rfl

@[simp] theorem Lane.beyondEvents_enter (x : Lane) (l : LaneId) (kind stream part : Nat) (body : EventBody) :
    (x.enter l kind stream part body).beyondEvents = x.beyondEvents := by
  unfold Lane.enter
  dsimp only
  rw [Lane.beyondEvents_takeEvent]
  split <;> rfl

@[simp] theorem Lane.beyondEvents_setBit (x : Lane) (l : LaneId) (b : Nat) (lasting : Bool) :
    (x.setBit l b lasting).beyondEvents = x.beyondEvents := by
  have hcause : (if lasting then x.onFlt (fun f => { f with cause := insSorted b f.cause }) else x).beyondEvents = x.beyondEvents := by
    split <;> rfl
  unfold Lane.setBit
  dsimp only
  split
  · exact hcause
  · split
    · exact hcause
    · rw [Lane.beyondEvents_enter]; exact hcause

/-- From `s` to `t` collectors and events may have moved, and nothing else. -/
structure OnlyFlags (s t : State) : Prop where
  lane : ∀ k, (t.lane k).beyondEvents = (s.lane k).beyondEvents
  pkg : t.pkg = s.pkg
  draws : t.draws = s.draws
  pending : t.pending = s.pending

theorem OnlyFlags.refl (s : State) : OnlyFlags s s := ⟨fun _ => rfl, rfl, rfl, rfl⟩

theorem OnlyFlags.trans {s t u : State} (h : OnlyFlags s t) (k : OnlyFlags t u) : OnlyFlags s u :=
  ⟨fun l => (k.lane l).trans (h.lane l), k.pkg.trans h.pkg, k.draws.trans h.draws, k.pending.trans h.pending⟩

theorem LaneId.eq_other {k l : LaneId} (h : k ≠ l) : k = l.other := by
  cases k <;> cases l <;> simp_all [LaneId.other]

theorem OnlyFlags.onLane (s : State) (l : LaneId) {f : Lane → Lane} (hf : (f (s.lane l)).beyondEvents = (s.lane l).beyondEvents) :
    OnlyFlags s (s.onLane l f) := by
  refine ⟨fun k => ?_, by simp, by simp, by simp⟩
  by_cases h : k = l
  · subst h; rwa [State.lane_onLane]
  · rw [LaneId.eq_other h, State.lane_onLane_other]

theorem State.flag_onlyFlags (s : State) (l : LaneId) (b : Nat) (lasting : Bool) : OnlyFlags s (s.flag l b lasting) :=
  .onLane s l (by split <;> simp)

theorem State.flagBoth_onlyFlags (s : State) (b : Nat) (lasting : Bool) : OnlyFlags s (s.flagBoth b lasting) :=
  (s.flag_onlyFlags .a b lasting).trans (State.flag_onlyFlags _ .b b lasting)

/-- What reads nothing of the collector or the events of a lane reads the same. -/
theorem OnlyFlags.keeps {s t : State} (h : OnlyFlags s t) {β : Type} {p : Lane → β} (hp : ∀ x : Lane, p x.beyondEvents = p x) (k : LaneId) :
    p (t.lane k) = p (s.lane k) := by
  rw [← hp, h.lane, hp]

end Sys2Proof.Machine
end

section
/-! SUPPORT. The calendar, its posted writes, the keys' events, and pick requests. -/

namespace Sys2Proof.Machine

/-! ### Posted writes (R438, R463, R467, R469) -/

theorem State.postWrite_of_busy {s : State} {p : Post} (hcore : p.core = false)
    (h : s.pkg.dom.t3Lost = true ∨ s.pkg.dom.isBusy p.lane p.reg = true) :
    s.postWrite p false = s.onLane p.lane (fun x => x.setRtcWres p.reg 1) := by
  obtain h | h := h
  · simp [State.postWrite, h, Lane.postWres, hcore]
  · simp [State.postWrite, h, Lane.postWres, hcore]

theorem State.postWrite_of_free {s : State} {p : Post} (hcore : p.core = false) (ht : s.pkg.dom.t3Lost = false)
    (hb : s.pkg.dom.isBusy p.lane p.reg = false) (wait : Bool) :
    s.postWrite p wait = (s.onDom (fun d => { d with busy := d.busy ++ [p] })).onLane p.lane (fun x => x.setRtcWres p.reg 0) := by
  simp [State.postWrite, ht, hb, Lane.postWres, hcore]

/-- POSTED_WRITE of a register other than SET_GO posts the value, but for a TRIM of -512. -/
theorem State.postedWrite_posts {s : State} {r : PwReg} {v : Word} (l : LaneId) (hr : pwOk r = true) (hset : r ≠ .setGo)
    (htrim : r ≠ .trim ∨ field v 9 0 ≠ 512) :
    s.postedWrite l r v = s.postWrite { lane := l, reg := r, words := [v] } false := by
  unfold State.postedWrite
  rw [if_neg (by simp [hr])]
  cases r with
  | setGo => exact absurd rfl hset
  | trim => exact if_neg (htrim.resolve_left (not_not_intro rfl))
  | chg => rfl
  | alm n => rfl
  | almCtl n => rfl

theorem postedWritesAreQueued : Claims.PostedWritesAreQueued := by
  intro s l r v hr hset p
  refine ⟨fun htrim => ⟨fun hbusy => ?_, fun ht hb => ?_⟩, fun hrt hv => ?_⟩
  · exact congrArg Host.Outcome.next ((State.postedWrite_posts l hr hset htrim).trans (State.postWrite_of_busy rfl hbusy))
  · exact congrArg Host.Outcome.next ((State.postedWrite_posts l hr hset htrim).trans (State.postWrite_of_free rfl ht hb false))
  · subst hrt
    exact congrArg Host.Outcome.next (if_pos hv)

theorem setGoPostsTheDate : Claims.SetGoPostsTheDate := by
  intro s l v x p
  have hposts : bitOf v 0 = true → dateOk (setDate x.rtcSet0 x.rtcSet1) = true → s.setGo l v = s.postWrite p false := fun hv hd => by
    simp only [State.setGo, hv, Bool.not_true, Bool.false_eq_true, if_false]
    exact if_pos hd
  refine ⟨fun hv hd => ⟨fun ht hb => ?_, fun hbusy => ?_⟩, fun hv hd => ?_, fun hv => ?_⟩
  · exact congrArg Host.Outcome.next ((hposts hv hd).trans (State.postWrite_of_free rfl ht hb false))
  · exact congrArg Host.Outcome.next ((hposts hv hd).trans (State.postWrite_of_busy rfl hbusy))
  · refine congrArg Host.Outcome.next ?_
    simp only [State.setGo, hv, Bool.not_true, Bool.false_eq_true, if_false]
    exact if_neg (Bool.eq_false_iff.mp hd)
  · exact congrArg Host.Outcome.next (if_pos (by simp [hv]))

/-! #### The domain takes a value -/

/-- What the taking of a posted value asks of a state: the package, and the commands of a lane that wait for their turn. -/
def State.postView (s : State) (k : LaneId) : Package × List Post := (s.pkg, (s.lane k).rtcPosts)

theorem State.postView_onLane (s : State) (l : LaneId) {f : Lane → Lane} (hf : ∀ x, (f x).rtcPosts = x.rtcPosts) (k : LaneId) :
    (s.onLane l f).postView k = s.postView k := by
  cases l <;> cases k <;> simp [State.postView, State.lane, State.onLane, State.setLane, hf]

theorem State.postView_flag (s : State) (l : LaneId) (b : Nat) (lasting : Bool) (k : LaneId) :
    (s.flag l b lasting).postView k = s.postView k := by
  have hflags := s.flag_onlyFlags l b lasting
  exact Prod.ext hflags.pkg (hflags.keeps (p := fun x => x.rtcPosts) (fun _ => rfl) k)

theorem State.postView_startWaiting (s : State) (l k : LaneId) : (s.startWaiting l).postView k = s.postView k := by
  refine foldl_keeps (p := fun t : State => t.postView k) (fun t p => ?_) _ _
  dsimp only
  split
  · rfl
  · split
    · exact (State.postView_flag ..).trans (State.postView_onLane t l (by intros; rfl) k)
    · exact State.postView_onLane t l (by intros; rfl) k

theorem State.eachLane_keeps {β : Type} {q : State → β} {f : LaneId → State → State} (hf : ∀ l t, q (f l t) = q t) (s : State)
    (p : Lane → Bool) : q (s.eachLane p f) = q s := by
  unfold State.eachLane
  dsimp only
  split <;> split <;> simp [hf]

theorem Lane.rtcPosts_anchorLoops (x : Lane) : x.anchorLoops.rtcPosts = x.rtcPosts := rfl

theorem Lane.rtcPosts_onFlash (x : Lane) (f : Flash → Flash) : (x.onFlash f).rtcPosts = x.rtcPosts := rfl

theorem Lane.rtcPosts_startFlash (x : Lane) (j : FlashJob) (now : Nat) : (x.startFlash j now).rtcPosts = x.rtcPosts := by
  unfold Lane.startFlash
  split <;> rfl

/-- A value of the active lane has its effect on the domain; no other has one. -/
theorem State.postView_applyPost (s : State) (p : Post) (k : LaneId) : (s.applyPost p).postView k =
    (if s.active = some p.lane then { s.pkg with dom := postEffect s.pkg.dom p } else s.pkg, (s.lane k).rtcPosts) := by
  unfold State.applyPost
  dsimp only
  by_cases h : s.active = some p.lane
  · simp only [ne_eq, h, not_true_eq_false, if_false, if_true]
    cases hr : p.reg with
    | setGo =>
      refine (State.eachLane_keeps (q := fun t : State => t.postView k) (fun l t => State.postView_startWaiting t l k) _ _).trans ?_
      cases k <;> simp [State.postView, State.lane, postEffect, hr, Lane.rtcPosts_anchorLoops]
    | trim | chg | alm n | almCtl n => cases k <;> simp [State.postView, State.lane, postEffect, hr]
  · simp only [ne_eq, h, not_false_eq_true, if_true, if_false]
    rfl

theorem State.postView_keepAlarms (s : State) (r : PwReg) (k : LaneId) : (s.keepAlarms r).postView k = s.postView k := by
  cases r <;> cases k <;> simp [State.keepAlarms, State.postView, State.lane, Lane.rtcPosts_startFlash, Lane.rtcPosts_onFlash]

theorem State.nextRtcPost_of_nil {s : State} {l : LaneId} (h : (s.lane l).rtcPosts = []) (r : PwReg) : s.nextRtcPost l r = s := by
  simp [State.nextRtcPost, h]

theorem postedWritesAreTaken : Claims.PostedWritesAreTaken := by
  intro s l r p ht hfind hhdr hnone d
  have hlane : p.lane = l := by
    have := List.find?_some hfind
    simp only [Bool.and_eq_true, decide_eq_true_eq] at this
    exact this.1
  let s1 := s.onDom (fun d => { d with busy := d.busy.erase p })
  let s3 := if s.active = some l then (s1.applyPost p).keepAlarms r else s1.applyPost p
  have hview : s3.postView l = (s1.applyPost p).postView l := by
    simp only [s3]
    split
    · exact State.postView_keepAlarms ..
    · rfl
  rw [State.postView_applyPost] at hview
  obtain ⟨hpkg, hposts⟩ := Prod.mk.inj hview
  have hexec : exec (.postedWriteTaken l r) s = .next s3 := by
    refine congrArg Host.Outcome.next ?_
    have hnil : (s3.lane l).rtcPosts = [] := by rw [hposts]; simpa [s1] using hnone
    simp only [State.postTaken, ht, Bool.false_eq_true, if_false, hfind, hhdr]
    exact State.nextRtcPost_of_nil hnil r
  refine ⟨s3, hexec, ?_⟩
  have hactive : s1.active = s.active := rfl
  rw [hpkg, hactive, hlane]
  split <;> rfl

/-- Settles O27: a posted value waits in the domain's list until the domain takes it, and the active lane's alone has its effect (R438,
R463, R467, R469). -/
theorem postedWritesAreTakenFromTheActiveLane : Obligations.PostedWritesAreTakenFromTheActiveLane :=
  ⟨postedWritesAreQueued, postedWritesAreTaken, setGoPostsTheDate⟩

end Sys2Proof.Machine
end

section
/-! SUPPORT. The calendar's own events, the events of the keys, and pick requests (R53 to R57, R460 to R479, R516, R525, R536). -/

namespace Sys2Proof.Machine

/-! ### Pulses of the calendar -/

/-- Marked or unmarked as having wrapped. -/
def Domain.marked (d : Domain) (w : Bool) : Domain := { d with epochWrap := w }

theorem Domain.pulse_marked (d : Domain) (w : Bool) :
    (d.marked w).pulse = (d.marked false).pulse.marked (w || (d.marked false).pulse.epochWrap) := rfl

/-- The mark takes no part in the pulses, and stays. -/
theorem Domain.pulses_marked (n : Nat) (d : Domain) (w : Bool) : Domain.pulses n (d.marked w) =
    (Domain.pulses n (d.marked false)).marked (w || (Domain.pulses n (d.marked false)).epochWrap) := by
  induction n generalizing d w with
  | zero => simp [Domain.pulses, Domain.marked]
  | succ n ih =>
    have hfalse := ih (d.marked false).pulse (d.marked false).pulse.epochWrap
    have hsame : (d.marked false).pulse.marked (d.marked false).pulse.epochWrap = (d.marked false).pulse := rfl
    rw [hsame] at hfalse
    rw [Domain.pulses, Domain.pulse_marked, ih, Domain.pulses, hfalse]
    simp [Domain.marked, Bool.or_assoc]

/-- With the rate trim at 0 a pulse is one count. -/
theorem Domain.pulse_untrimmed {d : Domain} (ht : d.trim = 0) (hn : d.trimNow = 0) :
    d.pulse.cal = (d.cal.advance 1).1 ∧ d.pulse.trim = 0 ∧ d.pulse.trimNow = 0 := by
  simp [Domain.pulse, ht, hn]

/-- The date after a second has ended. -/
def nextSecond (d : DateTime) : DateTime := (dtNext d).getD calendarStart.date

theorem Calendar.advance_one {c : Calendar} (h : c.sub < 32768) :
    (c.advance 1).1 = if c.sub + 1 < 32768 then ⟨c.date, c.sub + 1⟩ else ⟨nextSecond c.date, 0⟩ := by
  unfold Calendar.advance nextSecond
  split
  · rfl
  · have hsub : c.sub = 32767 := by omega
    cases dtNext c.date <;> simp [hsub, calendarStart]

/-- Fewer pulses than a second has, with the rate trim at 0. -/
theorem Domain.pulses_untrimmed (n : Nat) : ∀ {d : Domain}, d.trim = 0 → d.trimNow = 0 → d.cal.sub < 32768 → n ≤ 32768 →
    (Domain.pulses n d).cal = if d.cal.sub + n < 32768 then ⟨d.cal.date, d.cal.sub + n⟩
      else ⟨nextSecond d.cal.date, d.cal.sub + n - 32768⟩ := by
  induction n with
  | zero => intro d _ _ hs _; simp [Domain.pulses, hs]
  | succ n ih =>
    intro d ht hn hs hle
    obtain ⟨hcal, ht', hn'⟩ := Domain.pulse_untrimmed ht hn
    rw [Calendar.advance_one hs] at hcal
    have hs' : d.pulse.cal.sub < 32768 := by
      rw [hcal]
      split
      · assumption
      · exact Nat.zero_lt_succ _
    rw [Domain.pulses, ih ht' hn' hs' (by omega), hcal]
    by_cases hend : d.cal.sub + 1 < 32768
    · simp only [hend, if_true, Nat.add_assoc, Nat.add_comm 1 n]
    · have hsub : d.cal.sub = 32767 := by omega
      simp only [hend, if_false, Nat.zero_add]
      rw [if_pos (by omega), if_neg (by omega)]
      simp [hsub]; omega

/-! ### RTC_TICK -/

theorem Mbx.tick_eq (b : Mbx) (ws : List Word) :
    b.tick ws = if b.frozen.isSome then b else { b with valid := true, data := ws, capture := none } := rfl

theorem Lane.mailbox_onMbx_other (x : Lane) {m m' : MbxId} {r r' : Reader} (f : Mbx → Mbx) (h : mbxKey m' r' ≠ mbxKey m r) :
    (x.onMbx m r f).mailbox m' r' = x.mailbox m' r' :=
  tget_tmod_other _ f h

/-- A tick gives the calendar to the mailbox copies of the lane manager and of the service port. -/
theorem Lane.mailbox_tick (x : Lane) (ws : List Word) {r : Reader} (hr : r = .manager ∨ r = .service) :
    (x.tick ws).mailbox .rtcTime r = (x.mailbox .rtcTime r).tick ws := by
  obtain rfl | rfl := hr
  · rw [Lane.tick, Lane.mailbox_onMbx_other _ _ (by decide), Lane.mailbox_onMbx]
  · rw [Lane.tick, Lane.mailbox_onMbx, Lane.mailbox_onMbx_other _ _ (by decide)]

/-- The domain after a tick. -/
theorem State.rtcTick_pulses {s : State} (ht : s.pkg.dom.t3Lost = false) :
    s.rtcTick.pkg.dom = Domain.pulses 32 s.pkg.dom ∧
    ∀ l, ∃ x : Lane, s.rtcTick.lane l = x.tick (Domain.pulses 32 s.pkg.dom).timeWords ∧ x.mbx = (s.lane l).mbx := by
  have hdom : ({ Domain.pulses 32 (s.pkg.dom.marked false) with
      epochWrap := s.pkg.dom.epochWrap || (Domain.pulses 32 (s.pkg.dom.marked false)).epochWrap } : Domain) =
        Domain.pulses 32 s.pkg.dom :=
    (Domain.pulses_marked 32 s.pkg.dom s.pkg.dom.epochWrap).symm
  let s1 := s.onDom (fun _ => Domain.pulses 32 s.pkg.dom)
  let s2 := if (Domain.pulses 32 (s.pkg.dom.marked false)).epochWrap then s1.flagBoth 2091 false else s1
  have hflags : OnlyFlags s1 s2 := by
    simp only [s2]
    split
    · exact State.flagBoth_onlyFlags ..
    · exact .refl _
  have hs2dom : s2.pkg.dom = Domain.pulses 32 s.pkg.dom := by rw [hflags.pkg]; rfl
  have htick : s.rtcTick = { s2 with a := s2.a.tick s2.pkg.dom.timeWords, b := s2.b.tick s2.pkg.dom.timeWords } := by
    unfold State.rtcTick
    rw [if_neg (by simp [ht])]
    simp only [s2, s1, ← hdom]
    rfl
  rw [htick]
  refine ⟨hs2dom, fun l => ⟨s2.lane l, ?_, ?_⟩⟩
  · rw [← hs2dom]
    cases l <;> rfl
  · exact (hflags.keeps (p := fun x => x.mbx) (fun _ => rfl) l).trans (by rw [State.lane_onDom])

theorem ticksAdvanceTheCalendar : Claims.TicksAdvanceTheCalendar := by
  intro s
  refine ⟨fun ht => congrArg Host.Outcome.next (if_pos ht), fun ht => ⟨_, rfl, ?_⟩⟩
  obtain ⟨hdom, hlanes⟩ := State.rtcTick_pulses ht
  rw [hdom]
  refine ⟨rfl, rfl, fun htrim hnow hsub => ?_, fun l r hr => ?_⟩
  · rw [Domain.pulses_untrimmed 32 htrim hnow hsub (by omega)]
    split
    · exact ⟨by simp only; omega, rfl⟩
    · exact ⟨by simp only; omega, rfl⟩
  · obtain ⟨x, hx, hmbx⟩ := hlanes l
    have hsame : x.mailbox .rtcTime r = (s.lane l).mailbox .rtcTime r := by rw [Lane.mailbox, Lane.mailbox, hmbx]
    rw [hx, Lane.mailbox_tick x _ hr, hsame, Mbx.tick_eq]

/-- Settles O28: the ticks, and the rows of the calendar's own events (R31, R33, R460, R470 to R477). -/
theorem calendarEventsComplete : Obligations.CalendarEventsComplete := by
  refine ⟨ticksAdvanceTheCalendar, fun s => ⟨fun n hn hdue ht => ?_, fun hnone ht => ?_, fun mv hmv => ?_, fun mv hmv => ?_,
    fun ht => ?_, fun ht => ?_⟩⟩
  · exact congrArg Host.Outcome.next (if_pos (by simp [hn, hdue, ht]))
  · exact congrArg Host.Outcome.next (if_pos (by simp [hnone, ht]))
  · exact congrArg Host.Outcome.next (if_pos hmv)
  · exact congrArg Host.Outcome.next (if_neg (by omega))
  · exact congrArg Host.Outcome.next (if_pos ht)
  · exact congrArg Host.Outcome.next (if_pos ht)

/-! ### Keys -/

theorem Lane.slot_onSlot_other (x : Lane) {n m : Nat} (f : Slot → Slot) (h : m ≠ n) : (x.onSlot n f).slot m = x.slot m :=
  tget_tmod_other _ f h

/-- Every slot of a lane is cleared. -/
theorem Lane.clearSlots_slot (x : Lane) {n : Nat} (hn : n < 64) : (x.clearSlots.slot n).key = none := by
  have hstays : ∀ (ns : List Nat) (y : Lane), (n ∈ ns ∨ (y.slot n).key = none) →
      ((ns.foldl (fun (y : Lane) n => y.onSlot n (fun k => { k with key := none, loadGen := k.loadGen + 1 })) y).slot n).key = none := by
    intro ns
    induction ns with
    | nil => intro y h; simpa using h
    | cons m ns ih =>
      intro y h
      refine ih _ ?_
      by_cases hm : n = m
      · subst hm; exact .inr (by simp)
      · refine h.imp (fun hmem => by simpa [hm] using hmem) (fun hy => ?_)
        rwa [Lane.slot_onSlot_other _ _ hm]
  exact hstays _ x (.inl (List.mem_range.mpr hn))

theorem Domain.kekValue_remasked (d : Domain) (mask : BitVec 256) (b : Nat) :
    ({ d with kek := d.kek.map (fun q => (q.1 ^^^ mask, q.2 ^^^ mask)), bank := b } : Domain).kekValue = d.kekValue := by
  cases h : d.kek with
  | none => simp [Domain.kekValue, h]
  | some q =>
    simp only [Domain.kekValue, h, Option.map_some, Option.some.injEq]
    rw [BitVec.xor_comm q.2 mask, BitVec.xor_assoc, ← BitVec.xor_assoc mask mask]
    simp

/-- Settles O30: what each event of the keys makes of the KEK and of the slots (R479, R515, R516, R525, R536, Table 16-1; the clearing of
the slots is log entry 84). -/
theorem keyEventsComplete : Obligations.KeyEventsComplete := by
  intro s
  refine ⟨fun mask => ⟨_, rfl, Domain.kekValue_remasked .., rfl, rfl, rfl, rfl, rfl⟩, ⟨_, rfl, rfl, rfl, rfl, fun l n hn => ?_⟩,
    fun src harmed => ?_, fun src hunarmed => ?_, fun hlife => ?_, rfl⟩
  · cases l <;> exact Lane.clearSlots_slot _ hn
  · have hflags := State.flagBoth_onlyFlags ((s.driveTamper (sourceBit src)).onDom (fun d => { d with
      tripped := if d.tripped.contains src then d.tripped else d.tripped ++ [src] })) 2086 false
    refine ⟨_, congrArg Host.Outcome.next (if_pos harmed), ?_, ?_, fun l n hn => ?_, ?_⟩
    · rw [hflags.pkg]; rfl
    · rw [hflags.pkg]; rfl
    · rw [hflags.keeps (p := fun x => (x.slot n).key) (fun _ => rfl) l, State.lane_onDom]
      cases l <;> exact Lane.clearSlots_slot _ hn
    · rw [hflags.pkg]
      simp only [State.onDom_fields]
      split
      next hmem => exact List.contains_iff_mem.mp hmem
      next => simp
  · exact congrArg Host.Outcome.next (if_neg (by simp [hunarmed]))
  · exact congrArg Host.Outcome.next (if_pos (by simpa using hlife))

/-! ### Pick requests -/

/-- Settles O31: the oldest request gets the ticket of its first copy, or the number of the open epoch (R53 to R57). -/
theorem pickRequestsGetTheOpenEpoch : Obligations.PickRequestsGetTheOpenEpoch := by
  intro s l r rest hactive hreqs s0
  refine ⟨fun a ha => ?_, fun hnone => ?_⟩
  · exact congrArg Host.Outcome.next (by simp only [State.pickRequestAccept, hactive, hreqs, ha, s0])
  · exact congrArg Host.Outcome.next (by simp only [State.pickRequestAccept, hactive, hreqs, hnone, s0])

end Sys2Proof.Machine
end

section
/-! SUPPORT. The rows of the epochs (R51, R63, R70 to R73, R88). -/

namespace Sys2Proof.Machine

@[simp] theorem State.activeLane_at (s : State) (n : Nat) : (s.at_ n).activeLane = s.activeLane := rfl

@[simp] theorem State.solo_at (s : State) (n : Nat) (l : LaneId) : (s.at_ n).solo l = s.solo l := by
  rw [State.solo, State.solo, State.lane_at]

@[simp] theorem State.beat_at (s : State) (n : Nat) : (s.at_ n).pkg.beat = max s.pkg.beat n := rfl

theorem State.closeReceived_of_open {s : State} {l : LaneId} {i : CloseInfo} (hfind : (s.lane l).inbox.findSome? closeOf = some i)
    (hrel : (s.lane l).releases = true) (hopen : i.n = (s.lane l).blk.pick.opened) :
    s.closeReceived l = ((s.onLane l (fun y => { y with inbox := y.inbox.erase (.close i) })).onLane l
      (fun y => y.closeEpoch l i s.pkg.beat)).afterClose l i.n := by
  simp only [State.closeReceived, hfind, hrel, hopen, decide_true, Bool.and_self, if_true]

theorem State.epochExchange_of_closed {s : State} {l : LaneId} {n : Word} {es : List Event}
    (hfind : (s.lane l).inbox.findSome? epochOf = some (n, es)) (hclosed : (s.lane l).closed.any (fun c => c.info.n = n) = true) :
    s.epochExchange l = s.onLane l (fun y => { y with
      inbox := y.inbox.erase (.epoch n es)
      closed := y.closed.map (fun c => if c.info.n = n then { c with theirs := some es } else c) }) := by
  simp only [State.epochExchange, hfind, hclosed, if_true]

theorem State.epochRelease_of_agreed {s : State} {l : LaneId} {c : ClosedEpoch} {r : List ClosedEpoch} {es : List Event}
    (hclosed : (s.lane l).closed = c :: r) (htheirs : c.theirs = some es) (hrel : (s.lane l).releases = true)
    (hmeets : (s.lane l).meetsClose c.info = true) : s.epochRelease l = s.release l c (some es) := by
  simp only [State.epochRelease, hclosed, htheirs, hrel, hmeets, Bool.and_self, if_true]

theorem State.soloRelease_of_alone {s : State} {l : LaneId} {c : ClosedEpoch} {r : List ClosedEpoch}
    (hclosed : (s.lane l).closed = c :: r) (htheirs : c.theirs = none) (hrel : (s.lane l).releases = true) (hsolo : s.solo l = true)
    (hmeets : (s.lane l).meetsClose c.info = true) : s.soloRelease l = s.release l c none := by
  simp only [State.soloRelease, hclosed, htheirs, hrel, hsolo, hmeets, Option.isNone_none, Bool.and_self, if_true]

theorem State.agreementTimeout_of_late {s : State} {l : LaneId} {c : ClosedEpoch} {r : List ClosedEpoch}
    (hclosed : (s.lane l).closed = c :: r) (htheirs : c.theirs = none) (ha : s.a.inService = true) (hb : s.b.inService = true)
    (hfa : s.a.faultLine = false) (hfb : s.b.faultLine = false) (hlate : c.info.beat + 120000 ≤ s.pkg.beat) :
    s.agreementTimeout l = s.raise s.activeLane.other 162 true := by
  simp [State.agreementTimeout, hclosed, htheirs, ha, hb, hfa, hfb, hlate]

theorem State.executivePick_of_due {s : State} {l : LaneId} (hrel : (s.lane l).releases = true) (hidle : s.idleExecutive l = true)
    (hdue : ((s.lane l).part 0).startBeat + 100000 ≤ s.pkg.beat) :
    s.executivePick l = ((s.onLane l (fun x => x.onPart 0 (fun k => { k with execCount := k.execCount + 1, startBeat := s.pkg.beat }))).requestPick
      l (.executive 0) (((s.lane l).part 0).execCount + 1)).p0Start l (((s.lane l).part 0).execCount + 1) := by
  simp only [State.executivePick, hrel, hidle, hdue, decide_true, Bool.and_self, if_true]

/-- Settles O33: each row in the case that its clause names (R51, R63, R70 to R73, R88). -/
theorem epochRowsComplete : Obligations.EpochRowsComplete := by
  intro s l beat
  refine ⟨fun i hfind hrel hopen => ?_, fun n es hfind hclosed => ?_, fun c r es hclosed htheirs hrel hmeets => ?_,
    fun c r hclosed htheirs hrel hsolo hmeets => ?_, fun c r hclosed htheirs ha hb hfa hfb hlate => ?_, fun hrel hidle hdue => ?_⟩
  · exact congrArg Host.Outcome.next (State.closeReceived_of_open hfind hrel hopen)
  · exact congrArg Host.Outcome.next (State.epochExchange_of_closed hfind hclosed)
  · exact congrArg Host.Outcome.next (State.epochRelease_of_agreed (by simpa using hclosed) htheirs (by simpa using hrel)
      (by simpa using hmeets))
  · exact congrArg Host.Outcome.next (State.soloRelease_of_alone (by simpa using hclosed) htheirs (by simpa using hrel)
      (by simpa using hsolo) (by simpa using hmeets))
  · exact congrArg Host.Outcome.next (State.agreementTimeout_of_late (by simpa using hclosed) htheirs ha hb hfa hfb hlate)
  · refine congrArg Host.Outcome.next ((State.executivePick_of_due (by simpa using hrel) hidle (by simpa using hdue)).trans ?_)
    rw [State.lane_at]
    rfl

end Sys2Proof.Machine
end

section
/-! SUPPORT. Readiness, the joint start, and the rows of a cycle (R88 to R91, R134, R142, R143, R163, Table 04-4). -/

namespace Sys2Proof.Machine

/-! ### Readiness -/

@[simp] theorem stampOf_eq (n : Nat) : stampOf n = n / 100 % 4294967296 := rfl

theorem State.ready_of_due {s : State} {l : LaneId} {p now : Nat} {i : Image} (hp : p < 16) (hx : (s.lane l).inService = true)
    (hi : ((s.lane l).part p).current = some i) (hrestart : ((s.lane l).part p).restart = none)
    (hidle : ((s.lane l).part p).phase = .idle)
    (hdue : ((s.lane l).part p).state = .starting ∨
      ((s.lane l).part p).state = .running ∧ ((s.lane l).part p).startBeat + 100 * i.minCycle ≤ now) :
    s.ready l p now =
      let q := (s.lane l).part p
      let started := decide (s.active = some l) && (q.partnerReady (q.cycle + 1) || !(s.lane l.other).inService)
      let info : ReadyInfo := ⟨q.starts, q.cycle + 1, now / 100 % 4294967296, started, q.ownRun, s.snapOf l⟩
      let s2 := s.onLane l (fun y => y.onPart p (fun k => { k with phase := .ready, readyBeat := now, own := some info }))
      (if (s.lane l.other).inService then s2.send l (.ready p info) else s2).jointStart l p := by
  have hcan : ((s.lane l).inService && p < 16 && ((s.lane l).part p).current.isSome && ((s.lane l).part p).restart.isNone &&
      decide (((s.lane l).part p).phase = .idle) && (((s.lane l).part p).state = .starting ||
        (((s.lane l).part p).state = .running && ((s.lane l).part p).startBeat + 100 * i.minCycle ≤ now))) = true := by
    simpa [hp, hx, hi, hrestart, hidle] using hdue
  simp only [hi] at hcan
  simp only [State.ready, hi, hcan, if_true]
  rfl

theorem State.readyReceived_of_next {s : State} {l : LaneId} {p r : Nat} {i : ReadyInfo}
    (hnext : (s.lane l).nextAbout p = some (.ready r i)) (hx : (s.lane l).inService = true) :
    s.readyReceived l p = ((s.onLane l (fun x => { x with inbox := x.inbox.erase (.ready r i) })).onLane l
      (fun x => x.onPart p (fun k => k.takeReady i))).jointStart l p := by
  simp only [State.readyReceived, hnext, hx, if_true]

theorem State.readyLate_of_late {s : State} {l : LaneId} {p now : Nat} (hx : (s.lane l).inService = true)
    (hy : (s.lane l.other).inService = true) (hphase : ((s.lane l).part p).phase = .ready) (htheirs : ((s.lane l).part p).theirs = none)
    (hlate : ((s.lane l).part p).late = none) (hexch : ((s.lane l).part p).exch = none)
    (hdue : ((s.lane l).part p).readyBeat + ((s.lane l).part p).lateLimit < now) :
    s.readyLate l p now = s.onLane l (fun x => x.onPart p (fun k => { k with late := some now })) := by
  simp [State.readyLate, hx, hy, hphase, htheirs, hlate, hexch, hdue]

theorem State.lateWindow_of_ended {s : State} {l : LaneId} {p now t : Nat} (hlate : ((s.lane l).part p).late = some t)
    (hdue : t + msBeats ≤ now) (hy : (s.lane l.other).inService = true) (hline : (s.lane l.other).faultLine = false) :
    s.lateWindow l p now = (s.onLane l (fun x => x.onPart p (fun k => { k with late := none }))).raise l.other 163 true := by
  simp [State.lateWindow, hlate, hdue, hy, hline]

theorem readinessRowsComplete : Claims.ReadinessRowsComplete := by
  intro s l p beat hp hx now q
  refine ⟨fun i hi hrestart hidle hdue => ?_, fun r i hnext => ?_, fun hy hphase htheirs hlate hexch hdue => ?_,
    fun t hlate hdue hy hline => ?_⟩
  · refine congrArg Host.Outcome.next ((State.ready_of_due hp (by simpa using hx) (by simpa using hi) (by simpa using hrestart)
      (by simpa using hidle) (by rw [State.lane_at]; exact hdue)).trans ?_)
    simp only [State.lane_at]
    rfl
  · exact congrArg Host.Outcome.next (State.readyReceived_of_next hnext hx)
  · exact congrArg Host.Outcome.next (State.readyLate_of_late (by simpa using hx) (by simpa using hy) (by simpa using hphase)
      (by simpa using htheirs) (by simpa using hlate) (by simpa using hexch) (by rw [State.lane_at]; exact hdue))
  · exact congrArg Host.Outcome.next (State.lateWindow_of_ended (by simpa using hlate) hdue (by simpa using hy)
      (by simpa using hline))

/-! ### The joint start -/

@[simp] theorem Lane.parts_loadCores (x : Lane) (p : Nat) (rank0 : Mem) (other : Mem → Mem) :
    (x.loadCores p rank0 other).parts = x.parts :=
  foldl_keeps (p := Lane.parts) (by intros; rfl) _ _

@[simp] theorem Lane.parts_mismatchDetails (x : Lane) (p : Nat) (ms : List (Nat × Word × Word)) :
    (x.mismatchDetails p ms).parts = x.parts :=
  foldl_keeps (p := Lane.parts) (by intros; rfl) _ _

@[simp] theorem Lane.parts_dropForces (x : Lane) (p : Nat) (old new : List Symbol) : (x.dropForces p old new).1.parts = x.parts :=
  foldl_keeps (p := Lane.parts) (by intros; rfl) _ _

/-- An installation leaves the count of the executive's requests. -/
theorem Lane.execCount_installDue (x : Lane) (p : Nat) : ((x.installDue p).part p).execCount = (x.part p).execCount := by
  have hinstall : ∀ e, ((x.install p e).part p).execCount = (x.part p).execCount := fun e => by
    rw [Lane.install, Lane.part_onPart]
    simp only [Lane.part, Lane.parts_dropForces, Lane.parts_mismatchDetails, Lane.parts_loadCores]
  unfold Lane.installDue
  dsimp only
  split
  · split
    · exact hinstall _
    · rfl
  · rfl

/-- The READY that a lane starts its cycle on: its own with no partner in service, and of a pair that of the active lane. -/
theorem State.startInfo_of_pair {s : State} {l : LaneId} {p : Nat} {own r : ReadyInfo} (hown : ((s.lane l).part p).own = some own)
    (h : (s.lane l.other).inService = false ∧ r = own ∨ (s.lane l.other).inService = true ∧
      (∃ theirs, ((s.lane l).part p).theirs = some theirs ∧ theirs.cycle = own.cycle ∧ theirs.starts = own.starts ∧
        r = if s.active = some l then own else theirs)) : s.startInfo l p = some r := by
  obtain ⟨hy, rfl⟩ | ⟨hy, theirs, htheirs, hcycle, hstarts, rfl⟩ := h
  · cases ht : ((s.lane l).part p).theirs <;> simp [State.startInfo, hown, ht, hy]
  · simp only [State.startInfo, hown, htheirs, hy, hcycle, hstarts, decide_true, Bool.and_self, Bool.not_true, Bool.false_eq_true,
      if_false, if_true]
    split <;> rfl

theorem State.startInfo_of_noPair {s : State} {l : LaneId} {p : Nat} {own : ReadyInfo} (hown : ((s.lane l).part p).own = some own)
    (hy : (s.lane l.other).inService = true) (h : ((s.lane l).part p).theirs = none ∨
      ∃ theirs, ((s.lane l).part p).theirs = some theirs ∧ (theirs.cycle ≠ own.cycle ∨ theirs.starts ≠ own.starts)) :
    s.startInfo l p = none := by
  obtain ht | ⟨theirs, ht, hne⟩ := h
  · simp [State.startInfo, hown, ht, hy]
  · have hno : ¬ (decide (theirs.cycle = own.cycle) && decide (theirs.starts = own.starts)) = true := by
      simp only [Bool.and_eq_true, decide_eq_true_eq, not_and_or]
      exact hne
    simp only [State.startInfo, hown, ht, hy, Bool.not_true, Bool.false_eq_true, if_false, if_neg hno]

/-- A partition after the start of a cycle that is not its first, on the READY `r`. -/
structure Part.StartedOn (before after : Part) (r : ReadyInfo) (now : Nat) : Prop where
  phase : after.phase = .asked
  state : after.state = .running
  startBeat : after.startBeat = now
  snap : after.snap = some r.snap
  execCount : after.execCount = before.execCount + 1
  lastRun : after.lastRun = r.run

theorem State.part_send (s : State) (l : LaneId) (m : Msg) (p : Nat) : ((s.send l m).lane l).part p = (s.lane l).part p := by
  rw [State.lane_send]
  rfl

theorem State.jointStart_of_info {s : State} {l : LaneId} {p : Nat} {r : ReadyInfo} (hp : p ≠ 0) (hx : (s.lane l).inService = true)
    (hphase : ((s.lane l).part p).phase = .ready) (hstate : ((s.lane l).part p).state = .running) (hinfo : s.startInfo l p = some r) :
    ((((s.lane l).installDue p).part p).StartedOn (((s.jointStart l p).lane l).part p) r s.pkg.beat) ∧
      (s.jointStart l p).pkg.pickReqs = s.pkg.pickReqs ++ [⟨.executive p, ((s.lane l).part p).execCount + 1, l⟩] := by
  have hlater : ((s.lane l).part p).state ≠ .starting := by rw [hstate]; decide
  unfold State.jointStart
  simp only [hx, hphase, hinfo, hlater, hp, decide_true, decide_false, Bool.and_self, Bool.false_eq_true, if_true, if_false]
  split
  all_goals
    refine ⟨?_, by simp [State.requestPick]⟩
    constructor <;>
      simp only [State.part_send, State.requestPick, State.lane_onPkg, State.lane_onLane, Lane.part_onPart, Part.startAt]

theorem jointStartTakesTheActiveLanesReady : Claims.JointStartTakesTheActiveLanesReady := by
  intro s l p own _ hp0 hx q t hphase hown hstate
  refine ⟨fun r hr => ?_, fun hy hno => ?_⟩
  · obtain ⟨⟨h1, h2, h3, h4, h5, h6⟩, hreqs⟩ := State.jointStart_of_info hp0 hx hphase hstate (State.startInfo_of_pair hown hr)
    exact ⟨h1, h2, h3, h4, h5.trans (by rw [Lane.execCount_installDue]), h6, hreqs⟩
  · simp only [t, State.jointStart, hx, State.startInfo_of_noPair hown hy hno, ite_self]

/-! ### The cycle -/

theorem State.coreReturn_of_returned {s : State} {l : LaneId} {c p : Nat} (now : Nat) (hpart : (s.lane l).corePart c = some p)
    (hc : c < 16) (hx : (s.lane l).inService = true) (hrun : ((s.lane l).core c).run = .running)
    (hphase : ((s.lane l).part p).phase = .run) (hpc : ((s.lane l).core c).pc = (Config.execReturn &&& 0xFFFFFFFE#32)) :
    s.coreReturn l c now =
      let s1 := s.onLane l (fun y => y.onCore c (fun r => { r with run := .returned }))
      if ((s.lane l).part p).coreList.all (fun d => decide (d = c) || decide (((s.lane l).core d).run = .returned))
      then s1.commit l p now else s1 := by
  simp only [State.coreReturn, hpart, hc, hx, hrun, hphase, hpc, decide_true, Bool.and_self, if_true]

theorem State.watchdog_of_overrun {s : State} {l : LaneId} {p now : Nat} {i : Image} (hp : p < 16) (hx : (s.lane l).inService = true)
    (hactive : s.active = some l) (hi : ((s.lane l).part p).runImage = some i) (hphase : ((s.lane l).part p).phase = .run)
    (hover : ((s.lane l).part p).coreList.any (fun c => decide (((s.lane l).core c).run ≠ .returned) &&
      decide (100 * i.watchdog ≤ ((s.lane l).part p).used ((s.lane l).core c) now)) = true) :
    s.watchdog p now = if (s.lane l.other).inService
      then (s.overrunIn l p).send l (.overrun p (((s.lane l).part p).cycle + 1)) else s.overrunIn l p := by
  simp only [State.watchdog, hactive, hi, hp, hx, hphase, hover, decide_true, Bool.and_self, if_true]

theorem State.overrunNotice_of_next {s : State} {l : LaneId} {p r : Nat} {n : Nat} (hx : (s.lane l).inService = true)
    (hnext : (s.lane l).nextAbout p = some (.overrun r n)) (hstate : ((s.lane l).part p).state = .running) :
    s.overrunNotice l p = (s.onLane l (fun x => { x with inbox := x.inbox.erase (.overrun r n) })).overrunIn l p := by
  simp only [State.overrunNotice, hnext, hx, hstate, decide_true, Bool.and_self, if_true]

theorem State.partitionStarting_of_ready {s : State} {l : LaneId} {p : Nat} {r : RestartReq} (hp : p < 16)
    (hx : (s.lane l).inService = true) (hrestart : ((s.lane l).part p).restart = some r) (hsafe : ((s.lane l).part p).state ≠ .safe)
    (hphase : ((s.lane l).part p).phase = .idle ∨ ((s.lane l).part p).phase = .ready ∨ ((s.lane l).part p).state ≠ .running) :
    s.partitionStarting l p = (s.abortExchangeIn l p .exchangeAborted).onLane l (fun y => y.startPart l p r
      (match ((s.lane l).part p).boot with | some b => some b | none => s.restoredPart p)) := by
  have hcan : (decide (p < 16) && (s.lane l).inService && decide (((s.lane l).part p).state ≠ .safe) &&
      (decide (((s.lane l).part p).phase = .idle) || decide (((s.lane l).part p).phase = .ready) ||
        decide (((s.lane l).part p).state ≠ .running))) = true := by
    simpa [hp, hx, hsafe, or_assoc] using hphase
  simp only [State.partitionStarting, hrestart, hcan, if_true] <;> rfl

/-- What step 4 of Table 04-4 and the entry of the cores leave of a partition. -/
def Part.settled (q : Part) : Part := { q with timerEvents := [], inputs := [], shared := [], overlay := [] }

theorem Lane.settled_onPart (x : Lane) (p : Nat) {f : Part → Part} (hf : ∀ q, (f q).settled = q.settled) :
    ((x.onPart p f).part p).settled = (x.part p).settled := by
  rw [Lane.part_onPart]
  exact hf _

theorem Lane.settled_execWrite (x : Lane) (p : Nat) (sy : Symbol) (bs : List Byte) :
    ((x.execWrite p sy bs).part p).settled = (x.part p).settled := by
  unfold Lane.execWrite
  split_ifs
  · split <;> rfl
  · exact Lane.settled_onPart _ _ fun _ => rfl
  · exact Lane.settled_onPart _ _ fun _ => rfl

theorem Lane.settled_prepare (x : Lane) (p : Nat) : ((x.prepare p).part p).settled = (x.part p).settled := by
  dsimp only [Lane.prepare]
  refine (foldl_keeps (p := fun y : Lane => (y.part p).settled) (fun w (e : Symbol × Force) => Lane.settled_execWrite w p e.1 _) _ _).trans ?_
  refine (Lane.settled_onPart _ _ (by intros; rfl)).trans ?_
  refine foldl_keeps (p := fun y : Lane => (y.part p).settled) (fun z sy => ?_) _ _
  refine (Lane.settled_onPart _ _ (by intro q; split <;> rfl)).trans ?_
  split
  · rfl
  · exact Lane.settled_execWrite ..

theorem Lane.part_enterCores (x : Lane) (p q : Nat) : (x.enterCores p).part q = x.part q :=
  foldl_keeps (p := fun y : Lane => y.part q) (by intros; rfl) _ _

/-- CYCLE_RUN_START of a partition whose pick is released. -/
theorem State.cycleRunStart_starts {s : State} {l : LaneId} {p : Nat} (now : Nat) (hp : p < 16) (hx : (s.lane l).inService = true)
    (hphase : ((s.lane l).part p).phase = .pick) (hreleased : (s.lane l).isReleased ((s.lane l).part p).ticket = true)
    (hstamp : ((s.lane l).part p).stampDue = false ∨ (s.lane l.other).inService = false) :
    ∃ q : Part, ((s.cycleRunStart l p now).lane l |>.part p).settled = q.settled ∧ q.phase = .run ∧ q.runBeat = now ∧
      q.visible = ((s.lane l).part p).ticket ∧ q.cycle = ((s.lane l).part p).cycle := by
  have hgo : (!(((s.lane l).part p).stampDue && (s.lane l.other).inService)) = true := by
    rcases hstamp with h | h <;> simp [h]
  unfold State.cycleRunStart
  simp only [hp, hx, hphase, hreleased, hgo, decide_true, Bool.and_self, if_true, State.lane_onLane, Lane.part_enterCores,
    Lane.settled_prepare, Lane.part_onPart]
  exact ⟨_, rfl, rfl, rfl, rfl, rfl⟩

theorem cycleRowsComplete : Claims.CycleRowsComplete := by
  intro s l p beat hp hx now q
  refine ⟨fun c hpart hc hrun hphase hpc => ?_, fun i hactive hi hphase hover => ?_, fun r n hnext hstate => ?_,
    fun r hrestart hsafe hphase => ?_, fun hphase hreleased hstamp => ?_⟩
  · refine congrArg Host.Outcome.next ((State.coreReturn_of_returned now (by simpa using hpart) hc (by simpa using hx)
      (by simpa using hrun) (by simpa using hphase) (by simpa using hpc)).trans ?_)
    simp only [State.lane_at]
    rfl
  · refine congrArg Host.Outcome.next ((State.watchdog_of_overrun hp (by simpa using hx) (by simpa using hactive) (by simpa using hi)
      (by simpa using hphase) (by rw [State.lane_at]; exact hover)).trans ?_)
    simp only [State.lane_at]
    rfl
  · exact congrArg Host.Outcome.next (State.overrunNotice_of_next hx hnext hstate)
  · exact congrArg Host.Outcome.next (State.partitionStarting_of_ready hp hx hrestart hsafe hphase)
  · obtain ⟨q', hsettled, h1, h2, h3, h4⟩ := State.cycleRunStart_starts (s := s.at_ beat) now hp (by simpa using hx)
      (by simpa using hphase) (by simpa using hreleased) (by simpa using hstamp)
    refine ⟨_, exec_cycleRunStart l p beat s, ?_⟩
    exact ⟨(congrArg Part.phase hsettled).trans h1, (congrArg Part.runBeat hsettled).trans h2,
      (congrArg Part.visible hsettled).trans (h3.trans (by rw [State.lane_at])),
      (congrArg Part.cycle hsettled).trans (h4.trans (by rw [State.lane_at]))⟩

/-- Settles O35: readiness, the joint start and the rows of a cycle, each in the case that its clause names (R88 to R91, R134, R142, R143,
R163). -/
theorem readinessAndCycleRowsComplete : Obligations.ReadinessAndCycleRowsComplete :=
  ⟨readinessRowsComplete, jointStartTakesTheActiveLanesReady, cycleRowsComplete⟩

end Sys2Proof.Machine
end

section
/-! SUPPORT. A program fault puts a partition into SAFE, and an acknowledgement takes it out (R132, R133, R144, R145, R359). -/

namespace Sys2Proof.Machine

/-! ### A command that ends leaves the lane's memories -/

theorem OnlyReplies.refl (l : LaneId) (s : State) : OnlyReplies l s s := ⟨rfl, rfl, rfl, rfl, rfl⟩

theorem OnlyReplies.foldl {l : LaneId} {α : Type} {f : State → α → State} (hf : ∀ t e, OnlyReplies l t (f t e)) (es : List α) (s : State) :
    OnlyReplies l s (es.foldl f s) := by
  induction es generalizing s with
  | nil => exact .refl l s
  | cons e es ih => exact (hf s e).trans (ih _)

theorem State.finish_onlyReplies (s : State) (l : LaneId) (o : Outstanding) (st : Status) (ps : List Byte) :
    OnlyReplies l s (s.finish l o st ps) := by
  unfold State.finish
  dsimp only
  refine OnlyReplies.trans (t := s.setLane l _) ?_ (State.replyWith_onlyReplies ..)
  constructor
  · rw [State.lane_setLane]
    split
    · rw [Lane.stored_notice]; rfl
    · rfl
  all_goals simp

theorem State.finishAll_onlyReplies (s : State) (l : LaneId) (why : Waiting) (st : Status) (ps : List Byte) :
    OnlyReplies l s (s.finishAll l why st ps) :=
  .foldl (fun t o => t.finish_onlyReplies l o st ps) _ _

theorem OnlyReplies.parts {l : LaneId} {s t : State} (h : OnlyReplies l s t) : (t.lane l).parts = (s.lane l).parts :=
  congrArg Prod.fst h.lane

theorem OnlyReplies.cores {l : LaneId} {s t : State} (h : OnlyReplies l s t) : (t.lane l).cores = (s.lane l).cores :=
  congrArg (fun q => q.2.1) h.lane

/-! ### Into SAFE -/

/-- A partition without its exchange and the images that it installs. -/
def Part.beyondExchange (q : Part) : Part := { q with exch := none, loaded := none, current := none }

theorem Lane.beyondExchange_onPart (x : Lane) (p : Nat) {f : Part → Part} (hf : ∀ q, (f q).beyondExchange = q.beyondExchange) :
    ((x.onPart p f).part p).beyondExchange = (x.part p).beyondExchange := by
  rw [Lane.part_onPart, hf]

theorem Lane.beyondExchange_finishExchange (x : Lane) (p : Nat) (e : Exchange) :
    ((x.finishExchange p e).part p).beyondExchange = (x.part p).beyondExchange :=
  Lane.beyondExchange_onPart (f := fun k => { k with exch := none, loaded := none, current := some e.image })
    (x.keepTable p (x.part p).current) p (fun _ => rfl)

/-- An exchange that is aborted leaves the rest of the partition, and the cores. -/
theorem State.abortExchangeIn_keeps (s : State) (l : LaneId) (p : Nat) (st : Status) :
    (((s.abortExchangeIn l p st).lane l).part p).beyondExchange = ((s.lane l).part p).beyondExchange ∧
      ((s.abortExchangeIn l p st).lane l).cores = (s.lane l).cores := by
  unfold State.abortExchangeIn
  split
  · exact ⟨rfl, rfl⟩
  next e _ =>
    have hreply := fun t : State => t.finishAll_onlyReplies l (.exchange p) st []
    have hpart : ∀ t : State, ((t.finishAll l (.exchange p) st []).lane l).part p = (t.lane l).part p := fun t => by
      rw [Lane.part, Lane.part, (hreply t).parts]
    rw [(hreply _).cores, hpart, State.lane_onLane]
    split
    · exact ⟨Lane.beyondExchange_finishExchange .., rfl⟩
    · exact ⟨Lane.beyondExchange_onPart _ _ (by intros; rfl), rfl⟩

/-- Where a partition in SAFE stands. -/
structure State.InSafe (s t : State) (l : LaneId) (p : Nat) : Prop where
  state : ((t.lane l).part p).state = .safe
  phase : ((t.lane l).part p).phase = .idle
  posts : ((t.lane l).part p).posts = []
  faults : ((t.lane l).part p).faults = ((s.lane l).part p).faults
  cores : ∀ d ∈ ((s.lane l).part p).coreList, ((t.lane l).core d).run = .idle ∧ ((t.lane l).core d).wbuf = []

/-- A core that stops. -/
def Core.stopped (k : Core) : Core := { k with run := .idle, wbuf := [] }

/-- Cores that stop have stopped. -/
theorem Lane.core_stopped {cs : List Nat} (x : Lane) {d : Nat} (hd : d ∈ cs) :
    ((cs.foldl (fun (y : Lane) c => y.onCore c Core.stopped) x).core d).run = .idle ∧
      ((cs.foldl (fun (y : Lane) c => y.onCore c Core.stopped) x).core d).wbuf = [] :=
  Lane.core_foldl_onCore (P := fun k => k.run = .idle ∧ k.wbuf = []) (f := fun _ => Core.stopped) (fun _ _ => ⟨rfl, rfl⟩) x hd

theorem State.enterSafe_inSafe (s : State) (l : LaneId) (p : Nat) : s.InSafe (s.enterSafe l p) l p := by
  let y := ((s.lane l).part p).coreList.foldl (fun (y : Lane) c => y.onCore c Core.stopped) (s.lane l)
  let f : Part → Part := fun k => { k with
    state := .safe, phase := .idle, wasSafe := true, own := none, theirs := none, late := none, overlay := [], posts := [],
    timerEvents := [] }
  have hparts : y.parts = (s.lane l).parts := foldl_keeps (p := Lane.parts) (by intros; rfl) _ _
  obtain ⟨hpart, hcores⟩ := (s.onLane l (fun _ => y.onPart p f)).abortExchangeIn_keeps l p .exchangeAborted
  change s.InSafe ((s.onLane l (fun _ => y.onPart p f)).abortExchangeIn l p .exchangeAborted) l p
  rw [State.lane_onLane, Lane.part_onPart] at hpart
  rw [State.lane_onLane] at hcores
  refine ⟨congrArg Part.state hpart, congrArg Part.phase hpart, congrArg Part.posts hpart,
    (congrArg Part.faults hpart).trans ?_, fun d hd => ?_⟩
  · change (y.part p).faults = _
    rw [Lane.part, hparts, Lane.part]
  · rw [Lane.core, hcores]
    exact (s.lane l).core_stopped hd

theorem State.enterSafe_laneBlk (s : State) (l : LaneId) (p : Nat) : ((s.enterSafe l p).lane l).blk.lane = (s.lane l).blk.lane := by
  refine ((State.abortExchangeIn_sameStanding _ l p _).laneBlk l).trans ?_
  rw [State.lane_onLane, (Lane.onPart_fields _ _ _).2.2.2.2.2.2.2.2.2.2.2.1]
  exact foldl_keeps (p := fun y : Lane => y.blk.lane) (by intros; rfl) _ _

theorem Lane.collects_eq_of_laneBlk {x y : Lane} (h : x.blk.lane = y.blk.lane) : x.collects = y.collects := by
  simp only [Lane.collects, h]

theorem State.raise_classS {s : State} {l : LaneId} {b : Nat} (lasting : Bool) (hclass : bitClass b = 3)
    (hc : (s.lane l).collects = true) : s.raise l b lasting = s.flag l b lasting := by
  simp [State.raise, hc, hclass]

theorem bitClass_bitProgramFault {p : Nat} (hp : p < 16) : bitClass (bitProgramFault p) = 3 := by
  revert hp
  revert p
  decide

theorem programFaultsEnterSafe : Claims.ProgramFaultsEnterSafe := by
  intro s l p c pc word hp hx t
  let counted : Part → Part := fun k => { k with faults := k.faults + 1 }
  let s1 := s.onLane l (fun y => (y.onPart p counted).detail 0x0001 p
    (beBytes 1 c ++ beBytes 1 ((s.lane l).coreRank p c) ++ zeros 2 ++ beBytes 4 pc.toNat ++ beBytes 4 word.toNat ++ zeros 4))
  have hs1 : (s1.lane l).part p = counted ((s.lane l).part p) := by
    rw [State.lane_onLane]
    exact Lane.part_onPart (s.lane l) p counted
  obtain ⟨hstate, hphase, hposts, hfaults, hcores⟩ := s1.enterSafe_inSafe l p
  have hclass := bitClass_bitProgramFault hp
  have hcollects : ((s1.enterSafe l p).lane l).collects = true := by
    rw [Lane.collects_eq_of_laneBlk ((s1.enterSafe_laneBlk l p).trans (congrArg (fun x : Lane => x.blk.lane) (State.lane_onLane ..)))]
    exact Lane.collects_of_inService hx
  have ht : t = (s1.enterSafe l p).flag l (bitProgramFault p) false := State.raise_classS false hclass hcollects
  have hkeep := State.flag_keeps (s1.enterSafe l p) l l (bitProgramFault p) false
  have hpart : (t.lane l).part p = ((s1.enterSafe l p).lane l).part p := by rw [ht, Lane.part, Lane.part, hkeep.2.1]
  rw [hpart]
  refine ⟨hstate, hphase, hposts, hfaults.trans (by rw [hs1]), fun d hd => ?_, ?_⟩
  · rw [ht, Lane.core, hkeep.1]
    exact hcores d (by rw [hs1]; exact hd)
  · rw [ht]
    exact State.flag_hasBit _ l false hcollects (by simp [hclass])

/-! ### Out of SAFE -/

theorem mem_scopeBits_of_ackActs {sc i b : Nat} (hsc : sc ≠ 6) (h : ackActs sc i b = true) : b ∈ scopeBits sc i := by
  rw [ackActs, Bool.and_eq_true] at h
  simpa [hsc] using h.2

/-- An acknowledgement that no cause of its scope refuses is accepted. -/
theorem State.ackFaults_accepted {s : State} (e : Word) {sc i : Nat}
    (hgo : ¬ (decide (sc ≠ 6) && (s.endOvercurrents.ackable sc i).any
      (fun b => s.endOvercurrents.a.hasCause b || s.endOvercurrents.b.hasCause b)) = true) :
    ∃ bs gone, (s.ackFaults e sc i).2 = some (bs, gone) := by
  unfold State.ackFaults
  dsimp only
  rw [if_neg hgo]
  exact ⟨_, _, rfl⟩

@[simp] theorem Lane.parts_clearBit (x : Lane) (b : Nat) : (x.clearBit b).parts = x.parts := by
  unfold Lane.clearBit
  split <;> rfl

/-- A lane whose partitions are stopped one after the other: each that the list names is. -/
theorem Lane.state_foldl_stopped {p : Nat} : ∀ (ps : List Nat) (x : Lane), (p ∈ ps ∨ (x.part p).state = .stopped) →
    ((ps.foldl (fun (w : Lane) q => w.onPart q (fun k => { k with state := .stopped })) x).part p).state = .stopped
  | [], x, h => by simpa using h
  | q :: ps, x, h => by
    refine Lane.state_foldl_stopped ps _ ?_
    by_cases hq : p = q
    · subst hq; exact .inr (by rw [Lane.part_onPart])
    · refine h.imp (fun hmem => by simpa [hq] using hmem) (fun hx => ?_)
      rwa [Lane.part_onPart_other _ _ hq]

/-- An acknowledgement of partition `p` stops it where it is in SAFE. -/
theorem Lane.state_ackScope {x : Lane} {p : Nat} (e : Word) (hp : p < 16) (hsafe : (x.part p).state = .safe) :
    ((x.ackScope e 5 p).part p).state = .stopped := by
  unfold Lane.ackScope
  dsimp only
  generalize hz : List.foldl (fun (w : Lane) (q : Nat × LoopSt) => w.queueLoop q.1 (.pick e) .leave) _ _ = z
  have hparts : z.parts = x.parts := by
    rw [← hz]
    refine (foldl_keeps (p := Lane.parts) (by intros; rfl) _ _).trans ?_
    exact foldl_keeps (p := Lane.parts) (fun _ _ => Lane.parts_clearBit ..) _ _
  have hz' : (z.part p).state = .safe := by rw [Lane.part, hparts]; exact hsafe
  exact Lane.state_foldl_stopped _ z (.inl (List.mem_filter.mpr ⟨List.mem_range.mpr hp, by simp [hz']⟩))

theorem State.parts_endOvercurrents (s : State) (k : LaneId) : (s.endOvercurrents.lane k).parts = (s.lane k).parts := by
  refine foldl_keeps (p := fun t : State => (t.lane k).parts) (fun t r => ?_) _ _
  refine foldl_keeps (p := fun t : State => (t.lane k).parts) (fun u i => ?_) _ _
  split
  · rw [State.lane_endCauseBoth]; rfl
  · rfl

theorem faultAckLeavesSafe : Claims.FaultAckLeavesSafe := by
  intro s l p e hp hsafe hnone
  have hnone' : ∀ k b, ackActs 5 p b = true → (s.lane k).hasCause b = false := fun k b hb => by
    obtain ⟨ha, hb⟩ := hnone b (mem_scopeBits_of_ackActs (by decide) hb)
    cases k
    · exact ha
    · exact hb
  have hgo := State.not_ackRefused hnone'
  refine ⟨State.ackFaults_accepted e hgo, ?_, sameMemory_of_programs fun k => (State.ackFaults_of_noCause e hnone' k).2⟩
  refine (State.ackFaults_lane e hgo (p := fun x => (x.part p).state) (fun _ _ => rfl) l).trans (Lane.state_ackScope e hp ?_)
  rw [Lane.part, State.parts_endOvercurrents]
  exact hsafe

/-- Settles O36: a program fault is an entry into SAFE and a bit of class S; FAULT_ACK of the partition stops it (R132, R133, R144, R145,
R359). -/
theorem faultsStopPartitionsUntilAcknowledged : Obligations.FaultsStopPartitionsUntilAcknowledged :=
  ⟨programFaultsEnterSafe, faultAckLeavesSafe⟩

end Sys2Proof.Machine
end

section
/-! SUPPORT. The steps of an exchange, saves of retained state, and the comparison of committed cycles (R104, R105, R155 to R161,
Table 05-2). -/

namespace Sys2Proof.Machine

/-! ### The exchange -/

theorem State.exchangeStaged_of_good {s : State} {l : LaneId} {p : Nat} {e : Exchange} (he : ((s.lane l).part p).exch = some e)
    (hx : (s.lane l).inService = true) (hstaged : e.staged = false)
    (hchecks : ∀ i, (s.lane l).flash.loaded.lookup p = some i → i.checks = true) :
    s.exchangeStaged l p true =
      let s1 := s.onLane l (fun y => y.onPart p (fun k => { k with exch := some { e with staged := true } }))
      (if (s.lane l.other).inService then s1.send l (.planDigest p ((s.lane l).planDigest p e)) else s1).agreePlan l p := by
  cases hload : (s.lane l).flash.loaded.lookup p with
  | none => simp only [State.exchangeStaged, he, hx, hstaged, hload, Bool.not_true, Bool.or_self, Bool.false_eq_true, Bool.and_self,
      if_true, if_false]
  | some i => simp only [State.exchangeStaged, he, hx, hstaged, hload, hchecks i hload, Bool.not_true, Bool.or_self,
      Bool.false_eq_true, Bool.and_self, if_true, if_false]

theorem State.exchangeStaged_of_bad {s : State} {l : LaneId} {p : Nat} {e : Exchange} (he : ((s.lane l).part p).exch = some e)
    (hx : (s.lane l).inService = true) (hstaged : e.staged = false) :
    s.exchangeStaged l p false = (s.flag l 2079 false).abortExchange p .exchangeAborted := by
  simp [State.exchangeStaged, he, hx, hstaged]

theorem State.planReceived_of_next {s : State} {l : LaneId} {p q : Nat} {d : BitVec 64} (hnext : (s.lane l).nextAbout p = some (.planDigest q d)) :
    s.planReceived l p = ((s.onLane l (fun x => { x with inbox := x.inbox.erase (.planDigest q d) })).onLane l
      (fun x => x.onPart p (fun k => { k with exch := k.exch.map (fun e => { e with theirs := some d }) }))).agreePlan l p := by
  simp only [State.planReceived, hnext]

theorem State.installReceived_of_next {s : State} {l : LaneId} {p q m : Nat} (hnext : (s.lane l).nextAbout p = some (.install q m)) :
    s.installReceived l p = (s.onLane l (fun x => { x with inbox := x.inbox.erase (.install q m) })).onLane l
      (fun x => x.onPart p (fun k => { k with exch := k.exch.map (fun e => { e with boundary := some m }) })) := by
  simp only [State.installReceived, hnext]

theorem State.exchangeTimeout_of_ended {s : State} {l : LaneId} {p now : Nat} {e : Exchange} (he : ((s.lane l).part p).exch = some e)
    (ha : s.a.installBegun p = false) (hb : s.b.installBegun p = false) (hdue : e.beat + 200000000 ≤ now) :
    s.exchangeTimeout l p now = s.abortExchange p .exchangeAborted := by
  simp [State.exchangeTimeout, he, ha, hb, hdue]

/-- Settles O37: the steps of Table 05-2, each in the case that its clause names. -/
theorem exchangeRowsComplete : Obligations.ExchangeRowsComplete := by
  intro s l p beat
  refine ⟨fun e he hx hstaged hchecks => ?_, fun e he hx hstaged => ?_, fun q d hnext => ?_, fun q m hnext => ?_,
    fun e he ha hb hdue => ?_⟩
  · exact congrArg Host.Outcome.next (State.exchangeStaged_of_good he hx hstaged hchecks)
  · exact congrArg Host.Outcome.next (State.exchangeStaged_of_bad he hx hstaged)
  · exact congrArg Host.Outcome.next (State.planReceived_of_next hnext)
  · exact congrArg Host.Outcome.next (State.installReceived_of_next hnext)
  · exact congrArg Host.Outcome.next (State.exchangeTimeout_of_ended (by simpa using he) ha hb hdue)

/-! ### Saves -/

/-- A lane in service is asked for a save at pick `n`, unless it is to save already. -/
def Lane.askSave (n : Word) (y : Lane) : Lane := if y.inService then y.onMan (fun m => { m with saveAt := some (m.saveAt.getD n) }) else y

theorem Lane.saveAt_askSave {y : Lane} (h : y.inService = true) (n : Word) : (y.askSave n).man.saveAt = some (y.man.saveAt.getD n) := by
  simp [Lane.askSave, h]

theorem Lane.programs_askSave (n : Word) (y : Lane) : (y.askSave n).programs = y.programs := by
  unfold Lane.askSave
  split <;> rfl

theorem State.savePeriodExpiry_of_due {s : State} {l : LaneId} {now : Nat} (hactive : s.active = some l) (hx : (s.lane l).inService = true)
    (hnone : (s.lane l).man.saveAt = none) (hwarn : (s.lane l).blk.pwr.warn = false)
    (hdue : (s.lane l).man.lastSave + 100000 * (s.lane l).blk.pwr.savePeriod ≤ now) (k : LaneId) :
    (s.savePeriodExpiry now).lane k = (s.lane k).askSave (s.lane l).blk.pick.opened := by
  have hgo : ((s.lane l).inService && (s.lane l).man.saveAt.isNone && !(s.lane l).blk.pwr.warn &&
      decide ((s.lane l).man.lastSave + 100000 * (s.lane l).blk.pwr.savePeriod ≤ now)) = true := by
    simp [hx, hnone, hwarn, hdue]
  simp only [State.savePeriodExpiry, hactive, hgo, if_true]
  cases k <;> rfl

theorem State.saveComplete_of_job {s : State} {l : LaneId} {j : SaveJob} (hj : (s.lane l).man.saveJob = some j) :
    s.saveComplete l = (s.onLane l (fun x => (List.range 16).foldl (fun (y : Lane) p => y.keepTable p none)
      x.completeSave)).finishAll l (.saveDone j.save.number) .ok (beBytes 8 j.save.number) := by
  simp only [State.saveComplete, hj]

/-- A save that does not read back is given up, with its bit. -/
theorem State.writeRetry_of_save {s : State} {l : LaneId} {j : SaveJob} (hj : (s.lane l).man.saveJob = some j) :
    ∃ f : Lane → Lane, s.writeRetry l false = (s.onLane l f).flag l 2087 false ∧ (f (s.lane l)).man.saveJob = none ∧
      (f (s.lane l)).blk.lane = (s.lane l).blk.lane := by
  simp only [State.writeRetry, hj, Bool.false_eq_true, if_false]
  exact ⟨_, rfl, rfl, rfl⟩

theorem State.writeRetry_of_image {s : State} {l : LaneId} {w : NewImage} {n : Nat} {rest : List (FlashJob × Nat)}
    (hj : (s.lane l).man.saveJob = none) (hjob : (s.lane l).job = (.image w, n) :: rest) :
    s.writeRetry l false = ((s.onLane l (fun y => { y with job := rest })).flag l 2087 false).failImage w.hdr := by
  simp only [State.writeRetry, hj, hjob, Bool.false_eq_true, if_false]

theorem saveRowsComplete : Claims.SaveRowsComplete := by
  intro s l beat
  refine ⟨fun hactive hx hnone hwarn hdue => ?_, fun j hj => ?_, fun j hj hx => ?_, fun w n rest hj hjob => ?_, rfl⟩
  · have hlane := State.savePeriodExpiry_of_due (s := s.at_ beat) (now := max s.pkg.beat beat) (by simpa using hactive)
      (by simpa using hx) (by simpa using hnone) (by simpa using hwarn) (by rw [State.lane_at]; exact hdue)
    simp only [State.lane_at] at hlane
    refine ⟨_, rfl, ?_, fun hy => ?_, sameMemory_of_programs fun k => ?_⟩
    · exact (congrArg (fun x : Lane => x.man.saveAt) (hlane l)).trans ((Lane.saveAt_askSave hx _).trans (by rw [hnone]; rfl))
    · exact (congrArg (fun x : Lane => x.man.saveAt) (hlane l.other)).trans (Lane.saveAt_askSave hy _)
    · exact (congrArg Lane.programs (hlane k)).trans (Lane.programs_askSave ..)
  · exact congrArg Host.Outcome.next (State.saveComplete_of_job hj)
  · obtain ⟨f, hretry, hjob, hblk⟩ := State.writeRetry_of_save hj
    refine ⟨_, congrArg Host.Outcome.next hretry, ?_, State.flag_hasBit _ l false ?_ (by decide)⟩
    · exact ((State.flag_onlyFlags _ l 2087 false).keeps (p := fun x => x.man.saveJob) (fun _ => rfl) l).trans
        (by rw [State.lane_onLane, hjob])
    · rw [State.lane_onLane, Lane.collects_eq_of_laneBlk hblk]
      exact Lane.collects_of_inService hx
  · exact congrArg Host.Outcome.next (State.writeRetry_of_image hj hjob)

/-! ### Digests -/

theorem State.compareDigest_of_cycle {s : State} {l : LaneId} {p r c : Nat} {d : BitVec 64}
    (hnext : (s.lane l).nextDigest p = some (.commitDigest r c d)) (hx : (s.lane l).inService = true)
    (hc : ((s.lane l).part p).cycle = c) : s.compareDigest l p =
      let s1 := s.onLane l (fun y => { y with inbox := y.inbox.erase (.commitDigest r c d) })
      if ((s.lane l).part p).digest ≠ d then s1.digestDiffers l else s1 := by
  simp [State.compareDigest, hnext, hx, hc]

theorem State.compareDigest_of_early {s : State} {l : LaneId} {p r c : Nat} {d : BitVec 64}
    (hnext : (s.lane l).nextDigest p = some (.commitDigest r c d)) (hx : (s.lane l).inService = true)
    (hc : ((s.lane l).part p).cycle < c) : s.compareDigest l p = s := by
  simp [State.compareDigest, hnext, hx, hc]

theorem State.compareDigest_of_state {s : State} {l : LaneId} {p c : Nat} {d : BitVec 64}
    (hnext : (s.lane l).nextDigest p = some (.stateDigest c d)) (hx : (s.lane l).inService = true)
    (hc : (s.lane l).blk.lane.digestNo = c) : s.compareDigest l p =
      let s1 := (s.onLane l (fun y => { y with inbox := y.inbox.erase (.stateDigest c d) })).onLane l
        (fun y => y.onLaneBlk (fun b => { b with compared := b.digest }))
      if (s.lane l).blk.lane.digest ≠ d then s1.digestDiffers l else s1 := by
  simp [State.compareDigest, hnext, hx, hc]

theorem State.digestWindow_of_ended {s : State} {l : LaneId} {now t : Nat} (hdiff : (s.lane l).blk.lane.digestDiff = some t)
    (hdue : t + msBeats ≤ now) (ha : s.a.inService = true) (hb : s.b.inService = true) (hfa : s.a.faultLine = false)
    (hfb : s.b.faultLine = false) (hout : s.outputsDiffer = false) : s.digestWindow l now =
      ({ s with
        a := s.a.onLaneBlk (fun b => { b with digestDiff := none })
        b := s.b.onLaneBlk (fun b => { b with digestDiff := none }) } : State).raise s.activeLane.other 164 true := by
  have hgo : (s.a.inService && s.b.inService && !s.a.faultLine && !s.b.faultLine && !s.outputsDiffer) = true := by
    simp [ha, hb, hfa, hfb, hout]
  simp only [State.digestWindow, hdiff, hdue, hgo, if_true]

theorem digestRowsComplete : Claims.DigestRowsComplete := by
  intro s l p beat
  refine ⟨fun r c d hnext hx => ⟨fun hc => ?_, fun hc => ?_⟩, fun c d hnext hx hc => ?_, fun t hdiff hdue ha hb hfa hfb hout => ?_⟩
  · refine congrArg Host.Outcome.next ((State.compareDigest_of_cycle (s := s.at_ beat) (by simpa using hnext) (by simpa using hx)
      (by simpa using hc)).trans ?_)
    simp only [State.lane_at]
  · exact congrArg Host.Outcome.next (State.compareDigest_of_early (s := s.at_ beat) (by simpa using hnext) (by simpa using hx)
      (by simpa using hc))
  · refine congrArg Host.Outcome.next ((State.compareDigest_of_state (s := s.at_ beat) (by simpa using hnext) (by simpa using hx)
      (by simpa using hc)).trans ?_)
    simp only [State.lane_at]
  · exact congrArg Host.Outcome.next (State.digestWindow_of_ended (s := s.at_ beat) (by simpa using hdiff) hdue ha hb hfa hfb hout)

/-- Settles O38: saves and digests, each row in the case that its clause names (R104, R105, R155 to R161). -/
theorem saveAndDigestRowsComplete : Obligations.SaveAndDigestRowsComplete :=
  ⟨saveRowsComplete, digestRowsComplete⟩

end Sys2Proof.Machine
end

section
/-! SUPPORT. The maker test pin and the state after reset (R28, R545, R549). -/

namespace Sys2Proof.Machine

/-! ### A detection that both collectors take -/

/-- A detection reported to both collectors sets its bit in each that runs. -/
theorem State.flagBoth_hasBit (s : State) (l : LaneId) {b : Nat} (lasting : Bool) (hc : (s.lane l).collects = true) (hb : bitClass b ≠ 0) :
    ((s.flagBoth b lasting).lane l).hasBit b = true := by
  have hstanding : ((s.flag .a b lasting).lane l).blk.lane = (s.lane l).blk.lane := (State.flag_keeps s .a l b lasting).2.2.1
  cases l
  · exact (State.flag_hasBit_other _ .b .a lasting (.inr (by decide))).trans (State.flag_hasBit s .a lasting hc hb)
  · exact State.flag_hasBit _ .b lasting ((Lane.collects_eq_of_laneBlk hstanding).trans hc) hb

/-- Settles O57: a detection reported to both collectors changes nothing but the collectors and their events. -/
theorem makerTestPinHasNoEffect : Obligations.MakerTestPinHasNoEffect := by
  intro s
  refine ⟨fun hmaker hreturned => ?_, fun h => ?_⟩
  · have hflags := s.flagBoth_onlyFlags 2084 false
    have hclass : bitClass 2084 = 1 := by decide +kernel
    refine ⟨s.flagBoth 2084 false, by simp [exec, execMakerTestPin, hmaker, hreturned], hflags.pkg, hclass, fun l => ⟨fun hc => ?_, ?_⟩⟩
    · exact s.flagBoth_hasBit l false hc (by rw [hclass]; decide)
    · exact ⟨hflags.keeps (p := Lane.parts) (fun _ => rfl) l, hflags.keeps (p := Lane.cores) (fun _ => rfl) l,
        hflags.keeps (p := Lane.flash) (fun _ => rfl) l, hflags.keeps (p := Lane.mram) (fun _ => rfl) l,
        hflags.keeps (p := fun x => x.blk.lane) (fun _ => rfl) l, hflags.keeps (p := fun x => x.blk.pnt) (fun _ => rfl) l,
        hflags.keeps (p := fun x => x.blk.loop) (fun _ => rfl) l, hflags.keeps (p := fun x => x.blk.nrg) (fun _ => rfl) l,
        hflags.keeps (p := fun x => x.blk.key) (fun _ => rfl) l⟩
  · refine congrArg Host.Outcome.next (if_pos ?_)
    obtain h | h := h <;> simp [h]

/-! ### After reset -/

theorem State.lane_reset (l : LaneId) : State.reset.lane l = {} := by
  cases l <;> rfl

theorem registersAtReset : Claims.RegistersAtReset := by
  refine ⟨rfl, rfl, rfl, rfl, rfl, fun l => ?_, ?_⟩
  · rw [State.lane_reset]
    exact ⟨rfl, rfl, rfl, rfl, rfl, rfl, rfl, rfl, rfl, fun _ _ => rfl, fun _ r => ite_self _, fun _ => rfl⟩
  · obtain ⟨hac, hap, hbc, hbp⟩ := reset_memWf
    exact ⟨⟨hac, hap⟩, hbc, hbp⟩

/-- Settles O58 (values that no rule gives: log entries 4 and 5). -/
theorem resetValues : Obligations.ResetValues :=
  ⟨registersAtReset, fun _ _ h => (nomatch h), by decide⟩

end Sys2Proof.Machine
end

section
/-! SUPPORT. Spilling of the energy accumulators (R307, R308). -/

namespace Sys2Proof.Machine

theorem Lane.circuit_of_beyondEvents {x y : Lane} (h : x.beyondEvents = y.beyondEvents) (c : Nat) : x.circuit c = y.circuit c :=
  (congrArg (fun z : Lane => z.circuit c) h : x.beyondEvents.circuit c = y.beyondEvents.circuit c)

@[simp] theorem Lane.circuit_meterEvent (x : Lane) (l : LaneId) (ty subj code : Nat) (v : Word) (c : Nat) :
    (x.meterEvent l ty subj code v).circuit c = x.circuit c :=
  Lane.circuit_of_beyondEvents (Lane.beyondEvents_enter ..) c

@[simp] theorem Lane.circuit_setBit (x : Lane) (l : LaneId) (b : Nat) (lasting : Bool) (c : Nat) :
    (x.setBit l b lasting).circuit c = x.circuit c :=
  Lane.circuit_of_beyondEvents (Lane.beyondEvents_setBit ..) c

@[simp] theorem Lane.circuit_writeBacklog (x : Lane) (n c : Nat) : (x.writeBacklog n).circuit c = x.circuit c := rfl

@[simp] theorem Lane.circuit_countPulse (x : Lane) (l : LaneId) (d dir c : Nat) : (x.countPulse l d dir).circuit c = x.circuit c := by
  refine foldl_keeps (p := fun y : Lane => y.circuit c) (fun y n => ?_) _ _
  dsimp only
  split
  · rw [Lane.circuit_meterEvent, Lane.circuit_setBit]; rfl
  · rfl

/-- A pulse advances the issued number of its direction and changes nothing else of its circuit. -/
theorem Lane.circuit_issuePulse (x : Lane) (l : LaneId) (c : Nat) :
    (x.issuePulse l c 0).circuit c = { x.circuit c with impIssued := (x.circuit c).impIssued + 1 } := by
  unfold Lane.issuePulse
  dsimp only
  rw [Lane.circuit_countPulse, Lane.circuit_meterEvent]
  exact Lane.circuit_onCircuit ..

/-- Spilling that finds a whole weight issues its pulse and goes on with the rest. -/
theorem Lane.spill_succ_of_le {x : Lane} {l : LaneId} {c n : Nat} (hw : (x.circuit c).weight ≠ 0)
    (h : ((x.circuit c).weight : Int) ≤ (x.circuit c).acc) :
    Lane.spill l c 0 (n + 1) x =
      Lane.spill l c 0 n ((x.onCircuit c (fun q => { q with acc := q.acc - q.weight })).issuePulse l c 0) := by
  simp [Lane.spill, hw, h]

theorem Lane.spill_of_lt {x : Lane} {l : LaneId} {c : Nat} (n : Nat) (h : (x.circuit c).acc < (x.circuit c).weight) :
    Lane.spill l c 0 n x = x := by
  cases n <;> simp [Lane.spill, h]

/-- What a spill of `k` weights makes of a circuit. -/
def Circuit.spilled (q : Circuit) (k : Nat) : Circuit := { q with acc := q.acc - k * q.weight, impIssued := q.impIssued + w32 k }

theorem Lane.circuit_spill {l : LaneId} {c : Nat} : ∀ (n a : Nat) (x : Lane), (x.circuit c).weight ≠ 0 → (x.circuit c).acc = (a : Int) →
    (Lane.spill l c 0 n x).circuit c = (x.circuit c).spilled (min n (a / (x.circuit c).weight))
  | 0, a, x, _, _ => by simp [Lane.spill, Circuit.spilled, w32]
  | n + 1, a, x, hw, ha => by
    by_cases h : (x.circuit c).weight ≤ a
    · rw [Lane.spill_succ_of_le hw (by rw [ha]; exact_mod_cast h)]
      have hc : ((x.onCircuit c (fun q => { q with acc := q.acc - q.weight })).issuePulse l c 0).circuit c = (x.circuit c).spilled 1 := by
        simp [Lane.circuit_issuePulse, Circuit.spilled, w32]
      have hdiv : a / (x.circuit c).weight = (a - (x.circuit c).weight) / (x.circuit c).weight + 1 :=
        Nat.div_eq_sub_div (Nat.pos_of_ne_zero hw) h
      have hrest := Lane.circuit_spill (l := l) n (a - (x.circuit c).weight) _ (by rw [hc]; exact hw)
        (by rw [hc]; simp [Circuit.spilled, ha, Nat.cast_sub h])
      rw [hrest, hc, hdiv, Nat.add_min_add_right]
      simp [Circuit.spilled, w32, add_mul, BitVec.ofNat_add]
      constructor
      · ring
      · ac_rfl
    · have h' := Nat.lt_of_not_le h
      rw [Lane.spill_of_lt _ (by rw [ha]; exact_mod_cast h'), Nat.div_eq_of_lt h']
      simp [Circuit.spilled, w32]

/-- Settles O49, by induction on the number of pulses that may be issued. -/
theorem spillIssuesWholePulses : Obligations.SpillIssuesWholePulses := by
  intro x l c n a hw ha w k y
  have hy : y.circuit c = (x.circuit c).spilled k := Lane.circuit_spill n a x hw ha
  have hk : k * w ≤ a := (Nat.mul_le_mul_right w (Nat.min_le_right ..)).trans (Nat.div_mul_le_self ..)
  refine ⟨?_, by rw [hy]; rfl, by rw [hy]; rfl, by rw [hy]; rfl, by rw [hy]; rfl⟩
  rw [hy, Nat.cast_sub hk, Nat.cast_mul, ← ha]
  rfl

end Sys2Proof.Machine
end

section
/-! SUPPORT. Sample frames and output updates between the lanes and the front-end dies (R93 to R103). -/

namespace Sys2Proof.Machine

/-! ### Sample frames -/

theorem sampleFrameRowsComplete : Claims.SampleFrameRowsComplete := by
  intro s l r
  refine ⟨?_, ?_, fun own resent hown hy hok => ?_⟩
  · intro e ok hfind hx s2
    refine ⟨fun hy => ?_, fun hy hok => ?_, fun hy hok => ?_⟩
    · exact congrArg Host.Outcome.next (by simp [State.sampleFrame, hfind, hx, hy, s2])
    · exact congrArg Host.Outcome.next (by simp [State.sampleFrame, hfind, hx, hy, hok, s2])
    · exact congrArg Host.Outcome.next (by simp [State.sampleFrame, hfind, hx, hy, hok, s2])
  · intro own q f ok resent hown hy hmsg s1 s2 take kept attributed agrees
    have hagrees : (own.2 && ok && decide (own.1.number = f.number) && decide (own.1.crc = f.crc)) = true ↔ agrees := by
      simp [agrees, and_assoc]
    refine ⟨fun h => ?_, fun h hresent => ?_, fun h hresent => ?_⟩
    · refine congrArg Host.Outcome.next ?_
      simp only [State.frameCheck, hown, hy, hmsg, Bool.not_true, Bool.false_eq_true, if_false, hagrees.2 h, if_true]
      rfl
    · refine congrArg Host.Outcome.next ?_
      simp only [State.frameCheck, hown, hy, hmsg, Bool.not_true, Bool.false_eq_true, if_false, mt hagrees.1 h, hresent, if_true]
      rfl
    · refine congrArg Host.Outcome.next ?_
      simp only [State.frameCheck, hown, hy, hmsg, Bool.not_true, Bool.false_eq_true, if_false, mt hagrees.1 h, hresent]
      rfl
  · exact congrArg Host.Outcome.next (by simp [State.frameCheck, hown, hy, hok])

/-! ### Tables that are written entry by entry -/

theorem tget_foldl_tput_other {α : Type} [DecidableEq α] {d : α} (g : Nat → α) {i : Nat} (is : List Nat) (t : Tab α) (h : i ∉ is) :
    tget d (is.foldl (fun t j => tput d t j (g j)) t) i = tget d t i := by
  induction is generalizing t with
  | nil => rfl
  | cons j is ih =>
    obtain ⟨hj, hi⟩ := List.ne_and_not_mem_of_not_mem_cons h
    rw [List.foldl_cons, ih _ hi, tget_tput_other _ hj]

/-- Entries written but for those that `p` keeps. -/
theorem tget_foldl_tput_unless {α : Type} [DecidableEq α] {d : α} (p : Nat → Bool) (g : Nat → α) (i : Nat) (is : List Nat)
    (t : Tab α) : tget d (is.foldl (fun t j => if p j then t else tput d t j (g j)) t) i =
      if i ∈ is ∧ p i = false then g i else tget d t i := by
  induction is generalizing t with
  | nil => simp
  | cons j is ih =>
    rw [List.foldl_cons, ih]
    by_cases hj : i = j
    · subst hj
      cases hp : p i <;> simp
    · cases hp : p j <;> simp [hj, tget_tput_other]

theorem contains_setIn_other {i j : Nat} (h : i ≠ j) (t : List Nat) (b : Bool) : (setIn t j b).contains i = t.contains i := by
  apply Bool.eq_iff_iff.mpr
  cases b <;> simp [setIn, mem_insSorted, h]

theorem contains_foldl_setIn_other (g : Nat → Bool) {i : Nat} (is : List Nat) (t : List Nat) (h : i ∉ is) :
    (is.foldl (fun t j => setIn t j (g j)) t).contains i = t.contains i := by
  induction is generalizing t with
  | nil => rfl
  | cons j is ih =>
    obtain ⟨hj, hi⟩ := List.ne_and_not_mem_of_not_mem_cons h
    rw [List.foldl_cons, ih _ hi, contains_setIn_other hj]

/-! ### What a die drives -/

/-- Whether a die that drives update `u` keeps output `i` at its safe value. -/
def FrontEnd.keptSafe (f : FrontEnd) (u : Update) (i : Nat) : Bool :=
  if f.disagree.contains i then f.agreedSafe.contains i else u.safe.contains i

theorem FrontEnd.tget_driven_driveUpdate (f : FrontEnd) (u : Update) {i : Nat} (hi : i < 64) :
    tget 0 (f.driveUpdate u).driven i =
      if f.keptSafe u i then tget 0 f.driven i else if f.disagree.contains i then tget 0 f.agreed i else tget 0 u.words i := by
  have hsafe : ((List.range 64).filter (f.keptSafe u)).contains i = f.keptSafe u i := by
    apply Bool.eq_iff_iff.mpr
    simp [hi]
  refine (tget_foldl_tput_unless (fun i => ((List.range 64).filter (f.keptSafe u)).contains i) _ i _ _).trans ?_
  simp only [hsafe, List.mem_range, hi, true_and]
  cases f.keptSafe u i <;> rfl

/-- A pair of updates has differed in output `i`, on a die that was `f` and is `g`. -/
structure FrontEnd.Differed (f g : FrontEnd) (i : Nat) : Prop where
  last : i ∈ g.lastDiff
  run : g.agreeRun = 0
  disagree : i ∈ g.disagree ↔ i ∈ f.lastDiff
  agreed : tget 0 g.agreed i = tget 0 f.agreed i
  agreedSafe : g.agreedSafe.contains i = f.agreedSafe.contains i

theorem FrontEnd.Differed.congr {e f g : FrontEnd} {i : Nat} (h : f.Differed g i) (hlast : e.lastDiff = f.lastDiff)
    (hagreed : e.agreed = f.agreed) (hsafe : e.agreedSafe = f.agreedSafe) : e.Differed g i :=
  ⟨h.last, h.run, by rw [h.disagree, hlast], by rw [h.agreed, hagreed], by rw [h.agreedSafe, hsafe]⟩

theorem FrontEnd.compare_differed (f : FrontEnd) {ua ub : Update} (now : Nat) {i : Nat} (h : i ∈ updateDiffs ua ub) :
    f.Differed (f.compare ua ub now) i := by
  have hsame : i ∉ (List.range 64).filter (fun i => !(updateDiffs ua ub).contains i) := by simp [h]
  have hne : updateDiffs ua ub ≠ [] := List.ne_nil_of_mem h
  refine ⟨h, ?_, ?_, tget_foldl_tput_other _ _ _ hsame, contains_foldl_setIn_other _ _ _ hsame⟩
  · simp [FrontEnd.compare, FrontEnd.differ, hne]
  · simp [FrontEnd.compare, FrontEnd.differ, h]

theorem mem_updateDiffs {u v : Update} {i : Nat} (hi : i < 64) (h : tget 0 u.words i ≠ tget 0 v.words i) :
    i ∈ updateDiffs u v ∧ i ∈ updateDiffs v u := by
  simp only [updateDiffs, List.mem_filter, List.mem_range, hi, true_and, Bool.or_eq_true, decide_eq_true_eq]
  exact ⟨.inl h, .inl h.symm⟩

theorem FrontEnd.pairUpdate_differed {f : FrontEnd} {l : LaneId} {u v : Update} (now : Nat) {i : Nat}
    (hfind : (f.waitOf l.other).find? (fun v => v.number = u.number && v.again = u.again) = some v) (hi : i < 64)
    (h : tget 0 u.words i ≠ tget 0 v.words i) :
    ((f.putUpdate l u).pairUpdate l u now).2 = true ∧ f.Differed ((f.putUpdate l u).pairUpdate l u now).1 i ∧
      ((f.putUpdate l u).pairUpdate l u now).1.updateOf l = some u := by
  have hwait : ((f.putUpdate l u).waitOf l.other).find? (fun v => v.number = u.number && v.again = u.again) = some v := by
    cases l <;> exact hfind
  obtain ⟨huv, hvu⟩ := mem_updateDiffs hi h
  unfold FrontEnd.pairUpdate
  rw [hwait]
  cases l
  · exact ⟨rfl, (FrontEnd.compare_differed _ now huv).congr rfl rfl rfl, rfl⟩
  · exact ⟨rfl, (FrontEnd.compare_differed _ now hvu).congr rfl rfl rfl, rfl⟩

/-! ### What a comparison of updates leaves -/

/-- From `s` to `t` nothing has moved but the front-end die of region `r` and, in the lanes, what a comparison of updates counts. -/
structure State.ComparedAt (s t : State) (r n : Nat) : Prop where
  fe : ∀ q, q ≠ r → t.fe q = s.fe q
  outDisagree : ∀ k, (t.lane k).blk.lane.outDisagree = (s.lane k).blk.lane.outDisagree + BitVec.ofNat 32 n

theorem State.onFe_comparedAt (s : State) (r : Nat) (f : FrontEnd → FrontEnd) : s.ComparedAt (s.onFe r f) r 0 :=
  ⟨fun _ h => State.fe_onFe_other s f h, fun k => by rw [State.lane_onFe]; exact (BitVec.add_zero _).symm⟩

theorem State.ComparedAt.trans {s t u : State} {r m n : Nat} (h : s.ComparedAt t r m) (k : t.ComparedAt u r n) :
    s.ComparedAt u r (m + n) :=
  ⟨fun q hq => (k.fe q hq).trans (h.fe q hq), fun l => by rw [k.outDisagree, h.outDisagree, BitVec.ofNat_add, BitVec.add_assoc]⟩

theorem State.afterCompare_of_differed {s : State} {r : Nat} (h : (s.fe r).lastDiff ≠ []) :
    s.afterCompare r = s.countDisagree.renewCause (bitRegion r 6) := by
  simp [State.afterCompare, h]

theorem Lane.laneBlk_renewed (x : Lane) (b : Nat) :
    (if x.hasBit b then x.onFlt (fun k => { k with cause := insSorted b k.cause }) else x).blk.lane = x.blk.lane := by
  split <;> rfl

/-- A pair that differed counts one disagreement in both lanes. -/
theorem State.afterCompare_comparedAt {s : State} {r : Nat} (h : (s.fe r).lastDiff ≠ []) : s.ComparedAt (s.afterCompare r) r 1 := by
  rw [State.afterCompare_of_differed h]
  refine ⟨fun _ _ => rfl, fun k => ?_⟩
  cases k <;> exact congrArg LaneBlk.outDisagree (Lane.laneBlk_renewed ..)

theorem State.fe_afterCompare {s : State} {r : Nat} (h : (s.fe r).lastDiff ≠ []) (q : Nat) : (s.afterCompare r).fe q = s.fe q := by
  rw [State.afterCompare_of_differed h]
  rfl

/-- What a literal vector leaves of a comparison. -/
theorem State.literalsMoved_comparedAt (s : State) (r : Nat) : s.ComparedAt (s.literalsMoved r) r 0 := by
  refine ⟨fun q hq => ?_, fun k => ?_⟩
  · unfold State.literalsMoved
    split
    · rfl
    · exact (State.fe_onFe_other (s.sendVector r) _ hq).trans (State.fe_onFe_other s _ hq)
  · rw [(s.literalsMoved_onlyVectors r).keeps (p := fun x => x.blk.lane.outDisagree) (fun _ _ => rfl)]
    exact (BitVec.add_zero _).symm

/-! ### Output updates -/

theorem State.outputUpdate_of_find {s : State} {l : LaneId} {r : Nat} {u : Update}
    (h : (s.lane l).updates.find? (fun u => u.region = r) = some u) (now : Nat) :
    s.outputUpdate l r now = (s.onLane l (fun x => { x with updates := x.updates.erase u })).receiveUpdate l u now := by
  simp only [State.outputUpdate, h]

theorem exec_outputUpdate {s : State} {l : LaneId} {r beat : Nat} {u : Update}
    (h : (s.lane l).updates.find? (fun u => u.region = r) = some u) :
    exec (.outputUpdate l r beat) s =
      .next ((((s.at_ beat).onLane l (fun x => { x with updates := x.updates.erase u })).receiveUpdate l u
        (max s.pkg.beat beat)).literalsMoved r) := by
  refine congrArg (fun t : State => Host.Outcome.next (t.literalsMoved r)) (State.outputUpdate_of_find (by rw [State.lane_at]; exact h) _)

/-- What the die makes of the active lane's update of its last words, when lane `l` has sent `u`. -/
def State.driveActive (s : State) (active : Option LaneId) (l : LaneId) (u : Update) : State :=
  match active with
  | some k =>
    s.onFe u.region (fun f => match f.updateOf k with
      | some v => { f.driveUpdate v with cross := if k = l then u.cross else f.cross }
      | none => f)
  | none => s

theorem State.receiveUpdate_of_alone {s : State} {l : LaneId} (u : Update) (now : Nat) (h : (s.a.inService && s.b.inService) = false) :
    s.receiveUpdate l u now = ((s.onFe u.region (fun f => f.putUpdate l u)).onFe u.region
      (fun f => { f with waitA := [], waitB := [] })).driveActive s.active l u := by
  unfold State.receiveUpdate State.driveActive
  simp only [h] <;> rfl

theorem State.receiveUpdate_of_pair {s : State} {l : LaneId} {u : Update} {now : Nat} (h : (s.a.inService && s.b.inService) = true)
    (hpair : (((s.fe u.region).putUpdate l u).pairUpdate l u now).2 = true) :
    s.receiveUpdate l u now = (((s.onFe u.region (fun f => f.putUpdate l u)).onFe u.region
      (fun _ => (((s.fe u.region).putUpdate l u).pairUpdate l u now).1)).afterCompare u.region).driveActive s.active l u := by
  unfold State.receiveUpdate State.driveActive
  simp only [h, if_true, State.fe_onFe, hpair] <;> rfl

theorem State.driveActive_comparedAt (s : State) (a : Option LaneId) (l : LaneId) (u : Update) :
    s.ComparedAt (s.driveActive a l u) u.region 0 := by
  unfold State.driveActive
  split
  · exact s.onFe_comparedAt _ _
  · exact ⟨fun _ _ => rfl, fun _ => (BitVec.add_zero _).symm⟩

/-- The die of the region after the active lane's words are driven. -/
theorem State.fe_driveActive_same {s : State} {l : LaneId} {u : Update} (h : (s.fe u.region).updateOf l = some u) :
    (s.driveActive (some l) l u).fe u.region = { (s.fe u.region).driveUpdate u with cross := u.cross } := by
  simp [State.driveActive, h]

theorem State.driveActive_differed {s : State} {f : FrontEnd} {i : Nat} (a : Option LaneId) (l : LaneId) (u : Update)
    (h : f.Differed (s.fe u.region) i) : f.Differed ((s.driveActive a l u).fe u.region) i := by
  unfold State.driveActive
  split
  · rw [State.fe_onFe]
    split
    · exact ⟨h.last, h.run, h.disagree, h.agreed, h.agreedSafe⟩
    · exact h
  · exact h

/-- With one lane in service the die drives the words of that lane's update. -/
theorem outputUpdate_drives {s : State} {l : LaneId} {r : Nat} {u : Update} (now : Nat) (hr : u.region = r)
    (hother : (s.lane l.other).inService = false) (hl : s.active = some l) (hnone : (s.fe r).disagree = []) :
    let t := s.receiveUpdate l u now
    s.ComparedAt t r 0 ∧ (∀ k, (t.lane k).updates = (s.lane k).updates) ∧
      (t.fe r).safeUnits = (List.range 64).filter (fun i => u.safe.contains i) ∧ (t.fe r).cross = u.cross ∧
      ∀ i, i < 64 → tget 0 (t.fe r).driven i = if u.safe.contains i then tget 0 (s.fe r).driven i else tget 0 u.words i := by
  intro t
  subst hr
  have halone : (s.a.inService && s.b.inService) = false := by
    cases l <;> simp [State.lane, LaneId.other] at hother <;> simp [hother]
  let s1 := (s.onFe u.region (fun f => f.putUpdate l u)).onFe u.region (fun f => { f with waitA := [], waitB := [] })
  have ht : t = s1.driveActive (some l) l u := (State.receiveUpdate_of_alone u now halone).trans (by rw [hl])
  have hfe1 : s1.fe u.region = { (s.fe u.region).putUpdate l u with waitA := [], waitB := [] } := by simp [s1]
  have hfe : t.fe u.region = { (s1.fe u.region).driveUpdate u with cross := u.cross } := by
    rw [ht, State.fe_driveActive_same]
    rw [hfe1]
    cases l <;> rfl
  have hdis : (s1.fe u.region).disagree = [] := by
    rw [hfe1]
    cases l <;> exact hnone
  have hdriven : (s1.fe u.region).driven = (s.fe u.region).driven := by
    rw [hfe1]
    cases l <;> rfl
  refine ⟨?_, fun k => ?_, ?_, by rw [hfe], fun i hi => ?_⟩
  · rw [ht]
    exact ((s.onFe_comparedAt _ _).trans (State.onFe_comparedAt ..)).trans (State.driveActive_comparedAt ..)
  · simp [ht, State.driveActive, s1]
  · rw [hfe]
    simp [FrontEnd.driveUpdate, hdis]
  · rw [hfe]
    dsimp only
    rw [FrontEnd.tget_driven_driveUpdate _ u hi, FrontEnd.keptSafe, hdis, hdriven]
    simp only [List.contains_nil, Bool.false_eq_true, if_false]

/-- With both lanes in service, a pair that differs in an output is counted, and a second in a row keeps the word last agreed. -/
theorem outputUpdate_differs {s : State} {l : LaneId} {r : Nat} {u v : Update} (now : Nat) {i : Nat} (hr : u.region = r)
    (ha : s.a.inService = true) (hb : s.b.inService = true)
    (hfind : ((s.fe r).waitOf l.other).find? (fun v => v.number = u.number && v.again = u.again) = some v) (hi : i < 64)
    (hne : tget 0 u.words i ≠ tget 0 v.words i) :
    let t := s.receiveUpdate l u now
    s.ComparedAt t r 1 ∧ (s.fe r).Differed (t.fe r) i ∧
      (i ∈ (s.fe r).lastDiff → s.active = some l → (s.fe r).agreedSafe.contains i = false →
        tget 0 (t.fe r).driven i = tget 0 (s.fe r).agreed i) := by
  intro t
  subst hr
  obtain ⟨hpair, hdiffered, hupd⟩ := FrontEnd.pairUpdate_differed now hfind hi hne
  let s2 := (s.onFe u.region (fun f => f.putUpdate l u)).onFe u.region
    (fun _ => (((s.fe u.region).putUpdate l u).pairUpdate l u now).1)
  have hfe2 : s2.fe u.region = (((s.fe u.region).putUpdate l u).pairUpdate l u now).1 := by simp [s2]
  have hlast : (s2.fe u.region).lastDiff ≠ [] := by
    rw [hfe2]
    exact List.ne_nil_of_mem hdiffered.last
  have hfe3 : (s2.afterCompare u.region).fe u.region = (((s.fe u.region).putUpdate l u).pairUpdate l u now).1 :=
    (State.fe_afterCompare hlast _).trans hfe2
  have ht : t = (s2.afterCompare u.region).driveActive s.active l u := State.receiveUpdate_of_pair (by simp [ha, hb]) hpair
  refine ⟨?_, ?_, fun hi2 hl hsafe => ?_⟩
  · rw [ht]
    exact (((s.onFe_comparedAt _ _).trans (State.onFe_comparedAt ..)).trans (State.afterCompare_comparedAt hlast)).trans
      (State.driveActive_comparedAt ..)
  · rw [ht]
    exact State.driveActive_differed _ l u (by rw [hfe3]; exact hdiffered)
  · have hheld : ((((s.fe u.region).putUpdate l u).pairUpdate l u now).1).disagree.contains i = true := by
      simpa using hdiffered.disagree.2 hi2
    rw [ht, hl, State.fe_driveActive_same (by rw [hfe3]; exact hupd), hfe3]
    refine (FrontEnd.tget_driven_driveUpdate _ u hi).trans ?_
    rw [FrontEnd.keptSafe, hheld, if_pos rfl, hdiffered.agreedSafe, hsafe]
    simpa using hdiffered.agreed

/-- A literal vector changes nothing that an update sets in a die. -/
theorem State.fe_literalsMoved {β : Type} {p : FrontEnd → β} (hp : ∀ f : FrontEnd, p f.unsent = p f) (s : State) (r q : Nat) :
    p ((s.literalsMoved r).fe q) = p (s.fe q) := by
  rw [← hp, (s.literalsMoved_onlyVectors r).fe, hp]

theorem region_of_find {us : List Update} {r : Nat} {u : Update} (h : us.find? (fun u => u.region = r) = some u) : u.region = r := by
  simpa using List.find?_some h

theorem outputUpdatesAreDriven : Claims.OutputUpdatesAreDriven := by
  intro s l r beat u hfind
  let s1 := (s.at_ beat).onLane l (fun x => { x with updates := x.updates.erase u })
  have hexec := exec_outputUpdate (beat := beat) hfind
  have hr := region_of_find hfind
  have hservice : ∀ k, (s1.lane k).inService = (s.lane k).inService ∧ (s1.lane k).blk = (s.lane k).blk := fun k => by
    cases k <;> cases l <;> exact ⟨rfl, rfl⟩
  have hactive : s1.active = s.active := by cases l <;> rfl
  have hfe : ∀ q, s1.fe q = s.fe q := fun q => by cases l <;> rfl
  have hmoved := fun t : State => t.literalsMoved_comparedAt r
  refine ⟨fun hother hl hnone => ?_, fun v i ha hb hv hi hne => ?_⟩
  · obtain ⟨hcompared, hupd, hsafe, hcross, hdriven⟩ := outputUpdate_drives (max s.pkg.beat beat) hr
      (by rw [(hservice _).1]; exact hother) (hactive.trans hl) (by rw [hfe]; exact hnone)
    refine ⟨_, hexec, ?_, ?_, ?_, fun i hi hu => ?_, fun i hi hu => ?_, fun q hq => ?_⟩
    · rw [(State.literalsMoved_onlyVectors _ r).keeps (p := Lane.updates) (fun _ _ => rfl), hupd, State.lane_onLane, State.lane_at]
    · exact (State.fe_literalsMoved (p := FrontEnd.safeUnits) (fun _ => rfl) _ r r).trans hsafe
    · exact (State.fe_literalsMoved (p := FrontEnd.cross) (fun _ => rfl) _ r r).trans hcross
    · refine (State.fe_literalsMoved (p := fun f => tget 0 f.driven i) (fun _ => rfl) _ r r).trans ((hdriven i hi).trans ?_)
      rw [hu]
      rfl
    · refine (State.fe_literalsMoved (p := fun f => tget 0 f.driven i) (fun _ => rfl) _ r r).trans ((hdriven i hi).trans ?_)
      rw [hu, if_pos rfl, hfe]
    · exact ((hmoved _).fe q hq).trans ((hcompared.fe q hq).trans (hfe q))
  · obtain ⟨hcompared, hdiffered, hkept⟩ := outputUpdate_differs (s := s1) (max s.pkg.beat beat) hr
      ((hservice .a).1.trans ha) ((hservice .b).1.trans hb) (by rw [hfe]; exact hv) hi hne
    rw [hfe] at hdiffered hkept
    refine ⟨_, hexec, ?_, ?_, fun k => ?_, ?_, fun h2 hl hs => ?_⟩
    · rw [State.fe_literalsMoved (p := FrontEnd.lastDiff) (fun _ => rfl)]
      exact hdiffered.last
    · exact (State.fe_literalsMoved (p := FrontEnd.agreeRun) (fun _ => rfl) _ r r).trans hdiffered.run
    · rw [(hcompared.trans (hmoved _)).outDisagree, (hservice k).2]
      rfl
    · rw [State.fe_literalsMoved (p := FrontEnd.disagree) (fun _ => rfl)]
      exact hdiffered.disagree
    · exact (State.fe_literalsMoved (p := fun f => tget 0 f.driven i) (fun _ => rfl) _ r r).trans (hkept h2 (hactive.trans hl) hs)

theorem regionUpdateTimer_of_due {s : State} {l : LaneId} {r now : Nat} (hr : r < 8) (hx : (s.lane l).inService = true)
    (h : tget 0 (s.lane l).lastUpdate r + 50000 ≤ now) : s.regionUpdateTimer l r now = s.onLane l (fun x => x.repeatUpdate r now) := by
  simp [State.regionUpdateTimer, hr, hx, h]

theorem State.updateTimeout_of_due {s : State} {l : LaneId} {r now : Nat} {u : Update} (hu : (s.fe r).updateOf l = some u)
    (h : u.beat + 100000 ≤ now) (ha : s.a.inService = true) (hb : s.b.inService = true) :
    s.updateTimeout l r now =
      (let s1 := (s.onFe r (fun f => f.differ (List.range 64) (BitVec.allOnes 64) now)).afterCompare r
      match s.active with
      | some k => s1.onFe r (fun f => match f.updateOf k with | some v => f.driveUpdate v | none => f)
      | none => s1) := by
  unfold State.updateTimeout
  simp [hu, h, ha, hb] <;> rfl

/-- An update whose pair has not come within its time differs in every output. -/
theorem State.updateTimeout_differs {s : State} {l : LaneId} {r now : Nat} {u : Update} (hu : (s.fe r).updateOf l = some u)
    (h : u.beat + 100000 ≤ now) (ha : s.a.inService = true) (hb : s.b.inService = true) :
    let t := s.updateTimeout l r now
    s.ComparedAt t r 1 ∧ (t.fe r).lastDiff = List.range 64 ∧ (t.fe r).agreeRun = 0 ∧
      (t.fe r).disagree = (List.range 64).filter (s.fe r).lastDiff.contains := by
  intro t
  let s1 := s.onFe r (fun f => f.differ (List.range 64) (BitVec.allOnes 64) now)
  have hfe1 : s1.fe r = (s.fe r).differ (List.range 64) (BitVec.allOnes 64) now := by simp [s1]
  have hlast : (s1.fe r).lastDiff ≠ [] := by
    rw [hfe1]
    exact List.ne_nil_of_mem (List.mem_range.2 (by decide : 0 < 64))
  have hfe2 : (s1.afterCompare r).fe r = _ := (State.fe_afterCompare hlast r).trans hfe1
  have hcompared : s.ComparedAt (s1.afterCompare r) r 1 := (s.onFe_comparedAt r _).trans (State.afterCompare_comparedAt hlast)
  have ht : t = _ := State.updateTimeout_of_due hu h ha hb
  rw [ht]
  dsimp only
  split
  · refine ⟨hcompared.trans (State.onFe_comparedAt ..), ?_⟩
    rw [State.fe_onFe]
    split <;> (rw [hfe2]; exact ⟨rfl, rfl, rfl⟩)
  · refine ⟨hcompared, ?_⟩
    rw [hfe2]
    exact ⟨rfl, rfl, rfl⟩

theorem State.updateTimeout_of_early {s : State} {l : LaneId} {r now : Nat} {u : Update} (hu : (s.fe r).updateOf l = some u)
    (h : now < u.beat + 100000) : s.updateTimeout l r now = s := by
  simp [State.updateTimeout, hu, Nat.not_le.2 h]

theorem State.disagreementWindow_of_due {s : State} {r now t : Nat} (ht : (s.fe r).disagreeBeat = some t) (hfa : s.a.faultLine = false)
    (hfb : s.b.faultLine = false) (ha : s.a.inService = true) (hb : s.b.inService = true) (h : t + msBeats ≤ now) :
    s.disagreementWindow r now = (s.onFe r (fun f => { f with disagreeBeat := none })).raiseBoth (bitRegion r 6)
      (decide ((s.fe r).agreeRun < 16)) := by
  simp [State.disagreementWindow, ht, h, hfa, hfb, ha, hb]

theorem State.disagreementWindow_of_early {s : State} {r now t : Nat} (ht : (s.fe r).disagreeBeat = some t) (h : now < t + msBeats) :
    s.disagreementWindow r now = s := by
  simp [State.disagreementWindow, ht, Nat.not_le.2 h]

theorem outputUpdateRowsComplete : Claims.OutputUpdateRowsComplete := by
  intro s l r beat now
  refine ⟨fun u hu => exec_outputUpdate hu, fun hr hx h => ?_, fun h => ?_, fun u hu => ⟨fun h ha hb => ?_, fun h => ?_⟩,
    fun t ht hfa hfb ha hb => ⟨fun h => ?_, fun h => ?_⟩⟩
  · exact congrArg Host.Outcome.next (regionUpdateTimer_of_due hr (by rw [State.lane_at]; exact hx) (by rw [State.lane_at]; exact h))
  · refine congrArg Host.Outcome.next ?_
    have h' : ¬ tget 0 ((s.at_ beat).lane l).lastUpdate r + 50000 ≤ (s.at_ beat).pkg.beat := by
      rw [State.lane_at]
      exact Nat.not_le.2 h
    simp only [State.regionUpdateTimer, h', decide_false, Bool.and_false, Bool.false_eq_true, if_false]
  · obtain ⟨hcompared, hlast, hrun, hdis⟩ := State.updateTimeout_differs (s := s.at_ beat) (l := l) (r := r) (u := u) hu h ha hb
    have hall := hcompared.trans (State.literalsMoved_comparedAt _ r)
    refine ⟨_, rfl, ?_, ?_, ?_, fun k => ?_, hall.fe⟩
    · exact (State.fe_literalsMoved (p := FrontEnd.lastDiff) (fun _ => rfl) _ r r).trans hlast
    · exact (State.fe_literalsMoved (p := FrontEnd.agreeRun) (fun _ => rfl) _ r r).trans hrun
    · exact (State.fe_literalsMoved (p := FrontEnd.disagree) (fun _ => rfl) _ r r).trans hdis
    · exact (hall.outDisagree k).trans (by rw [State.lane_at]; rfl)
  · exact congrArg (fun t : State => Host.Outcome.next (t.literalsMoved r)) (State.updateTimeout_of_early (s := s.at_ beat) hu h)
  · exact congrArg (fun t : State => Host.Outcome.next (t.literalsMoved r))
      (State.disagreementWindow_of_due (s := s.at_ beat) ht hfa hfb ha hb h)
  · exact congrArg (fun t : State => Host.Outcome.next (t.literalsMoved r)) (State.disagreementWindow_of_early (s := s.at_ beat) ht h)

/-- Settles O39: each row is its case of the comparison. That a pair counts one disagreement however many outputs differ is the model's
choice (log entry 123), as is the number of a repetition (log entry 125). -/
theorem frameAndUpdateRowsComplete : Obligations.FrameAndUpdateRowsComplete :=
  ⟨sampleFrameRowsComplete, outputUpdatesAreDriven, outputUpdateRowsComplete⟩

end Sys2Proof.Machine
end

section
/-! SUPPORT. The error states of a CAN controller, and the detectors (R16 to R19, R27, R425 to R428, R487 to R491). -/

namespace Sys2Proof.Machine

/-! ### A bus after a detection -/

theorem State.bus_flag (s : State) (l : LaneId) (b : Nat) (lasting : Bool) (k : LaneId) (n : Nat) :
    ((s.flag l b lasting).lane k).bus n = (s.lane k).bus n :=
  (s.flag_onlyFlags l b lasting).keeps (p := fun x => x.bus n) (fun _ => rfl) k

@[simp] theorem Lane.collects_onBus (x : Lane) (n : Nat) (f : BusSt → BusSt) : (x.onBus n f).collects = x.collects := rfl

/-- A bus that changes, with a detection of its own. -/
theorem State.bus_flag_onBus (s : State) (l : LaneId) (n b : Nat) (f : BusSt → BusSt) (lasting : Bool) :
    (((s.onLane l (fun x => x.onBus n f)).flag l b lasting).lane l).bus n = f ((s.lane l).bus n) := by
  rw [State.bus_flag, State.lane_onLane, Lane.bus_onBus]

theorem State.hasBit_flag_onBus {s : State} {l : LaneId} {b : Nat} (n : Nat) (f : BusSt → BusSt) (lasting : Bool)
    (hc : (s.lane l).collects = true) (hb : bitClass b ≠ 0) :
    (((s.onLane l (fun x => x.onBus n f)).flag l b lasting).lane l).hasBit b = true :=
  State.flag_hasBit _ l lasting (by rw [State.lane_onLane]; exact hc) hb

theorem bitClass_busBit {n : Nat} (hn : n < 8) : bitClass (busBit n) = 1 := by
  revert hn
  revert n
  decide

/-! ### Bus-off -/

/-- Mailboxes whose frames are dropped. -/
def emptied (tx : Tab TxMailbox) : Tab TxMailbox := tx.foldl (fun t e => tput {} t e.1 { e.2 with content := none }) []

theorem content_emptied (tx : Tab TxMailbox) (m : Nat) : (tget {} (emptied tx) m).content = none := by
  have hgo : ∀ (es t : Tab TxMailbox), (tget {} t m).content = none →
      (tget {} (es.foldl (fun t e => tput {} t e.1 { e.2 with content := none }) t) m).content = none := by
    intro es
    induction es with
    | nil => exact fun t h => h
    | cons e es ih =>
      intro t h
      refine ih _ ?_
      rw [tget_tput]
      split
      · rfl
      · exact h
  exact hgo tx [] rfl

/-- A controller that enters bus-off at beat `now`. -/
def BusSt.wentOff (b : BusSt) (now : Nat) : BusSt :=
  let ts := now :: b.offBeats.filter (fun t => decide (now < t + secBeats))
  let wait := decide (8 ≤ ts.length)
  { b with state := 2, offBeats := ts, busoff := b.busoff + 1, txOffDrop := b.txOffDrop + BitVec.ofNat 32 b.txHeld,
           queue := [], tx := emptied b.tx, recovering := busAuto b.ctl && !wait,
           waitUntil := if busAuto b.ctl && wait then some (now + secBeats) else none }

theorem State.enterBusOff_eq {s : State} {l : LaneId} {n : Nat} (now : Nat) (hn : n < 8) (hen : busEn ((s.lane l).bus n).ctl = true)
    (hst : ((s.lane l).bus n).state < 2) :
    s.enterBusOff l n now =
      (s.onLane l (fun x => x.onBus n (fun _ => ((s.lane l).bus n).wentOff now))).flag l (busBit n) false := by
  unfold State.enterBusOff
  refine (if_pos (by simp [hn, hen, hst])).trans ?_
  exact congrArg (fun t : State => t.flag l (busBit n) false) (State.onLane_congr rfl)

theorem busOff_completes (s : State) (l : LaneId) (n beat : Nat) (hn : n < 8) (hen : busEn ((s.lane l).bus n).ctl = true)
    (hst : ((s.lane l).bus n).state < 2) :
    ∃ t, exec (.busOff l n beat) s = .next t ∧ (t.lane l).bus n = ((s.lane l).bus n).wentOff (max s.pkg.beat beat) ∧
      ((s.lane l).collects = true → (t.lane l).hasBit (busBit n) = true) := by
  have heq := State.enterBusOff_eq (s := s.at_ beat) (l := l) (max s.pkg.beat beat) hn (by rw [State.lane_at]; exact hen)
    (by rw [State.lane_at]; exact hst)
  refine ⟨_, congrArg Host.Outcome.next heq, ?_, fun hc => ?_⟩
  · rw [State.bus_flag_onBus, State.lane_at]
  · exact State.hasBit_flag_onBus n _ false (by rw [State.lane_at]; exact hc) (by rw [bitClass_busBit hn]; decide)

/-! ### Error counters -/

/-- A controller whose error counters move. -/
def BusSt.counted (b : BusSt) (tec rec : Nat) : BusSt := { b with tec := tec, recCnt := rec }

theorem canBusError_active (s : State) (l : LaneId) {n tec rec : Nat} (hn : n < 8) (hen : busEn ((s.lane l).bus n).ctl = true)
    (hst : ((s.lane l).bus n).state < 2) (ht : tec < 256) (hr : rec < 256) :
    ∃ t, exec (.canBusError l n tec rec) s = .next t ∧ ((t.lane l).bus n).tec = tec ∧ ((t.lane l).bus n).recCnt = rec ∧
      ((t.lane l).bus n).state = (if 128 ≤ tec ∨ 128 ≤ rec then 1 else 0) ∧
      ((s.lane l).collects = true → ((t.lane l).bus n).state ≠ ((s.lane l).bus n).state → (t.lane l).hasBit (busBit n) = true) := by
  let s1 := s.onLane l (fun x => x.onBus n (fun b => b.counted (tec % 512) (rec % 256)))
  let st : Nat := if 128 ≤ tec ∨ 128 ≤ rec then 1 else 0
  have hbus : (s1.lane l).bus n = ((s.lane l).bus n).counted tec rec := by
    rw [State.lane_onLane, Lane.bus_onBus, Nat.mod_eq_of_lt hr,
      Nat.mod_eq_of_lt (by omega : tec < 512)]
  have hexec : exec (.canBusError l n tec rec) s = .next (if st = ((s.lane l).bus n).state then s1
      else (s1.onLane l (fun x => x.onBus n (fun b => { b with state := st }))).flag l (busBit n) false) := by
    refine congrArg Host.Outcome.next ?_
    simp only [State.busError, hn, hen, hst, decide_true, Bool.and_self, if_true, Nat.not_le.2 ht, if_false, Bool.or_eq_true,
      decide_eq_true_eq]
    rfl
  by_cases h : st = ((s.lane l).bus n).state
  · refine ⟨s1, by rw [hexec, if_pos h], ?_⟩
    rw [hbus]
    exact ⟨rfl, rfl, h.symm, fun _ hne => absurd rfl hne⟩
  · refine ⟨_, hexec.trans (by rw [if_neg h]), ?_⟩
    rw [State.bus_flag_onBus, hbus]
    refine ⟨rfl, rfl, rfl, fun hc _ => State.hasBit_flag_onBus n _ false ?_ (by rw [bitClass_busBit hn]; decide)⟩
    rw [State.lane_onLane]
    exact hc

theorem canBusError_off (s : State) (l : LaneId) {n tec : Nat} (rec : Nat) (hn : n < 8) (hen : busEn ((s.lane l).bus n).ctl = true)
    (hst : ((s.lane l).bus n).state < 2) (ht : 256 ≤ tec) :
    ∃ t, exec (.canBusError l n tec rec) s = .next t ∧ ((t.lane l).bus n).state = 2 := by
  let s1 := s.onLane l (fun x => x.onBus n (fun b => b.counted (tec % 512) (rec % 256)))
  have hbus : (s1.lane l).bus n = ((s.lane l).bus n).counted (tec % 512) (rec % 256) := by
    rw [State.lane_onLane, Lane.bus_onBus]
  have hexec : exec (.canBusError l n tec rec) s = .next (s1.enterBusOff l n s.pkg.beat) := by
    refine congrArg Host.Outcome.next ?_
    simp only [State.busError, hn, hen, hst, decide_true, Bool.and_self, if_true, ht]
    rfl
  refine ⟨_, hexec.trans (congrArg Host.Outcome.next (State.enterBusOff_eq s.pkg.beat hn (by rw [hbus]; exact hen)
    (by rw [hbus]; exact hst))), ?_⟩
  rw [State.bus_flag_onBus]
  rfl

theorem State.busRecovered_of_recovering {s : State} {l : LaneId} {n : Nat} (hn : n < 8) (hst : ((s.lane l).bus n).state = 2)
    (hrec : ((s.lane l).bus n).recovering = true) :
    s.busRecovered l n = (s.onLane l (fun x => x.onBus n (fun b =>
      { b with state := 0, recovering := false, tec := 0, recCnt := 0 }))).flag l (busBit n) false := by
  simp only [State.busRecovered, hn, hst, hrec, decide_true, Bool.and_self, if_true]

theorem State.busRecovered_of_not {s : State} {l : LaneId} {n : Nat}
    (h : ((s.lane l).bus n).state ≠ 2 ∨ ((s.lane l).bus n).recovering = false) : s.busRecovered l n = s := by
  refine if_neg ?_
  obtain h | h := h <;> simp [h]

/-- Settles O55. -/
theorem canErrorRowsComplete : Obligations.CanErrorRowsComplete := by
  intro s l n beat hn b now
  refine ⟨fun hen hst => ?_, fun hst hrec => ?_, fun h => ?_, fun e he => ⟨fun h => ?_, fun h => ?_⟩, fun hen => ?_,
    congrArg Host.Outcome.next (if_pos hn), fun tec rec hen hst ht hr => canBusError_active s l hn hen hst ht hr,
    fun tec rec hen hst ht => canBusError_off s l rec hn hen hst ht⟩
  · obtain ⟨t, ht, hbus, hbit⟩ := busOff_completes s l n beat hn hen hst
    refine ⟨t, ht, ?_⟩
    intro c many
    have hc : c = b.wentOff now := hbus
    have hmany : decide (8 ≤ (now :: b.offBeats.filter (fun t => decide (now < t + secBeats))).length) = decide many := rfl
    rw [hc]
    refine ⟨rfl, rfl, content_emptied _, rfl, rfl, fun ha hm => ?_, fun ha hm => ?_, fun ha => ?_, hbit⟩
    · simpa [BusSt.wentOff, ha, many] using hm
    · simpa [BusSt.wentOff, ha, many] using hm
    · simp [BusSt.wentOff, ha]
  · exact congrArg Host.Outcome.next (State.busRecovered_of_recovering hn hst hrec)
  · exact congrArg Host.Outcome.next (State.busRecovered_of_not h)
  · refine congrArg Host.Outcome.next ?_
    have he' : (((s.at_ beat).lane l).bus n).waitUntil = some e := by rw [State.lane_at]; exact he
    have h' : e ≤ (s.at_ beat).pkg.beat := h
    simp only [he', hn, h', decide_true, Bool.and_self, if_true]
  · refine congrArg Host.Outcome.next ?_
    have he' : (((s.at_ beat).lane l).bus n).waitUntil = some e := by rw [State.lane_at]; exact he
    have h' : ¬ e ≤ (s.at_ beat).pkg.beat := Nat.not_le.2 h
    simp only [he', h', decide_false, Bool.and_false, Bool.false_eq_true, if_false]
  · exact congrArg Host.Outcome.next (if_pos (by rw [hen]; simp [hn]))

end Sys2Proof.Machine
end

section
/-! SUPPORT. The detectors (R16 to R19, R27, R487 to R491, Table 14-1). -/

namespace Sys2Proof.Machine

/-! ### Detections by class -/

/-- A detection of a class that takes no lane out of service is recorded, and nothing else. -/
theorem State.raise_flag {s : State} {l : LaneId} {b : Nat} (lasting : Bool) (hl : bitClass b ≠ 2) (hg : bitClass b ≠ 4) :
    s.raise l b lasting = s.flag l b lasting := by
  by_cases hc : (s.lane l).collects = true
  · simp [State.raise, hc, hl, hg]
  · have hsame : s.flag l b lasting = s := by
      refine (State.onLane_congr (g := fun x => x) (if_neg hc)).trans ?_
      cases l <;> rfl
    rw [hsame, State.raise, if_pos (by simpa using hc)]

theorem State.raise_classG {s : State} {l : LaneId} {b : Nat} (lasting : Bool) (hc : (s.lane l).collects = true)
    (hb : (s.lane l).hasBit b = false) (hg : bitClass b = 4) : s.raise l b lasting = (s.flag l b lasting).haltG := by
  simp [State.raise, hc, hb, hg]

theorem bitClass_corrected {n : Nat} (hn : n < 32) : bitClass (128 + n) = 1 := by
  revert hn
  revert n
  decide

theorem bitClass_margin {n : Nat} (hn : n < 16) : bitClass (80 + n) = 1 := by
  revert hn
  revert n
  decide

theorem Lane.corrCount_setBit (x : Lane) (l : LaneId) (b : Nat) (lasting : Bool) :
    (x.setBit l b lasting).blk.flt.corrCount = x.blk.flt.corrCount := by
  unfold Lane.setBit
  dsimp only
  split
  · split <;> rfl
  · split
    · split <;> rfl
    · rw [(Lane.enter_keeps ..).1]
      split <;> rfl

theorem State.corrCount_flag (s : State) (l : LaneId) (b : Nat) (lasting : Bool) :
    ((s.flag l b lasting).lane l).blk.flt.corrCount = (s.lane l).blk.flt.corrCount := by
  rw [State.flag, State.lane_onLane]
  split
  · exact Lane.corrCount_setBit ..
  · rfl

/-! ### Stages, test tokens and stores -/

theorem State.testToken_passes {s : State} {l : LaneId} {n e : Nat} (hn : n < 32) (hc : (s.lane l).collects = true)
    (he : (s.lane l).token.lookup n = some e) :
    (((s.testToken l n).lane l).token.lookup n = some s.pkg.beat) ∧
      (((s.testToken l n).lane l).blk.flt.tokenMax = (s.lane l).blk.flt.tokenMax ∨
        (s.lane l).blk.flt.tokenMax.toNat < (s.pkg.beat - e) / 100 ∧
          ((s.testToken l n).lane l).blk.flt.tokenMax = w32 ((s.pkg.beat - e) / 100)) := by
  have ht : s.testToken l n = s.onLane l (fun x => x.tokenPasses n s.pkg.beat) := if_pos (by simp [stageGroups, hn, hc])
  rw [ht, State.lane_onLane]
  refine ⟨lookup_oset_same .., ?_⟩
  simp only [Lane.tokenPasses, he]
  by_cases h : (s.lane l).blk.flt.tokenMax.toNat < (s.pkg.beat - e) / 100
  · exact .inr ⟨h, if_pos h⟩
  · exact .inl (if_neg h)

theorem State.eccError_uncorrectable {s : State} {l : LaneId} {n : Nat} (us : Nat) (hn : n < 32) (hc : (s.lane l).collects = true) :
    s.eccError l n true us = (s.onLane l (fun x => x.onFlt (fun f =>
      { f with scrubMax := if f.scrubMax.toNat < us then w32 us else f.scrubMax }))).raise l (96 + n) true := by
  simp [State.eccError, Nat.not_le.2 hn, hc]

theorem State.eccError_corrected {s : State} {l : LaneId} {n : Nat} (us : Nat) (hn : n < 32) (hc : (s.lane l).collects = true) :
    s.eccError l n false us = (s.onLane l (fun x => x.onFlt (fun f =>
      { f with scrubMax := if f.scrubMax.toNat < us then w32 us else f.scrubMax, corrCount := f.corrCount + 1 }))).flag l
        (128 + n) false := by
  simp [State.eccError, Nat.not_le.2 hn, hc]

theorem State.eccError_corrected_counts {s : State} {l : LaneId} {n : Nat} (us : Nat) (hn : n < 32)
    (hc : (s.lane l).collects = true) :
    ((s.eccError l n false us).lane l).hasBit (128 + n) = true ∧
      ((s.eccError l n false us).lane l).blk.flt.corrCount = (s.lane l).blk.flt.corrCount + 1 ∧
      ((s.eccError l n false us).lane l).blk.lane.role = (s.lane l).blk.lane.role := by
  rw [State.eccError_corrected us hn hc]
  refine ⟨State.flag_hasBit _ l false (by rw [State.lane_onLane]; exact hc) (by rw [bitClass_corrected hn]; decide), ?_, ?_⟩
  · rw [State.corrCount_flag, State.lane_onLane]
    rfl
  · rw [(State.flag_keeps _ l l _ _).2.2.1, State.lane_onLane]
    rfl

theorem State.marginAlarm_raises {s : State} {l : LaneId} {n : Nat} (hn : n < 16) (hc : (s.lane l).collects = true) :
    ((s.marginAlarm l n).lane l).blk.pwr = (s.lane l).blk.pwr.alarm s.pkg.beat ∧
      ((s.marginAlarm l n).lane l).hasBit (80 + n) = true := by
  have ht : s.marginAlarm l n = (s.onLane l (fun x => x.onPwr (fun p => p.alarm s.pkg.beat))).flag l (80 + n) false :=
    if_pos (by simp [hn, hc])
  rw [ht]
  refine ⟨?_, State.flag_hasBit _ l false (by rw [State.lane_onLane]; exact hc) (by rw [bitClass_margin hn]; decide)⟩
  rw [(State.flag_keeps _ l l _ _).2.2.2.1, State.lane_onLane]
  rfl

/-! ### Clocks -/

theorem State.loseClock_lane (s : State) (l : LaneId) (k : Nat) :
    ((s.loseClock l k).lane l).clockLost k = true ∧ (s.loseClock l k).lane l.other = s.lane l.other := by
  refine ⟨?_, by simp [State.loseClock]⟩
  rw [State.loseClock, State.lane_onLane]
  split
  · next h => exact h
  · simp [Lane.clockLost]

theorem State.dom_answerPosted (s : State) (k : LaneId) (h : Hdr) (st : Status) : (s.answerPosted k h st).pkg.dom = s.pkg.dom := by
  refine foldl_keeps (p := fun t : State => t.pkg.dom) (fun u o => ?_) _ _
  have hfinish := fun st ps => (u.finish_onlyReplies k o st ps).dom
  dsimp only
  split
  · split
    · rw [(State.onLane_fields ..).1]
      exact hfinish ..
    · exact hfinish ..
  · exact hfinish ..

theorem State.dom_postOutcome (s : State) (l : LaneId) (h : Hdr) (st : Status) : (s.postOutcome l h st).pkg.dom = s.pkg.dom := by
  have hboth : ((s.answerPosted l h st).answerPosted l.other h st).pkg.dom = s.pkg.dom := by
    rw [State.dom_answerPosted, State.dom_answerPosted]
  unfold State.postOutcome
  dsimp only
  split
  · split
    · exact hboth
    · exact hboth
  · exact hboth

theorem State.dom_dropPosts (s : State) : s.dropPosts.pkg.dom = { s.pkg.dom with busy := [] } := by
  unfold State.dropPosts
  dsimp only
  refine foldl_keeps (p := fun t : State => t.pkg.dom) (fun t p => ?_) _ _
  split
  · rw [State.dom_postOutcome]
    simp
  · simp

theorem State.dom_t3Loss (s : State) (l : LaneId) :
    (s.t3Loss l).pkg.dom = { s.pkg.dom with t3Lost := true, timeValid := false, busy := [] } := by
  rw [State.t3Loss, State.raise_flag true (by decide) (by decide), (State.flag_keeps _ l l _ _).2.2.2.2, State.dom_dropPosts]
  rfl

/-! ### Supervisors and collectors -/

theorem State.supervisorTest_passed {s : State} {sup : Nat} (h : sup < 2) :
    sup ∉ (s.supervisorTest sup true).pkg.supFailed ∧ ∀ k, ((s.supervisorTest sup true).lane k).hasCause (176 + sup) = false ∧
      ((s.supervisorTest sup true).lane k).blk.flt.sticky = (s.lane k).blk.flt.sticky := by
  have ht : s.supervisorTest sup true = ((((s.onLane .a (fun x => x.onPwr (fun p => p.tested sup true))).onLane .b
      (fun x => x.onPwr (fun p => p.tested sup true))).onPkg (fun k => { k with supFailed := k.supFailed.filter (· ≠ sup) })).endCauseBoth
        (176 + sup)) := by
    simp [State.supervisorTest, Nat.not_le.2 h]
  rw [ht]
  refine ⟨by simp [State.endCauseBoth, State.onPkg], fun k => ?_⟩
  rw [State.lane_endCauseBoth]
  refine ⟨by simp [Lane.hasCause, Lane.endCause, Lane.onFlt], ?_⟩
  cases k <;> rfl

theorem State.bothSupervisors_of_one {s : State} {l : LaneId} {sup : Nat} (h : sup < 2) (hb : (s.lane l).hasBit (177 - sup) = false) :
    s.bothSupervisors l = s := by
  refine if_neg ?_
  obtain rfl | rfl : sup = 0 ∨ sup = 1 := by omega
  · simp [hb]
  · simp [hb]

theorem State.supervisorTest_failed {s : State} {l : LaneId} {sup : Nat} (h : sup < 2) (hc : (s.lane l).collects = true)
    (hb : ∀ k, (s.lane k).hasBit (177 - sup) = false) :
    sup ∈ (s.supervisorTest sup false).pkg.supFailed ∧ ((s.supervisorTest sup false).lane l).hasBit (176 + sup) = true ∧
      (s.supervisorTest sup false).pkg.halted = s.pkg.halted := by
  let s1 := ((s.onLane .a (fun x => x.onPwr (fun p => p.tested sup false))).onLane .b
    (fun x => x.onPwr (fun p => p.tested sup false))).onPkg (fun k => { k with supFailed := insSorted sup k.supFailed })
  have hbits : ∀ k c, (s1.lane k).hasBit c = (s.lane k).hasBit c ∧ (s1.lane k).collects = (s.lane k).collects := fun k c => by
    cases k <;> exact ⟨rfl, rfl⟩
  have hother : ∀ k, ((s1.flagBoth (176 + sup) true).lane k).hasBit (177 - sup) = false := fun k => by
    have hne : 177 - sup ≠ 176 + sup := by omega
    rw [State.flagBoth, State.flag_hasBit_other _ _ _ _ (.inl hne), State.flag_hasBit_other _ _ _ _ (.inl hne), (hbits k _).1, hb]
  have ht : s.supervisorTest sup false = s1.flagBoth (176 + sup) true := by
    have hstep : s.supervisorTest sup false = ((s1.flagBoth (176 + sup) true).bothSupervisors .a).bothSupervisors .b := by
      simp [State.supervisorTest, Nat.not_le.2 h, s1]
    rw [hstep, State.bothSupervisors_of_one h (hother .a), State.bothSupervisors_of_one h (hother .b)]
  have hpkg := (s1.flagBoth_onlyFlags (176 + sup) true).pkg
  rw [ht]
  refine ⟨?_, ?_, by rw [hpkg]; rfl⟩
  · rw [hpkg]
    exact mem_insSorted.2 (.inl rfl)
  · exact s1.flagBoth_hasBit l true ((hbits l 0).2.trans hc) (by
      obtain rfl | rfl : sup = 0 ∨ sup = 1 := by omega
      · decide
      · decide)

theorem State.collectorDiffers_halts {s : State} {l : LaneId} (hc : (s.lane l).collects = true) (hb : (s.lane l).hasBit 0 = false) :
    (s.collectorDiffers l).pkg.halted = true := by
  have ht : s.collectorDiffers l = (s.onLane l (fun x => x.onFlt (fun f => { f with dupOk := false }))).raise l 0 true := if_pos hc
  rw [ht, State.raise_classG true (by rw [State.lane_onLane]; exact hc) (by rw [State.lane_onLane]; exact hb) (by decide)]
  exact State.haltG_halted _

/-- Settles O56: each row is its detection, recorded by the class that Table 14-1 gives its bit. -/
theorem detectorRowsComplete : Obligations.DetectorRowsComplete := by
  intro s l n beat hcollects now t
  have hc : (t.lane l).collects = true := by rw [State.lane_at]; exact hcollects
  have hrun : ¬ (!(t.lane l).collects) = true := by rw [hc]; decide
  have hlane : ∀ k, t.lane k = s.lane k := State.lane_at s beat
  refine ⟨fun hn => ⟨congrArg Host.Outcome.next (if_pos hn), congrArg Host.Outcome.next (if_pos hn), fun e he _ => ?_, fun us =>
    ⟨congrArg Host.Outcome.next (State.eccError_uncorrectable us hn hc), ?_⟩⟩, fun hn => ?_, ⟨congrArg Host.Outcome.next (if_neg hrun),
    congrArg Host.Outcome.next (if_neg hrun), congrArg Host.Outcome.next (if_neg hrun), fun ho => ?_, fun ho => ?_,
    congrArg Host.Outcome.next (if_neg hrun), congrArg Host.Outcome.next (if_neg hrun), fun hb => ?_, fun hb => ?_, fun k => ?_, ?_⟩,
    fun sup hsup => ⟨?_, fun hb => ?_⟩, fun hb => ?_⟩
  · have h := State.testToken_passes hn hc (by rw [hlane]; exact he)
    rw [hlane] at h
    exact ⟨_, rfl, h⟩
  · have h := State.eccError_corrected_counts us hn hc
    rw [hlane] at h
    exact ⟨_, rfl, h⟩
  · obtain ⟨hpwr, hbit⟩ := State.marginAlarm_raises hn hc
    rw [hlane] at hpwr
    exact ⟨_, rfl, by rw [hpwr]; rfl, by rw [hpwr]; rfl, by rw [hpwr]; rfl, hbit⟩
  · exact congrArg Host.Outcome.next ((if_neg hrun).trans (if_neg ho))
  · exact congrArg Host.Outcome.next ((if_neg hrun).trans (if_pos ho))
  · exact congrArg Host.Outcome.next ((if_neg hrun).trans (if_neg (by rw [hlane, hb]; decide)))
  · exact congrArg Host.Outcome.next ((if_neg hrun).trans (if_pos (by rw [hlane, hb])))
  · have h := t.loseClock_lane l k
    rw [hlane] at h
    exact h
  · have ht : exec (.clockLoss l 3 beat) s = .next (t.t3Loss l) := congrArg Host.Outcome.next (if_neg hrun)
    exact ⟨_, ht, by rw [State.dom_t3Loss], by rw [State.dom_t3Loss], by rw [State.dom_t3Loss], by rw [State.dom_t3Loss]; rfl⟩
  · obtain ⟨hnot, hrest⟩ := State.supervisorTest_passed (s := t) hsup
    refine ⟨_, rfl, hnot, fun k => ⟨(hrest k).1, ?_⟩⟩
    rw [(hrest k).2, hlane]
  · exact ⟨_, rfl, State.supervisorTest_failed hsup hc (fun k => by rw [hlane]; exact hb k)⟩
  · exact ⟨_, rfl, State.collectorDiffers_halts hc (by rw [hlane]; exact hb)⟩

end Sys2Proof.Machine
end

section
/-! SUPPORT. The frames of a CAN controller (R34, R413 to R424). -/

namespace Sys2Proof.Machine

/-! ### Filling the mailboxes from the queue -/

/-- Filling the mailboxes takes frames off the queue, and leaves the sequence byte as it was. -/
theorem BusSt.fill_keeps (k : Nat) (b : BusSt) : (b.fill k).seq = b.seq ∧ ∀ q ∈ (b.fill k).queue, q ∈ b.queue := by
  induction k generalizing b with
  | zero => exact ⟨rfl, fun _ h => h⟩
  | succ k ih =>
    unfold BusSt.fill
    split
    · exact ⟨rfl, fun _ h => h⟩
    · next q r hq =>
      have hrest : ∀ c : BusSt, c.seq = b.seq → c.queue = r → (c.fill k).seq = b.seq ∧ ∀ p ∈ (c.fill k).queue, p ∈ b.queue :=
        fun c hseq hc => ⟨(ih c).1.trans hseq, fun p hp => by
          rw [hq]
          exact List.mem_cons_of_mem _ (hc ▸ (ih c).2 p hp)⟩
      split
      · exact hrest _ rfl rfl
      · split
        · exact hrest _ rfl rfl
        · exact ⟨rfl, fun _ h => h⟩

theorem BusSt.queue_dropOld {b : BusSt} {now : Nat} {q : CanFrame × Nat} (h : q ∈ (b.dropOld now).queue) :
    q ∈ b.queue ∧ now < q.2 + ageBeats := by
  have hq := (BusSt.fill_keeps 65 _).2 q h
  simpa using hq

/-! ### Intake -/

theorem execCanIntake_eq {s : State} {l : LaneId} {n : Nat} {f : Lane → Lane} (hn : n < 8)
    (h : (let y := (s.lane l).canIntake l n
      if (s.lane l).joining then
        { y with open_ := (s.lane l).open_, openBytes := (s.lane l).openBytes, held := (s.lane l).held, arrivals := (s.lane l).arrivals }
      else y) = f (s.lane l)) : exec (.canIntake l n) s = .next (s.onLane l f) :=
  congrArg Host.Outcome.next ((if_pos hn).trans (State.onLane_congr h))

theorem Lane.canIntake_of_joining {x : Lane} {l : LaneId} {n : Nat} {q : Option Nat} {h : CanHeld}
    (hlow : (x.bus n).lowest = some (q, h)) (hx : x.inService = true) (hj : x.joining = true) :
    x.canIntake l n = x.onBus n (fun b => b.readDone q) := by
  simp [Lane.canIntake, hlow, hx, hj]

theorem Lane.canIntake_of_holding {x : Lane} {l : LaneId} {n : Nat} {q : Option Nat} {h : CanHeld}
    (hlow : (x.bus n).lowest = some (q, h)) (hx : x.inService = true) (hj : x.joining = false)
    (hb : x.holdsBack (EventBody.can h.f h.stamp (decide (l = .b))).size = true) : x.canIntake l n = x.holdCan n h.index := by
  simp [Lane.canIntake, hlow, hx, hj, hb]

theorem Lane.canIntake_of_room {x : Lane} {l : LaneId} {n : Nat} {q : Option Nat} {h : CanHeld}
    (hlow : (x.bus n).lowest = some (q, h)) (hx : x.inService = true) (hj : x.joining = false)
    (hb : x.holdsBack (EventBody.can h.f h.stamp (decide (l = .b))).size = false) :
    x.canIntake l n =
      (let z := ((x.onBus n (fun b => { b.readDone q with heldIndex := none })).onRing 60 (fun g =>
        { g with posted := g.posted + 1, taken := g.taken + 1 })).enter l 2 n 0 (.can h.f h.stamp (decide (l = .b)))
      if z.holdsBack 0 then z else z.onBus n BusSt.beginRead) := by
  simp [Lane.canIntake, hlow, hx, hj, hb]

theorem Lane.canIntake_of_none {x : Lane} (l : LaneId) {n : Nat} (hlow : (x.bus n).lowest = none) : x.canIntake l n = x := by
  simp [Lane.canIntake, hlow]

/-! ### Transmission -/

/-- The controller after it has taken an entry with words `w` and bytes `bs`, posted at `beat`, in lane `l`. -/
def BusSt.taken (b : BusSt) (l : LaneId) (aServes : Bool) (bs : List Byte) (beat : Nat) : BusSt :=
  let single := busSingle b.ctl
  let data := (if single then [] else [b.seq]) ++ (bs.drop 8).take (field (entryWord bs 0) 22 16)
  let b1 := if single then b else { b with seq := b.seq + 1 }
  let off := { b1 with txOffDrop := b1.txOffDrop + 1 }
  if single && l = .b then (if aServes then b1 else off)
  else if b1.state = 2 then off
  else if 64 ≤ b1.queue.length then { b1 with txQfullDrop := b1.txQfullDrop + 1 }
  else BusSt.fill 65 { b1 with queue := b1.queue ++ [(txFrameOf b.state data bs, beat)] }

theorem State.canTake_of_closed {s : State} {l : LaneId} {e : RingEntry} {g : Ring} (ht : ((s.lane l).ring 61).take = some (e, g))
    (hclosed : (s.lane l).blk.lane.gatesClosed = true) : s.canTake l = s := by
  simp [State.canTake, ht, hclosed]

theorem State.canTake_of_open {s : State} {l : LaneId} {e : RingEntry} {g : Ring} {n : Nat}
    (ht : ((s.lane l).ring 61).take = some (e, g)) (hopen : (s.lane l).blk.lane.gatesClosed = false) (hx : (s.lane l).releases = true)
    (hn : field (entryWord e.bytes 0) 10 8 = n) :
    s.canTake l = s.onLane l (fun x => (x.onRing 61 (fun _ => g)).onBus n
      (fun _ => ((s.lane l).bus n).taken l s.a.inService e.bytes e.posted)) := by
  subst hn
  unfold State.canTake
  simp only [ht, hopen, hx, Bool.not_true, Bool.or_self, Bool.false_eq_true, if_false]
  rfl

theorem BusSt.seq_taken (b : BusSt) (l : LaneId) (aServes : Bool) (bs : List Byte) (beat : Nat) :
    (b.taken l aServes bs beat).seq = if busSingle b.ctl then b.seq else b.seq + 1 := by
  unfold BusSt.taken
  cases hsingle : busSingle b.ctl
  · simp only [Bool.false_and, Bool.false_eq_true, if_false]
    split
    · rfl
    · split
      · rfl
      · exact (BusSt.fill_keeps _ _).1
  · simp only [Bool.true_and, if_true]
    split
    · split <;> rfl
    · split
      · rfl
      · split
        · rfl
        · exact (BusSt.fill_keeps _ _).1

section
variable {b : BusSt} (l : LaneId) (aServes : Bool) (bs : List Byte) (beat : Nat) (hsingle : busSingle b.ctl = false)
include hsingle

theorem BusSt.taken_of_off (hst : b.state = 2) :
    b.taken l aServes bs beat = { b with seq := b.seq + 1, txOffDrop := b.txOffDrop + 1 } := by
  simp [BusSt.taken, hsingle, hst]

theorem BusSt.taken_of_full (hst : b.state < 2) (hq : 64 ≤ b.queue.length) :
    b.taken l aServes bs beat = { b with seq := b.seq + 1, txQfullDrop := b.txQfullDrop + 1 } := by
  simp [BusSt.taken, hsingle, Nat.ne_of_lt hst, hq]

theorem BusSt.taken_of_room (hst : b.state < 2) (hq : b.queue.length < 64) :
    b.taken l aServes bs beat = BusSt.fill 65 { b with
      seq := b.seq + 1, queue := b.queue ++ [(txFrameOf b.state (b.seq :: (bs.drop 8).take (field (entryWord bs 0) 22 16)) bs, beat)] } := by
  simp [BusSt.taken, hsingle, Nat.ne_of_lt hst, Nat.not_le.2 hq]

end

theorem State.canComplete_of_content {s : State} {l : LaneId} {n m : Nat} {q : CanFrame × Nat}
    (hq : (tget {} ((s.lane l).bus n).tx m).content = some q) (hen : busEn ((s.lane l).bus n).ctl = true)
    (hst : ((s.lane l).bus n).state < 2) (hstuck : ((s.lane l).bus n).stuck = false) (hclock : (s.lane l).clockLost 2 = false)
    (hopen : (s.lane l).blk.lane.gatesClosed = false) (hsingle : ¬ (busSingle ((s.lane l).bus n).ctl = true ∧ l = .b)) :
    s.canComplete l n m = (s.onLane l (fun x => x.onBus n (fun b => BusSt.fill 65
      { b with tx := tmod {} b.tx m (fun t => { t with content := none }), txFrames := b.txFrames + 1 }))).onPkg
        (fun p => { p with canSent := (l, n, q.1) :: p.canSent }) := by
  have hgo : ¬ ((s.lane l).blk.lane.gatesClosed || !busEn ((s.lane l).bus n).ctl || ((s.lane l).bus n).state = 2 ||
      ((s.lane l).bus n).state = 3 || ((s.lane l).bus n).stuck || (busSingle ((s.lane l).bus n).ctl && l = .b) ||
      (s.lane l).clockLost 2) = true := by
    simpa [hopen, hen, hstuck, hclock, Nat.ne_of_lt hst, show ((s.lane l).bus n).state ≠ 3 by omega] using hsingle
  simp only [State.canComplete, hq]
  exact if_neg hgo

/-! ### The rows -/

/-- Settles O54. -/
theorem canFrameRowsComplete : Obligations.CanFrameRowsComplete := by
  intro s l n beat hn b now
  have hlane : (s.at_ beat).lane l = s.lane l := State.lane_at s beat l
  refine ⟨fun f hen hst hstuck hfd hsingle hclock => ?_, fun f h => ?_, fun q h hlow hx hj => ?_, fun q h hlow hx hj => ⟨fun hb => ?_, ?_⟩,
    fun hlow => ?_, fun e g ht => ⟨fun hclosed => ?_, fun hopen hx hw => ?_⟩, fun m q hq hen hst hstuck hclock hopen hsingle => ?_, ?_,
    fun q hq => BusSt.queue_dropOld hq⟩
  · refine congrArg Host.Outcome.next ((if_pos ?_).trans ?_)
    · rw [hlane]
      have hfd' : (!f.fd || busFd b.ctl) = true := by cases hf : f.fd <;> simp [hfd, hf]
      have hsingle' : (busSingle b.ctl && decide (l = .b)) = false := by simpa using hsingle
      simp only [b] at hen hst hstuck hfd' hsingle'
      simp only [hn, hen, hst, hstuck, hfd', hsingle', hclock, decide_true, Bool.and_self, Bool.not_false]
    · rw [hlane]
  · refine congrArg Host.Outcome.next (if_neg ?_)
    rw [hlane]
    simp only [b] at h
    obtain h | h | h | ⟨hf, h⟩ | h := h <;> simp [*]
    omega
  · refine execCanIntake_eq hn ?_
    rw [Lane.canIntake_of_joining hlow hx hj, hj]
    rfl
  · refine execCanIntake_eq hn ?_
    rw [Lane.canIntake_of_holding hlow hx hj hb, hj]
    rfl
  · intro hb y z
    refine execCanIntake_eq (f := fun _ => if z.holdsBack 0 then z else z.onBus n BusSt.beginRead) hn ?_
    rw [Lane.canIntake_of_room hlow hx hj hb, hj]
    rfl
  · refine (execCanIntake_eq (f := fun x => x) hn ?_).trans (congrArg Host.Outcome.next (by cases l <;> rfl))
    rw [Lane.canIntake_of_none l hlow]
    exact ite_self _
  · exact congrArg Host.Outcome.next (State.canTake_of_closed (by rw [hlane]; exact ht) (by rw [hlane]; exact hclosed))
  · have heq := State.canTake_of_open (s := s.at_ beat) (by rw [hlane]; exact ht) (by rw [hlane]; exact hopen) (by rw [hlane]; exact hx) hw
    rw [hlane] at heq
    have hbus : (((s.at_ beat).canTake l).lane l).bus n = b.taken l (s.at_ beat).a.inService e.bytes e.posted := by
      rw [heq, State.lane_onLane, Lane.bus_onBus]
    refine ⟨_, rfl, ?_, fun hst hs => ?_, fun hst hs hq => ?_, fun hst hs hq => ?_, fun hs => ?_, fun hs => ?_⟩
    · rw [heq, State.lane_onLane]
      exact Lane.ring_onRing ((s.at_ beat).lane l) 61 (fun _ => g)
    · rw [hbus, BusSt.taken_of_off _ _ _ _ hs hst]
      exact ⟨rfl, rfl⟩
    · rw [hbus, BusSt.taken_of_full _ _ _ _ hs hst hq]
      exact ⟨rfl, rfl⟩
    · rw [hbus, BusSt.taken_of_room _ _ _ _ hs hst hq]
    · rw [hbus, BusSt.seq_taken, hs]
      rfl
    · rw [hbus, BusSt.seq_taken, hs]
      rfl
  · exact congrArg Host.Outcome.next (State.canComplete_of_content hq hen hst hstuck hclock hopen hsingle)
  · exact congrArg Host.Outcome.next (if_pos hn)

end Sys2Proof.Machine
end

section
/-! SUPPORT. Transmission of the network ports (R373 to R378). -/

namespace Sys2Proof.Machine

/-! ### What a port's registers leave of its lane -/

@[simp] theorem Lane.gates_onPort (x : Lane) (n : Nat) (f : PortSt → PortSt) :
    (x.onPort n f).blk.lane.gatesClosed = x.blk.lane.gatesClosed := by rw [Lane.onPort_laneBlk]

@[simp] theorem Lane.collects_onPort (x : Lane) (n : Nat) (f : PortSt → PortSt) : (x.onPort n f).collects = x.collects :=
  Lane.collects_eq_of_laneBlk (Lane.onPort_laneBlk ..)

@[simp] theorem Lane.clockLost_onPort (x : Lane) (n : Nat) (f : PortSt → PortSt) (k : Nat) :
    (x.onPort n f).clockLost k = x.clockLost k := by
  unfold Lane.onPort
  split <;> rfl

@[simp] theorem Lane.txRings_onPort (x : Lane) (n : Nat) (f : PortSt → PortSt) : (x.onPort n f).txRings = x.txRings := by
  unfold Lane.onPort
  split <;> rfl

@[simp] theorem Lane.port_onRing (x : Lane) (r : Nat) (f : Ring → Ring) (n : Nat) : (x.onRing r f).port n = x.port n := rfl
@[simp] theorem Lane.txRings_onRing (x : Lane) (r : Nat) (f : Ring → Ring) : (x.onRing r f).txRings = x.txRings := rfl

theorem State.port_flag (s : State) (l : LaneId) (b : Nat) (lasting : Bool) (k : LaneId) (n : Nat) :
    ((s.flag l b lasting).lane k).port n = (s.lane k).port n :=
  (s.flag_onlyFlags l b lasting).keeps (p := fun x => x.port n) (fun _ => rfl) k

theorem State.txRings_flag (s : State) (l : LaneId) (b : Nat) (lasting : Bool) (k : LaneId) :
    ((s.flag l b lasting).lane k).txRings = (s.lane k).txRings :=
  (s.flag_onlyFlags l b lasting).keeps (p := Lane.txRings) (fun _ => rfl) k

theorem bitClass_portBit {n k : Nat} (hn : n < 2) (hk : k < 4) : bitClass (portBit n k) = 1 := by
  revert hk
  revert k
  revert hn
  revert n
  decide

/-! ### The start of a frame -/

/-- Lane `l` as a port that begins a frame finds it. -/
def State.atFrameStart (s : State) (l : LaneId) (n now : Nat) : Lane := ((s.lane l).netBoundary n).dropAged n now

theorem State.atFrameStart_keeps (s : State) (l : LaneId) (n now : Nat) :
    (s.atFrameStart l n now).blk.lane.gatesClosed = (s.lane l).blk.lane.gatesClosed ∧
      (s.atFrameStart l n now).clockLost 1 = (s.lane l).clockLost 1 := by
  refine ⟨?_, ?_⟩
  · simp only [State.atFrameStart, Lane.dropAged, Lane.gates_onPort]
    exact Lane.gates_onPort ..
  · simp only [State.atFrameStart, Lane.dropAged, Lane.clockLost_onPort]
    exact Lane.clockLost_onPort ..

/-- What a port does with the entry `e` that it takes from its ring, counted by `f`. -/
def Lane.takeTx (x : Lane) (n : Nat) (e : TxEntry) (f : PortSt → PortSt) : Lane :=
  (({ x with txRings := x.txRings.erase e }).onRing e.ring (fun g => g.took 1)).onPort n f

theorem Lane.takeTx_fields (x : Lane) (n : Nat) (e : TxEntry) (f : PortSt → PortSt) :
    (x.takeTx n e f).txRings = x.txRings.erase e ∧ (x.takeTx n e f).port n = f (x.port n) := by
  refine ⟨?_, ?_⟩
  · rw [Lane.takeTx, Lane.txRings_onPort]
    rfl
  · rw [Lane.takeTx, Lane.port_onPort]
    rfl

section
variable {s : State} {l : LaneId} {n now served : Nat} {e : TxEntry}

theorem State.txStart_of_stopped (h : (s.lane l).blk.lane.gatesClosed = true ∨ (s.lane l).clockLost 1 = true) :
    s.txStart l n now = s := by
  obtain ⟨hgates, hclock⟩ := s.atFrameStart_keeps l n now
  refine if_neg ?_
  simp only [State.atFrameStart] at hgates hclock
  rw [hgates, hclock]
  obtain h | h := h <;> simp [h]

variable (hn : n < 2) (hen : ((s.atFrameStart l n now).port n).en = true)
  (hopen : (s.atFrameStart l n now).blk.lane.gatesClosed = false) (hclock : (s.atFrameStart l n now).clockLost 1 = false)
  (hnext : (s.atFrameStart l n now).nextTx n = some (e, served))
include hn hen hopen hclock hnext

theorem State.txStart_of_unlinked (hlink : ((s.atFrameStart l n now).port n).link = false) :
    s.txStart l n now = s.onLane l (fun _ => (s.atFrameStart l n now).takeTx n e (fun q =>
      { q with txLinkDrop := q.txLinkDrop + 1, sending := none, lowServed := served })) := by
  simp only [State.atFrameStart] at *
  simp [State.txStart, hn, hen, hopen, hclock, hnext, hlink, Lane.takeTx]

theorem State.txStart_of_paused (hlink : ((s.atFrameStart l n now).port n).link = true) {b : Nat}
    (hpaused : ((s.atFrameStart l n now).port n).paused = some b) (h : now < b) :
    s.txStart l n now = s.onLane l (fun _ => (s.atFrameStart l n now).onPort n (fun q => { q with sending := none })) := by
  simp only [State.atFrameStart] at *
  simp [State.txStart, hn, hen, hopen, hclock, hnext, hlink, hpaused, h]

theorem State.txStart_of_ready (hlink : ((s.atFrameStart l n now).port n).link = true)
    (hpaused : ∀ b, ((s.atFrameStart l n now).port n).paused = some b → b ≤ now) :
    s.txStart l n now = (s.onLane l (fun _ => (s.atFrameStart l n now).takeTx n e (fun q =>
      { q with txFrames := q.txFrames + 1, sending := some e, lowServed := served }))).onPkg
        (fun k => { k with sent := (l, n, { e with wire := e.frame l }, true) :: k.sent }) := by
  simp only [State.atFrameStart] at *
  cases hp : (((s.lane l).netBoundary n).dropAged n now |>.port n).paused with
  | none => simp [State.txStart, hn, hen, hopen, hclock, hnext, hlink, hp, Lane.takeTx]
  | some b =>
    simp [State.txStart, hn, hen, hopen, hclock, hnext, hlink, hp, Nat.not_lt.2 (hpaused b hp), Lane.takeTx]

end

/-! ### Underruns -/

/-- A port whose FIFO ran empty at beat `now`. -/
def PortSt.underran (p : PortSt) (now : Nat) : PortSt :=
  let us := now :: p.underruns.filter (fun u => decide (now < u + secBeats))
  { p with txUnderrun := p.txUnderrun + 1, sending := none, underruns := us,
           sfHold := if 16 ≤ us.length then some (now + 10 * secBeats) else p.sfHold }

/-- A frame whose FIFO ran empty goes back to the front of its ring. -/
def Lane.sendAgain (x : Lane) (n : Nat) (e : TxEntry) (f : PortSt → PortSt) : Lane :=
  (({ x with txRings := { e with resend := true } :: x.txRings }).onRing e.ring (fun g => { g with taken := g.taken - 1 })).onPort n f

theorem Lane.sendAgain_fields (x : Lane) (n : Nat) (e : TxEntry) (f : PortSt → PortSt) :
    (x.sendAgain n e f).txRings = { e with resend := true } :: x.txRings ∧ (x.sendAgain n e f).port n = f (x.port n) ∧
      (x.sendAgain n e f).collects = x.collects := by
  refine ⟨?_, ?_, ?_⟩
  · rw [Lane.sendAgain, Lane.txRings_onPort]
    rfl
  · rw [Lane.sendAgain, Lane.port_onPort]
    rfl
  · rw [Lane.sendAgain, Lane.collects_onPort]
    rfl

theorem State.txUnderrun_of_sending {s : State} {l : LaneId} {n now : Nat} {e : TxEntry} (hn : n < 2)
    (he : ((s.lane l).port n).sending = some e) (hcut : s.cutThrough l n = true) (hresend : e.resend = false) :
    let s1 := (s.onLane l (fun x => x.sendAgain n e (fun p => p.underran now))).onPkg
      (fun k => { k with sent := markBad l n k.sent })
    s.txUnderrun l n now =
      if 16 ≤ (now :: ((s.lane l).port n).underruns.filter (fun u => decide (now < u + secBeats))).length then
        s1.flag l (portBit n 3) true
      else s1 := by
  intro s1
  let us := now :: ((s.lane l).port n).underruns.filter (fun u => decide (now < u + secBeats))
  have hs1 : (s.onLane l (fun x => x.sendAgain n e (fun p =>
      { p with txUnderrun := p.txUnderrun + 1, sending := none, underruns := us,
               sfHold := if decide (16 ≤ us.length) then some (now + 10 * secBeats) else p.sfHold }))).onPkg
        (fun k => { k with sent := markBad l n k.sent }) = s1 := by
    refine congrArg (fun t : State => t.onPkg (fun k => { k with sent := markBad l n k.sent })) (State.onLane_congr ?_)
    unfold Lane.sendAgain Lane.onPort
    split
    · next h => subst h; simp [PortSt.underran, us, Lane.port, Lane.onRing]
    · next h => simp [PortSt.underran, us, Lane.port, Lane.onRing, h]
  have hgo : (decide (n < 2) && s.cutThrough l n && !e.resend) = true := by simp [hn, hcut, hresend]
  simp only [State.txUnderrun, he, hgo, if_true, ← hs1]
  simp [us, Lane.sendAgain]

theorem txUnderrun_completes {s : State} {l : LaneId} {n : Nat} (now : Nat) {e : TxEntry} (hn : n < 2)
    (he : ((s.lane l).port n).sending = some e) (hcut : s.cutThrough l n = true) (hresend : e.resend = false) :
    ((s.txUnderrun l n now).lane l).txRings = { e with resend := true } :: (s.lane l).txRings ∧
      ((s.txUnderrun l n now).lane l).port n = ((s.lane l).port n).underran now ∧
      (16 ≤ (now :: ((s.lane l).port n).underruns.filter (fun u => decide (now < u + secBeats))).length →
        (s.lane l).collects = true → ((s.txUnderrun l n now).lane l).hasBit (portBit n 3) = true) := by
  obtain ⟨htx, hport, hcoll⟩ := (s.lane l).sendAgain_fields n e (fun p => p.underran now)
  have heq := State.txUnderrun_of_sending (now := now) hn he hcut hresend
  refine ⟨?_, ?_, fun h16 hc => ?_⟩
  · rw [heq]
    split
    · rw [State.txRings_flag, State.lane_onPkg, State.lane_onLane, htx]
    · rw [State.lane_onPkg, State.lane_onLane, htx]
  · rw [heq]
    split
    · rw [State.port_flag, State.lane_onPkg, State.lane_onLane, hport]
    · rw [State.lane_onPkg, State.lane_onLane, hport]
  · rw [heq, if_pos h16]
    exact State.flag_hasBit _ l true (by rw [State.lane_onPkg, State.lane_onLane, hcoll, hc])
      (by rw [bitClass_portBit hn (by decide)]; decide)

/-! ### Aged entries -/

theorem Lane.mem_txRings_dropAged (x : Lane) (n now : Nat) (e : TxEntry) :
    e ∈ (x.dropAged n now).txRings ↔ e ∈ x.txRings ∧ ¬ ((e.ring = 56 + 2 * n ∨ e.ring = 57 + 2 * n) ∧ e.beat + ageBeats < now) := by
  have htx : (x.dropAged n now).txRings = x.txRings.filter (fun t =>
      !((t.ring = 56 + 2 * n || t.ring = 57 + 2 * n) && decide (t.beat + ageBeats < now))) := by
    rw [Lane.dropAged, Lane.txRings_onPort]
    rfl
  rw [htx, List.mem_filter, Bool.not_eq_true', ← Bool.not_eq_true, Bool.and_eq_true, Bool.or_eq_true, decide_eq_true_eq,
    decide_eq_true_eq, decide_eq_true_eq]

/-! ### The rows -/

/-- Settles O51. -/
theorem transmitRowsComplete : Obligations.TransmitRowsComplete := by
  intro s l n beat hn now t x
  have hlane : t.lane l = s.lane l := State.lane_at s beat l
  have hx : t.atFrameStart l n now = x := by rw [State.atFrameStart, hlane]
  refine ⟨fun e served hen hopen hclock hlink hpaused hnext => ?_, fun e b hen hopen hclock hlink hpaused hb hnext => ?_,
    fun e served hen hopen hclock hlink hnext => ?_, fun h => ?_, fun e he hcut hresend => ?_, fun e he => ⟨fun h => ?_, fun h => ?_⟩, ?_⟩
  · rw [← hx] at hen hopen hclock hlink hpaused hnext ⊢
    refine ⟨_, congrArg Host.Outcome.next (State.txStart_of_ready hn hen hopen hclock hnext hlink hpaused), ?_, ?_⟩
    · simp
    · rw [State.lane_onPkg, State.lane_onLane]
      exact Lane.takeTx_fields ..
  · rw [← hx] at hen hopen hclock hlink hpaused hnext ⊢
    exact congrArg Host.Outcome.next (State.txStart_of_paused (e := e.1) (served := e.2) hn hen hopen hclock hnext hlink hpaused hb)
  · rw [← hx] at hen hopen hclock hlink hnext ⊢
    refine ⟨_, congrArg Host.Outcome.next (State.txStart_of_unlinked hn hen hopen hclock hnext hlink), ?_, ?_⟩
    · simp
    · rw [State.lane_onLane]
      exact Lane.takeTx_fields ..
  · exact congrArg Host.Outcome.next (State.txStart_of_stopped (by rw [hlane]; exact h))
  · intro p us
    obtain ⟨htx, hport, hbit⟩ := txUnderrun_completes (s := t) now hn (by rw [hlane]; exact he) hcut hresend
    rw [hlane] at htx hport hbit
    exact ⟨_, rfl, htx, hport, hbit⟩
  · have he' : ((t.lane l).port n).sfHold = some e := by rw [hlane]; exact he
    have h' : e ≤ t.pkg.beat := h
    refine congrArg Host.Outcome.next ?_
    simp only [he', hn, h', decide_true, Bool.and_self, if_true, t]
  · have he' : ((t.lane l).port n).sfHold = some e := by rw [hlane]; exact he
    have h' : ¬ e ≤ t.pkg.beat := Nat.not_le.2 h
    refine congrArg Host.Outcome.next ?_
    simp only [he', h', decide_false, Bool.and_false, Bool.false_eq_true, if_false, t]
  · refine ⟨_, congrArg Host.Outcome.next (if_pos hn), fun e => ?_⟩
    rw [State.lane_onLane]
    exact (Lane.mem_txRings_dropAged ..).trans (by rw [hlane]; rfl)

end Sys2Proof.Machine
end

section
/-! SUPPORT. Received frames and PAUSE (R34, R385 to R399, Table 10-3). -/

namespace Sys2Proof.Machine

/-! ### The checks of Table 10-3 -/

/-- What a port makes of a frame with a sound header, or without one: the last three checks of Table 10-3. -/
def Lane.steerFrame (y : Lane) (l : LaneId) (n id : Nat) (c : PairCfg) (f : Frame) (now : Nat) : Lane :=
  match y.blk.net.steer n f with
  | none => y.onPort n (fun p => { p with rxFilterDrop := p.rxFilterDrop + 1 })
  | some ring =>
    match (headerCheck c f).bind (fun k => (y.rateLimit n k).map (fun z => (k, z))) with
    | none => y.onPort n (fun p => { p with rxHdrDrop := p.rxHdrDrop + 1 })
    | some (k, z) => z.takeFrameIn l n ring id now f k

section
variable {x0 : Lane} {l : LaneId} {n id : Nat} {f : Frame} {now : Nat}

theorem Lane.netFrame_of_silent
    (h : ((x0.netBoundary n).port n).en = false ∨ (x0.netBoundary n).blk.lane.role = .off ∨ (x0.netBoundary n).clockLost 1 = true) :
    x0.netFrame l n id f now = x0.netBoundary n := by
  refine if_pos ?_
  obtain h | h | h := h <;> simp [h]

variable (hen : ((x0.netBoundary n).port n).en = true) (hrole : (x0.netBoundary n).blk.lane.role ≠ .off)
  (hclock : (x0.netBoundary n).clockLost 1 = false)
include hen hrole hclock

theorem Lane.netFrame_of_foreign (hdst : dstOk ((x0.netBoundary n).port n).pair f.dst = false) :
    x0.netFrame l n id f now = x0.netBoundary n := by
  simp [Lane.netFrame, hen, hrole, hclock, hdst]

variable (hdst : dstOk ((x0.netBoundary n).port n).pair f.dst = true)
include hdst

theorem Lane.netFrame_of_badFcs (hfcs : f.fcsOk = false) :
    x0.netFrame l n id f now = (x0.netBoundary n).onPort n (fun p => { p with rxFcsErr := p.rxFcsErr + 1 }) := by
  simp [Lane.netFrame, hen, hrole, hclock, hdst, hfcs]

variable (hfcs : f.fcsOk = true)
include hfcs

theorem Lane.netFrame_of_badSize (h : f.clientLen < 46 ∨ 9000 < f.clientLen ∨ groupBit f.src = true) :
    x0.netFrame l n id f now = (x0.netBoundary n).onPort n (fun p => { p with rxSizeErr := p.rxSizeErr + 1 }) := by
  have hbad : (f.clientLen < 46 || 9000 < f.clientLen || groupBit f.src) = true := by simpa [or_assoc] using h
  simp only [Lane.netFrame, hen, hrole, hclock, hdst, hfcs, hbad, Bool.not_true, decide_false, Bool.or_self, Bool.false_eq_true, if_false,
    if_true]

variable (hmin : 46 ≤ f.clientLen) (hmax : f.clientLen ≤ 9000) (hsrc : groupBit f.src = false)
include hmin hmax hsrc

theorem Lane.netFrame_of_pause {op q : Nat} (hb : f.body = .pause op q) :
    x0.netFrame l n id f now =
      (let y := (x0.netBoundary n).onPort n (fun p => { p with rxFrames := p.rxFrames + 1 })
      if (f.dst = 0x0180C2000001#48 ∨ f.dst = ((x0.netBoundary n).port n).pair.mac) ∧ f.etherType = 0x8808 ∧ op = 1 then
        y.takePause n q now
      else y.onPort n (fun p => { p with rxFilterDrop := p.rxFilterDrop + 1 })) := by
  simp [Lane.netFrame, hen, hrole, hclock, hdst, hfcs, Nat.not_lt.2 hmin, Nat.not_lt.2 hmax, hsrc, hb, and_assoc]

theorem Lane.netFrame_of_plain (hb : ∀ op q, f.body ≠ .pause op q) :
    x0.netFrame l n id f now =
      (let y := (x0.netBoundary n).onPort n (fun p => { p with rxFrames := p.rxFrames + 1 })
      if f.dst = 0x01154E000100#48 ∧ f.etherType = 0x88FB then
        y.onPort n (fun p => { p with rxSupervision := p.rxSupervision + 1 })
      else y.steerFrame l n id ((x0.netBoundary n).port n).pair f now) := by
  have hsize : (f.clientLen < 46 || 9000 < f.clientLen || groupBit f.src) = false := by
    simp [Nat.not_lt.2 hmin, Nat.not_lt.2 hmax, hsrc]
  unfold Lane.netFrame
  simp only [hen, hrole, hclock, hdst, hfcs, hsize, Bool.not_true, decide_false, Bool.or_self, Bool.false_eq_true, if_false]
  cases hbody : f.body with
  | pause op q => exact absurd hbody (hb op q)
  | _ => simp only [Bool.and_eq_true, decide_eq_true_eq] <;> rfl

end

/-! ### Steering, headers and limits -/

section
variable {y : Lane} {l : LaneId} {n id : Nat} {c : PairCfg} {f : Frame} {now : Nat}

theorem Lane.steerFrame_of_none (h : y.blk.net.steer n f = none) :
    y.steerFrame l n id c f now = y.onPort n (fun p => { p with rxFilterDrop := p.rxFilterDrop + 1 }) := by
  simp only [Lane.steerFrame, h]

variable {ring : Nat} (hring : y.blk.net.steer n f = some ring)
include hring

theorem Lane.steerFrame_of_badHeader (h : headerCheck c f = none) :
    y.steerFrame l n id c f now = y.onPort n (fun p => { p with rxHdrDrop := p.rxHdrDrop + 1 }) := by
  simp only [Lane.steerFrame, hring, h, Option.bind_none]

variable {k : NetKind} (hk : headerCheck c f = some k)
include hk

theorem Lane.steerFrame_of_limited (h : y.rateLimit n k = none) :
    y.steerFrame l n id c f now = y.onPort n (fun p => { p with rxHdrDrop := p.rxHdrDrop + 1 }) := by
  simp only [Lane.steerFrame, hring, hk, Option.bind_some, h, Option.map_none]

theorem Lane.steerFrame_of_passed {z : Lane} (h : y.rateLimit n k = some z) :
    y.steerFrame l n id c f now = z.takeFrameIn l n ring id now f k := by
  simp only [Lane.steerFrame, hring, hk, Option.bind_some, h, Option.map_some]

end

theorem Lane.rateLimit_of_unlimited (y : Lane) (n : Nat) {k : NetKind} (h : k = .other ∨ ∃ d b, k = .udp d b) :
    y.rateLimit n k = some y := by
  obtain rfl | ⟨d, b, rfl⟩ := h <;> rfl

theorem Lane.arpCount_counted (x : Lane) (n : Nat) :
    ((x.onPort n (fun p => { p with rxFrames := p.rxFrames + 1 })).port n).arpCount = (x.port n).arpCount ∧
      ((x.onPort n (fun p => { p with rxFrames := p.rxFrames + 1 })).port n).icmpCount = (x.port n).icmpCount := by
  simp

theorem exec_netFrameReceived {s : State} {l : LaneId} {n : Nat} {f : Frame} {beat : Nat} {y : Lane} (hn : n < 2)
    (h : (s.lane l).netFrame l n (s.lane l).man.moduleId.toNat f (max s.pkg.beat beat) = y) :
    exec (.netFrameReceived l n f beat) s = .next ((s.at_ beat).onLane l (fun _ => y)) := by
  refine congrArg Host.Outcome.next ((if_pos hn).trans (State.onLane_congr ?_))
  rw [State.lane_at]
  exact h

theorem netFramesAreChecked : Claims.NetFramesAreChecked := by
  intro s l n beat f hn t x c count
  refine ⟨fun h => exec_netFrameReceived hn (Lane.netFrame_of_silent h), fun hen hrole hclock =>
    ⟨fun hdst => exec_netFrameReceived hn (Lane.netFrame_of_foreign hen hrole hclock hdst), fun hdst =>
    ⟨fun hfcs => exec_netFrameReceived hn (Lane.netFrame_of_badFcs hen hrole hclock hdst hfcs), fun hfcs =>
    ⟨fun h => exec_netFrameReceived hn (Lane.netFrame_of_badSize hen hrole hclock hdst hfcs h), ?_, ?_⟩⟩⟩⟩
  · intro op q hmin hmax hsrc hb y
    have heq := Lane.netFrame_of_pause (l := l) (id := (s.lane l).man.moduleId.toNat) (now := max s.pkg.beat beat) hen hrole hclock hdst hfcs
      hmin hmax hsrc hb
    exact ⟨fun hd ht ho => exec_netFrameReceived hn (heq.trans (if_pos ⟨hd, ht, ho⟩)),
      fun h => exec_netFrameReceived hn (heq.trans (if_neg h))⟩
  · intro hmin hmax hsrc hb y
    have heq := Lane.netFrame_of_plain (l := l) (id := (s.lane l).man.moduleId.toNat) (now := max s.pkg.beat beat) hen hrole hclock hdst hfcs
      hmin hmax hsrc hb
    obtain ⟨harp, hicmp⟩ := x.arpCount_counted n
    refine ⟨fun hd ht => exec_netFrameReceived hn (heq.trans (if_pos ⟨hd, ht⟩)), fun h => ?_⟩
    have heq' := heq.trans (if_neg h)
    refine ⟨fun hs => exec_netFrameReceived hn (heq'.trans (Lane.steerFrame_of_none hs)), fun ring hring =>
      ⟨fun hh => exec_netFrameReceived hn (heq'.trans (Lane.steerFrame_of_badHeader hring hh)),
      fun k hk hkind => exec_netFrameReceived hn (heq'.trans (Lane.steerFrame_of_passed hring hk (y.rateLimit_of_unlimited n hkind))),
      fun hk => ⟨fun hfull => ?_, fun hroom => ?_⟩, fun hk => ⟨fun hfull => ?_, fun hroom => ?_⟩⟩⟩
    · exact exec_netFrameReceived hn (heq'.trans (Lane.steerFrame_of_limited hring hk (if_pos (by rw [harp]; exact hfull))))
    · exact exec_netFrameReceived hn (heq'.trans (Lane.steerFrame_of_passed hring hk (if_neg (by rw [harp]; exact Nat.not_le.2 hroom))))
    · exact exec_netFrameReceived hn (heq'.trans (Lane.steerFrame_of_limited hring hk (if_pos (by rw [hicmp]; exact hfull))))
    · exact exec_netFrameReceived hn (heq'.trans (Lane.steerFrame_of_passed hring hk (if_neg (by rw [hicmp]; exact Nat.not_le.2 hroom))))

/-! ### PAUSE -/

theorem pauseRowsComplete : Claims.PauseRowsComplete := by
  intro s l n beat hn now p t
  have hport : ((s.at_ beat).lane l).port n = p := by rw [State.lane_at]
  have hfill : ((s.at_ beat).lane l).fillPercent n = (s.lane l).fillPercent n := by rw [State.lane_at]
  have hbeat : (s.at_ beat).pkg.beat = now := rfl
  refine ⟨fun e he => ⟨fun h => ?_, fun h => ?_⟩, fun e he hp hcap hlow => ⟨fun h => ?_, fun h => ?_⟩,
    fun e he hpaused => ⟨fun h => ?_, fun h => ?_⟩, fun e he hp hcap => ⟨fun h => ?_, fun h => ?_⟩⟩
  · refine congrArg Host.Outcome.next ?_
    simp only [hport, hbeat, he, hn, h, decide_true, Bool.and_self, if_true, t]
  · refine congrArg Host.Outcome.next ?_
    simp only [hport, hbeat, he, Nat.not_le.2 h, decide_false, Bool.and_false, Bool.false_eq_true, if_false, t]
  · refine congrArg Host.Outcome.next ?_
    simp only [hport, hfill, hbeat, he, hn, hp, hcap, hlow, h, Bool.not_false, decide_true, Bool.and_self, if_true, t]
    rfl
  · refine congrArg Host.Outcome.next ?_
    simp only [hport, hbeat, he, Nat.not_le.2 h, decide_false, Bool.and_false, Bool.false_eq_true, if_false, t]
  · refine congrArg Host.Outcome.next ?_
    simp only [hport, hbeat, he, hn, h, hpaused, decide_true, Bool.and_self, if_true, t]
  · refine congrArg Host.Outcome.next ?_
    simp only [hport, hbeat, he, Nat.not_le.2 h, decide_false, Bool.and_false, Bool.false_and, Bool.false_eq_true, if_false, t]
  · refine congrArg Host.Outcome.next ?_
    simp only [hport, hbeat, he, hn, h, hp, hcap, Bool.not_false, decide_true, Bool.and_self, if_true, t]
  · refine congrArg Host.Outcome.next ?_
    simp only [hport, hbeat, he, Nat.not_le.2 h, decide_false, Bool.and_false, Bool.false_and, Bool.false_eq_true, if_false, t]

/-- Settles O50. -/
theorem portRowsComplete : Obligations.PortRowsComplete :=
  ⟨netFramesAreChecked, pauseRowsComplete⟩

end Sys2Proof.Machine
end

section
/-! SUPPORT. What the lane manager does for its ports: answers, intervals, supervision, subscriptions, links and speed (R364, R382, R383,
R388, R389, R400 to R403, R499). -/

namespace Sys2Proof.Machine

/-! ### Answered frames -/

/-- The lane after the frame `e` at the front of its kind is answered with `bs`, or dropped. -/
def Lane.answered (x : Lane) (e : Nat × Frame) (bs : Option (List Byte)) (now : Nat) : Lane :=
  match bs with
  | some b => ({ x with netQueue := x.netQueue.erase e }).postTx (56 + 2 * e.1) now (frameSource e.2) 0 b
  | none => { x with netQueue := x.netQueue.erase e }

theorem Lane.answerFrame_of_find {x : Lane} {p : Frame → Bool} {e : Nat × Frame} (ans : PairCfg → Frame → Option (List Byte)) (now : Nat)
    (h : x.netQueue.find? (fun e => p e.2) = some e) :
    x.answerFrame p ans now = x.answered e (ans (if e.1 = 0 then x.blk.net.estate else x.blk.net.floor) e.2) now := by
  simp only [Lane.answerFrame, h]
  cases ans (if e.1 = 0 then x.blk.net.estate else x.blk.net.floor) e.2 <;> rfl

theorem State.answerFrame_of_find {s : State} {l : LaneId} {p : Frame → Bool} {e : Nat × Frame}
    (ans : PairCfg → Frame → Option (List Byte)) (h : (s.lane l).netQueue.find? (fun e => p e.2) = some e) :
    s.onLane l (fun x => x.answerFrame p ans s.pkg.beat) =
      s.onLane l (fun x => x.answered e (ans (if e.1 = 0 then (s.lane l).blk.net.estate else (s.lane l).blk.net.floor) e.2) s.pkg.beat) :=
  State.onLane_congr (Lane.answerFrame_of_find ans _ h)

/-! ### Subscriptions -/

theorem Lane.onSender_congr {x : Lane} {p : Nat} {f g : Sender → Sender} (h : f (x.sender p) = g (x.sender p)) :
    x.onSender p f = x.onSender p g := by
  have ht : tmod {} x.man.senders p f = tmod {} x.man.senders p g := congrArg (tput ({} : Sender) x.man.senders p) h
  simp only [Lane.onSender, ht]

theorem Lane.onSub_congr {x : Lane} {p : Nat} {q : Subscription} {f g : Subscription → Option Subscription}
    (hq : (x.sender p).sub = some q) (h : f q = g q) : x.onSub p f = x.onSub p g :=
  Lane.onSender_congr (by simp [hq, h])

section
variable {s : State} {l : LaneId} {p now : Nat} {q : Subscription} (hq : ((s.lane l).sender p).sub = some q)
include hq

theorem State.eventResend_of_service (h : q.via = .service) : s.eventResend l p now = s := by
  simp only [State.eventResend, hq, h, if_true]

/-- With no packet due nothing leaves the lane. -/
theorem State.eventResend_of_none (h : ∀ e ∈ q.unacked, now < e.last + ageBeats) :
    (((s.eventResend l p now).lane l).sender p).sub = some q ∧ ((s.eventResend l p now).lane l).txRings = (s.lane l).txRings ∧
      (s.eventResend l p now).pkg = s.pkg := by
  have hdue : q.unacked.filter (fun e => decide (e.last + ageBeats ≤ now)) = [] := by
    rw [List.filter_eq_nil_iff]
    intro e he
    simpa using h e he
  have hmap : q.unacked.map (fun e => if e.last + ageBeats ≤ now then { e with last := now } else e) = q.unacked := by
    refine (List.map_congr_left fun e he => if_neg (Nat.not_le.2 (h e he))).trans ?_
    exact List.map_id' _
  unfold State.eventResend
  simp only [hq]
  split
  · exact ⟨hq, rfl, rfl⟩
  · split
    · rw [hdue]
      refine ⟨?_, ?_, by simp⟩
      · rw [List.foldl_nil, State.lane_onLane, Lane.onSub, Lane.sender_onSender, hq]
        exact congrArg some (by rw [hmap])
      · rw [List.foldl_nil, State.lane_onLane]
        rfl
    · exact ⟨hq, rfl, rfl⟩

theorem State.eventResend_of_due {e : EventPacket} (hu : q.unacked = [e]) (h : e.last + ageBeats ≤ now)
    (hx : (s.lane l).releases = true) (hv : q.via ≠ .service) :
    s.eventResend l p now =
      (s.onLane l (fun x => x.onSub p (fun q => some { q with unacked := [{ e with last := now }] }))).sendPacket l q.via q.src e.bytes := by
  have hone : s.onLane l (fun x => x.onSub p (fun q => some { q with
      unacked := q.unacked.map (fun e => if e.last + ageBeats ≤ now then { e with last := now } else e) })) =
      s.onLane l (fun x => x.onSub p (fun q => some { q with unacked := [{ e with last := now }] })) :=
    State.onLane_congr (Lane.onSub_congr hq (by simp [hu, h]))
  simp only [State.eventResend, hq, hv, if_false, hx, if_true, hone, hu, List.filter_cons, h, decide_true, List.filter_nil, List.foldl_cons,
    List.foldl_nil]

theorem State.subscriptionEnd_of_unacked {e : EventPacket} {r : List EventPacket} (hu : q.unacked = e :: r) :
    s.subscriptionEnd l p now =
      if e.first + 60 * secBeats ≤ now then
        (s.onLane l (fun x => x.onSender p (fun r => { r with sub := none }))).flag l 2090 false
      else s := by
  simp only [State.subscriptionEnd, hq, hu]

end

/-! ### The services of the ports -/

theorem networkServiceRowsComplete : Claims.NetworkServiceRowsComplete := by
  intro s l beat now t pairOf ans
  have hlane : t.lane l = s.lane l := State.lane_at s beat l
  refine ⟨fun e he => ?_, fun e he => ?_, fun e he => ?_, fun hb => ?_, fun k mac => ?_, fun h => ?_, fun p q hq => ?_⟩
  · exact congrArg Host.Outcome.next ((State.answerFrame_of_find arpAnswer he).trans (State.onLane_congr rfl))
  · exact congrArg Host.Outcome.next ((State.answerFrame_of_find solicitAnswer he).trans (State.onLane_congr rfl))
  · exact congrArg Host.Outcome.next ((State.answerFrame_of_find echoAnswer he).trans (State.onLane_congr rfl))
  · refine ⟨_, congrArg Host.Outcome.next (if_pos hb), rfl, fun k n hn => ?_⟩
    obtain rfl | rfl : n = 0 ∨ n = 1 := by omega
    · cases k <;> rfl
    · cases k <;> rfl
  · refine ⟨_, rfl, fun e => ?_⟩
    rw [State.lane_onLane]
    have hiff : ∀ ps : List PrpSource, e ∈ ps.filter (fun e => !(e.mac = mac && decide (e.lastBeat + 60 * secBeats ≤ now))) ↔
        e ∈ ps ∧ ¬ (e.mac = mac ∧ e.lastBeat + 60 * secBeats ≤ now) := fun ps => by
      rw [List.mem_filter, Bool.not_eq_true', ← Bool.not_eq_true, Bool.and_eq_true, decide_eq_true_eq, decide_eq_true_eq]
    by_cases hk : k = 0
    · simp only [hk, if_true, Lane.onMan, hlane, t]
      exact hiff _
    · simp only [hk, if_false, Lane.onMan, hlane, t]
      exact hiff _
  · exact congrArg Host.Outcome.next (if_pos (by rw [State.lane_at]; exact h))
  · have hq' : ((t.lane l).sender p).sub = some q := by rw [hlane]; exact hq
    refine ⟨fun hv => congrArg Host.Outcome.next (State.eventResend_of_service hq' hv), fun hnone => ?_,
      fun e hu h hx hv => congrArg Host.Outcome.next (State.eventResend_of_due hq' hu h (by rw [hlane]; exact hx) hv),
      fun e r hu => ⟨fun h => ?_, fun h => ?_⟩⟩
    · have hkeeps := State.eventResend_of_none (now := now) hq' hnone
      rw [hlane] at hkeeps
      exact ⟨_, rfl, hkeeps⟩
    · exact congrArg Host.Outcome.next ((State.subscriptionEnd_of_unacked hq' hu).trans (if_pos h))
    · exact congrArg Host.Outcome.next ((State.subscriptionEnd_of_unacked hq' hu).trans (if_neg (Nat.not_le.2 h)))

/-! ### Links and speed -/

/-- A port whose link comes up at beat `now`. -/
def PortSt.linked (k : PortSt) (now : Nat) : PortSt :=
  match k.reneg with
  | some (_, t) => { k with link := true, reneg := none, speed10 := t, speedBeat := now, speedChanges := k.speedChanges + 1 }
  | none =>
    let first := k.speedBeat = 0 && k.reneg.isNone && !k.speed10
    { k with link := true, speed10 := if first then true else k.speed10, speedBeat := if first then now else k.speedBeat }

theorem PortSt.linked_fields (k : PortSt) (now : Nat) :
    (k.linked now).link = true ∧ (k.linked now).reneg = none ∧ ∀ b v, k.reneg = some (b, v) →
      (k.linked now).speed10 = v ∧ (k.linked now).speedBeat = now ∧ (k.linked now).speedChanges = k.speedChanges + 1 := by
  unfold PortSt.linked
  cases hr : k.reneg with
  | none => exact ⟨rfl, rfl, fun _ _ h => (nomatch h)⟩
  | some r => exact ⟨rfl, rfl, fun b v h => by cases h; exact ⟨rfl, rfl, rfl⟩⟩

theorem Lane.endCause_fields (x : Lane) (n b : Nat) : (x.endCause b).port n = x.port n ∧ (x.endCause b).hasCause b = false := by
  refine ⟨rfl, ?_⟩
  simp [Lane.hasCause, Lane.endCause, Lane.onFlt]

theorem State.linkUp_lane {s : State} {l : LaneId} {n : Nat} (now : Nat) (hn : n < 2) :
    ((s.linkUp l n now).lane l).port n = ((s.lane l).port n).linked now ∧ ((s.linkUp l n now).lane l).hasCause (portBit n 0) = false := by
  rw [State.linkUp, if_pos hn]
  dsimp only
  rw [State.lane_onLane, State.lane_onLane]
  refine ⟨?_, (Lane.endCause_fields _ n _).2⟩
  rw [(Lane.endCause_fields _ n _).1, Lane.port_onPort]
  unfold PortSt.linked
  cases hr : ((s.lane l).port n).reneg with
  | none => rfl
  | some r => rfl

theorem State.speedDecision_of_change {s : State} {l : LaneId} {n now : Nat} {up : Bool} (hn : n < 2) (hactive : s.active.isSome = true)
    (hx : (s.lane l).inService = true) (hy : (s.lane l.other).inService = true) (hlink : ((s.lane l.other).port n).link = true)
    (hbeat : ((s.lane l.other).port n).speedBeat + 10 * secBeats ≤ now) (hreneg : ((s.lane l).port n).reneg = none)
    (hne : ((s.lane l).pinnedSpeed n).getD up ≠ ((s.lane l).port n).speed10)
    (hlow : ((s.lane l).pinnedSpeed n).getD up = true ∨ ((s.lane l).port n).lowerSuspended = none) :
    s.speedDecision l n up now = s.onLane l (fun z => z.onPort n (fun k =>
      { k with reneg := some (now, ((s.lane l).pinnedSpeed n).getD up), link := false, sending := none })) := by
  refine if_pos ?_
  have hlow' : (((s.lane l).pinnedSpeed n).getD up || ((s.lane l).port n).lowerSuspended.isNone) = true := by
    simpa [Option.isNone_iff_eq_none] using hlow
  simp only [hn, hactive, hx, hy, hlink, hbeat, hreneg, hlow', decide_true, Bool.and_self, Option.isNone_none, ne_eq, hne, not_false_eq_true]

theorem State.speedDecision_of_same {s : State} {l : LaneId} {n : Nat} {up : Bool} (now : Nat)
    (heq : ((s.lane l).pinnedSpeed n).getD up = ((s.lane l).port n).speed10) : s.speedDecision l n up now = s :=
  if_neg (by simp [heq])

theorem State.speedDecision_of_partner {s : State} {l : LaneId} {n now : Nat} (up : Bool)
    (h : (s.lane l.other).inService = false ∨ ((s.lane l.other).port n).link = false ∨
      now < ((s.lane l.other).port n).speedBeat + 10 * secBeats) : s.speedDecision l n up now = s := by
  refine if_neg ?_
  obtain h | h | h := h
  · simp [h]
  · simp [h]
  · simp [Nat.not_le.2 h]

theorem linkRowsComplete : Claims.LinkRowsComplete := by
  intro s l n beat hn now t p q
  have hlane : ∀ k, (s.at_ beat).lane k = s.lane k := State.lane_at s beat
  have hport : ((s.at_ beat).lane l).port n = p := by rw [hlane]
  have hbeat : (s.at_ beat).pkg.beat = now := rfl
  refine ⟨fun h => ?_, fun h => ?_, ?_, fun up ha hb hactive hlink hchange hreneg => ⟨fun hne hlow => ?_, fun heq => ?_⟩, fun up h => ?_,
    fun b v hr => ⟨fun h => ?_, fun h => ?_⟩, fun e he => ⟨fun h => ?_, fun h => ?_⟩⟩
  · exact congrArg Host.Outcome.next (if_pos (by rw [show ((s.lane l).port n).link = true from h]; simp [hn]))
  · exact congrArg Host.Outcome.next (if_neg (by rw [show ((s.lane l).port n).link = false from h]; simp))
  · obtain ⟨hup, hcause⟩ := State.linkUp_lane (s := s.at_ beat) (l := l) now hn
    rw [hport] at hup
    obtain ⟨hlink, hreneg, hspeed⟩ := p.linked_fields now
    refine ⟨_, rfl, ?_, ?_, hcause, fun b v hr => ?_⟩
    · exact (congrArg PortSt.link hup).trans hlink
    · exact (congrArg PortSt.reneg hup).trans hreneg
    · obtain ⟨h10, hsb, hch⟩ := hspeed b v hr
      exact ⟨(congrArg PortSt.speed10 hup).trans h10, (congrArg PortSt.speedBeat hup).trans hsb,
        (congrArg PortSt.speedChanges hup).trans hch⟩
  · have hboth : ∀ k, (s.lane k).inService = true := fun k => by cases k; exacts [ha, hb]
    refine congrArg Host.Outcome.next ((State.speedDecision_of_change (s := s.at_ beat) hn hactive (by rw [hlane]; exact hboth l)
      (by rw [hlane]; exact hboth l.other) (by rw [hlane]; exact hlink) (by rw [hlane]; exact hchange) (by rw [hlane]; exact hreneg)
      (by rw [hlane]; exact hne) (by rw [hlane]; exact hlow)).trans ?_)
    rw [hlane]
    rfl
  · exact congrArg Host.Outcome.next (State.speedDecision_of_same (s := s.at_ beat) _ (by rw [hlane]; exact heq))
  · exact congrArg Host.Outcome.next (State.speedDecision_of_partner (s := s.at_ beat) up (by rw [hlane]; exact h))
  · refine congrArg Host.Outcome.next ?_
    simp only [State.renegTimeout, hport, hbeat, hr, hn, h, decide_true, Bool.and_self, if_true, t]
  · refine congrArg Host.Outcome.next ?_
    simp only [State.renegTimeout, hport, hbeat, hr, Nat.not_le.2 h, decide_false, Bool.and_false, Bool.false_eq_true, if_false, t]
  · refine congrArg Host.Outcome.next ?_
    simp only [hport, hbeat, he, hn, h, decide_true, Bool.and_self, if_true, t]
  · refine congrArg Host.Outcome.next ?_
    simp only [hport, hbeat, he, Nat.not_le.2 h, decide_false, Bool.and_false, Bool.false_eq_true, if_false, t]

/-- Settles O52. -/
theorem linkAndServiceRowsComplete : Obligations.LinkAndServiceRowsComplete :=
  ⟨networkServiceRowsComplete, linkRowsComplete⟩

end Sys2Proof.Machine
end

section
/-! SUPPORT. Bulk segments and transfers, and the service port's buffers (R67, R329, R331, R334, R365 to R369, R580). -/

namespace Sys2Proof.Machine

/-! ### Bulk -/

/-- The lane without the oldest segment of ring 62. -/
def State.segmentTaken (s : State) (l : LaneId) (rest : List (Nat × List Byte × Option Word × Word)) : State :=
  s.onLane l (fun x => ({ x with bulkRing := rest }).onRing 62 (fun g => { g with taken := g.taken + 1 }))

section
variable {s : State} {l : LaneId} {pair : Nat} {b : List Byte} {gen : Option Word} {e : Word}
  {rest : List (Nat × List Byte × Option Word × Word)} {h : Header}
  (hring : (s.lane l).bulkRing = (pair, b, gen, e) :: rest) (hh : readHeader b = some h)
include hring hh

theorem State.bulkSegment_of_keyless (hk : (s.lane l).keyOf 2 h.part = none) :
    s.bulkSegment l = (s.segmentTaken l rest).dropSegment l pair := by
  have hk' : ((s.segmentTaken l rest).lane l).keyOf 2 h.part = none := by rw [State.segmentTaken, State.lane_onLane]; exact hk
  simp only [State.segmentTaken] at hk' ⊢
  simp only [State.bulkSegment, hring, hh, hk']

theorem State.bulkSegment_of_key {k : Nat × List Byte × Word} (hk : (s.lane l).keyOf 2 h.part = some k) :
    s.bulkSegment l =
      (let q := (s.lane l).sender h.part
      let s1 := s.segmentTaken l rest
      if gen ≠ some k.2.2 then s1
      else if freshSeq q.bulkHigh.toNat q.bulkMarked h.seq = false then s1.dropSegment l pair
      else
        let w := markSeq q.bulkHigh.toNat q.bulkMarked h.seq
        (s1.onLane l (fun x => x.onSender h.part (fun v => { v with bulkHigh := w32 w.1, bulkMarked := w.2 }))).takeSegment
          l pair h.part (openParams b h (some k.2.1) 4) e) := by
  have hk' : ((s.segmentTaken l rest).lane l).keyOf 2 h.part = some k := by rw [State.segmentTaken, State.lane_onLane]; exact hk
  have hq : ((s.segmentTaken l rest).lane l).sender h.part = (s.lane l).sender h.part := by
    rw [State.segmentTaken, State.lane_onLane]
    rfl
  simp only [State.segmentTaken] at hk' hq ⊢
  simp only [State.bulkSegment, hring, hh, hk', hq, Bool.not_eq_true']

end

theorem State.bulkTimeout_of_find {s : State} {l : LaneId} {p id : Nat} {t : Transfer}
    (h : ((s.lane l).sender p).transfers.find? (fun t => t.id = id) = some t) :
    s.bulkTimeout l p id =
      if t.last + 2 * secBeats ≤ s.pkg.beat ∨ t.opened + 60 * secBeats ≤ s.pkg.beat then
        s.endTransfer l p id .badLength (beBytes 4 (gapless 0 t.bytes))
      else s := by
  simp only [State.bulkTimeout, h, Bool.or_eq_true, decide_eq_true_eq]

theorem bulkRowsComplete : Claims.BulkRowsComplete := by
  intro s l beat
  refine ⟨?_, fun p id t ht => ⟨fun h => ?_, fun h2 h60 => ?_⟩⟩
  · intro pair b gen e rest hring s1 h hh
    refine ⟨fun hk => congrArg Host.Outcome.next (State.bulkSegment_of_keyless hring hh hk), fun k hk => ?_⟩
    have heq := State.bulkSegment_of_key hring hh hk
    intro q
    refine ⟨fun hgen => ?_, fun hgen hfresh => ?_, fun hgen hfresh => ?_⟩
    · exact congrArg Host.Outcome.next (heq.trans (if_pos hgen))
    · exact congrArg Host.Outcome.next (heq.trans ((if_neg (not_not.2 hgen)).trans (if_pos hfresh)))
    · exact congrArg Host.Outcome.next (heq.trans ((if_neg (not_not.2 hgen)).trans (if_neg (by rw [hfresh]; decide))))
  · exact congrArg Host.Outcome.next ((State.bulkTimeout_of_find (by rw [State.lane_at]; exact ht)).trans (if_pos h))
  · refine congrArg Host.Outcome.next ((State.bulkTimeout_of_find (by rw [State.lane_at]; exact ht)).trans (if_neg ?_))
    exact not_or.2 ⟨Nat.not_le.2 h2, Nat.not_le.2 h60⟩

/-! ### The service port -/

theorem State.onPkg_onPkg (s : State) (f g : Package → Package) : (s.onPkg f).onPkg g = s.onPkg (fun p => g (f p)) := rfl

theorem State.spWrite_of_bad {s : State} {bytes : List Byte} {n : Nat} {complete : Bool}
    (h : complete = false ∨ 1472 < n ∨ bytes.length < n ∨ 4 ≤ s.pkg.sp.rx.length) :
    s.spWrite bytes n complete = s.onPkg (fun p => { p with sp := { p.sp with drops := p.sp.drops + 1 } }) := by
  refine if_pos ?_
  obtain h | h | h | h := h <;> simp [h]

/-- The service port after a packet of `n` bytes has been clocked in whole. -/
def State.spTaken (s : State) (b : List Byte) : State := s.onPkg (fun p => { p with sp := { p.sp with rx := p.sp.rx ++ [b] } })

theorem State.spWrite_of_whole {s : State} {bytes : List Byte} {n : Nat} (hn : n ≤ 1472) (hlen : n ≤ bytes.length)
    (hroom : s.pkg.sp.rx.length < 4) : s.spWrite bytes n true = (s.spTaken (bytes.take n)).drainSp :=
  if_neg (by simp [Nat.not_lt.2 hn, Nat.not_lt.2 hlen, Nat.not_le.2 hroom])

theorem State.drainSp_of_none {s : State} (h : s.active = none) : s.drainSp = s := by
  simp only [State.drainSp, h]

section
variable {s : State} {l : LaneId} {b : List Byte} (hrx : s.pkg.sp.rx = []) (hl : s.active = some l)
include hrx hl

theorem State.drainSp_spTaken : (s.spTaken b).drainSp = State.drainSpFrom l [b] (s.spTaken b) := by
  have hactive : (s.spTaken b).active = some l := hl
  have hone : (s.spTaken b).pkg.sp.rx = [b] := by simp [State.spTaken, State.onPkg, hrx]
  simp only [State.drainSp, hactive, hone]

/-- The receive buffer after its one packet has been taken. -/
theorem State.drainSp_of_taken (h : ((s.spTaken b).spPasses l b &&
    ((s.spTaken b).lane l).holdsBack (EventBody.net 4 none 0 b none ⟨0, [], 0, false⟩ 0).size) = false) :
    (s.spTaken b).drainSp = (s.onPkg (fun p => { p with sp := { p.sp with rx := [], held := 0 } })).takeSp l b := by
  have hempty : (s.spTaken b).onPkg (fun p => { p with sp := { p.sp with rx := [], held := min p.sp.held 0 } }) =
      s.onPkg (fun p => { p with sp := { p.sp with rx := [], held := 0 } }) := by
    rw [State.spTaken, State.onPkg_onPkg]
    simp only [Nat.min_zero]
  rw [State.drainSp_spTaken hrx hl, State.drainSpFrom, h]
  simp only [Bool.false_eq_true, if_false, State.drainSpFrom, List.length_nil, hempty]

theorem State.drainSp_of_held (h : ((s.spTaken b).spPasses l b &&
    ((s.spTaken b).lane l).holdsBack (EventBody.net 4 none 0 b none ⟨0, [], 0, false⟩ 0).size) = true) :
    (s.spTaken b).drainSp = (s.onLane l (fun x => x.countHeld (1 - s.pkg.sp.held))).onPkg (fun p => { p with sp := { p.sp with
      rx := [b], held := max p.sp.held 1 } }) := by
  rw [State.drainSp_spTaken hrx hl, State.drainSpFrom, h, if_pos rfl]
  cases l <;> simp [State.spTaken, State.onPkg, State.onLane, State.setLane, State.lane, hrx]

end

theorem State.takeSp_of_drop {s : State} {l : LaneId} {b : List Byte}
    (h : (s.lane l).intakeCheck (s.lane l).man.moduleId.toNat b false = .drop) :
    s.takeSp l b = s.onPkg (fun p => { p with sp := { p.sp with drops := p.sp.drops + 1 } }) := by
  simp only [State.takeSp, h]

theorem State.takeSp_of_pass {s : State} {l : LaneId} {b : List Byte} {part : Nat} {gen : Option Word}
    (h : (s.lane l).intakeCheck (s.lane l).man.moduleId.toNat b false = .pass part gen false) :
    s.takeSp l b = s.onLane l (fun x => x.enter l 3 1 part (.net 4 none 0 b gen ⟨0, [], 0, false⟩ s.pkg.beat)) := by
  simp only [State.takeSp, h, Bool.false_eq_true, if_false]

theorem State.lane_spTaken (s : State) (b : List Byte) (l : LaneId) : (s.spTaken b).lane l = s.lane l := by
  cases l <;> rfl

theorem State.spPasses_spTaken (s : State) (l : LaneId) (b : List Byte) :
    (s.spTaken b).spPasses l b =
      (match (s.lane l).intakeCheck (s.lane l).man.moduleId.toNat b false with
      | .drop => false
      | .pass _ _ unprot => !unprot || decide (s.pkg.sp.unprotected < 2000)) := by
  simp only [State.spPasses, State.lane_spTaken] <;> rfl

theorem servicePortRowsComplete : Claims.ServicePortRowsComplete := by
  intro s bytes n
  refine ⟨fun complete h => congrArg Host.Outcome.next (State.spWrite_of_bad h), fun hn hlen hroom hnone => ?_, ?_,
    fun r rest complete hr => ?_, fun complete hr => ?_, ?_⟩
  · exact congrArg Host.Outcome.next ((State.spWrite_of_whole hn hlen hroom).trans (State.drainSp_of_none hnone))
  · intro l hn hlen hrx hl b body s0 found
    have hroom : s.pkg.sp.rx.length < 4 := by rw [hrx]; decide
    have hwrite := State.spWrite_of_whole hn hlen hroom
    have hlane : ∀ f : Package → Package, (s.onPkg f).lane l = s.lane l := fun f => State.lane_onPkg ..
    refine ⟨fun hdrop => ?_, fun part gen hpass => ⟨fun hb => ?_, fun hb => ?_⟩⟩
    · have hpasses : (s.spTaken b).spPasses l b = false := by
        rw [State.spPasses_spTaken]
        simp only [found] at hdrop
        rw [hdrop]
      exact congrArg Host.Outcome.next (hwrite.trans ((State.drainSp_of_taken hrx hl (by rw [hpasses]; rfl)).trans
        (State.takeSp_of_drop (by rw [hlane]; exact hdrop))))
    · have hholds : ((s.spTaken b).lane l).holdsBack (EventBody.net 4 none 0 b none ⟨0, [], 0, false⟩ 0).size = false := by
        rw [State.lane_spTaken]
        exact hb
      exact congrArg Host.Outcome.next (hwrite.trans ((State.drainSp_of_taken hrx hl (by rw [hholds, Bool.and_false])).trans
        (State.takeSp_of_pass (by rw [hlane]; exact hpass))))
    · have hpasses : (s.spTaken b).spPasses l b = true := by
        rw [State.spPasses_spTaken]
        simp only [found] at hpass
        rw [hpass]
        rfl
      have hholds : ((s.spTaken b).lane l).holdsBack (EventBody.net 4 none 0 b none ⟨0, [], 0, false⟩ 0).size = true := by
        rw [State.lane_spTaken]
        exact hb
      exact congrArg Host.Outcome.next (hwrite.trans (State.drainSp_of_held hrx hl (by rw [hpasses, hholds]; rfl)))
  · exact congrArg Host.Outcome.next (by simp only [State.spRead, State.onPkg, hr])
  · exact congrArg Host.Outcome.next (by simp only [State.spRead, State.onPkg, hr])
  · refine ⟨_, rfl, ?_, rfl, rfl⟩
    by_cases hr : s.pkg.sp.replies = [] <;> by_cases hx : 4 ≤ s.pkg.sp.rx.length <;>
      simp [State.spStatus, State.onPkg, beBytes, b2n, hr, hx]

/-- Settles O53. -/
theorem bulkAndServicePortRowsComplete : Obligations.BulkAndServicePortRowsComplete :=
  ⟨bulkRowsComplete, servicePortRowsComplete⟩

end Sys2Proof.Machine
end

section
/-! SUPPORT. The core supply, the supply warning and reset (R245, R317, R538, R544 to R549, R555, R556, Table 17-7). -/

namespace Sys2Proof.Machine

/-! ### The core supply -/

/-- Whether less than `n` beats have passed since an occurrence. -/
def seenWithin (now : Nat) (b : Option Nat) (n : Nat) : Bool := match b with | some t => decide (now < t + n) | none => false

theorem seenWithin_of_some {now h n : Nat} {b : Option Nat} (hb : b = some h) (hlt : now < h + n) : seenWithin now b n = true := by
  subst hb
  exact decide_eq_true hlt

theorem seenWithin_of_all {now n : Nat} {b : Option Nat} (h : ∀ t, b = some t → t + n ≤ now) : seenWithin now b n = false := by
  cases b with
  | none => rfl
  | some t => exact decide_eq_false (Nat.not_lt.2 (h t rfl))

/-- The core supply that a step asks for. -/
def PwrBlk.nextCore (p : PwrBlk) (start now : Nat) : Nat :=
  if seenWithin now p.hotBeat 100000000 then min 900 (p.core + 10)
  else if !seenWithin now p.warmBeat 1000000000 && decide (start + 1000000000 ≤ now) && !seenWithin now p.marginBeat 6000000000 then
    max (max 600 p.floor) (p.core - 10)
  else p.core

theorem PwrBlk.step_eq (p : PwrBlk) (start now : Nat) :
    p.step start now = if p.pinEn || p.nextCore start now = p.core then { p with stepBeat := now }
      else { p with core := p.nextCore start now, coreSteps := p.coreSteps + 1, stepBeat := now } := rfl

theorem PwrBlk.stepBeat_step (p : PwrBlk) (start now : Nat) : (p.step start now).stepBeat = now := by
  rw [PwrBlk.step_eq]
  split <;> rfl

theorem PwrBlk.core_step_of_pin {p : PwrBlk} (start now : Nat) (h : p.pinEn = true) : (p.step start now).core = p.core := by
  rw [PwrBlk.step_eq, if_pos (by rw [h]; rfl)]

/-- The core supply of a step that no pin fixes. -/
theorem PwrBlk.core_step {p : PwrBlk} (start now : Nat) (hpin : p.pinEn = false) :
    (p.step start now).core = p.nextCore start now := by
  rw [PwrBlk.step_eq, hpin, Bool.false_or]
  by_cases h : p.nextCore start now = p.core
  · simp [h]
  · simp [h]

theorem State.coreSupplyStep_of_due {s : State} {l : LaneId} (hstarted : (s.lane l).started = true) (hx : (s.lane l).releases = true)
    (h : (s.lane l).blk.pwr.stepBeat + 100000000 ≤ s.pkg.beat) :
    ((s.coreSupplyStep l).lane l).blk.pwr = (s.lane l).blk.pwr.step s.pkg.resetBeat s.pkg.beat := by
  have ht : s.coreSupplyStep l = s.onLane l (fun y => y.onPwr (fun p => p.step s.pkg.resetBeat s.pkg.beat)) :=
    if_pos (by simp [hstarted, hx, h])
  rw [ht, State.lane_onLane]
  rfl

/-! ### The supply warning -/

/-- What a supply warning sets in a lane. -/
structure Lane.IsWarned (x y : Lane) : Prop where
  warn : y.blk.pwr.warn = true
  finalDone : y.blk.pwr.finalDone = false
  warns : y.blk.pwr.warns = x.blk.pwr.warns + 1
  saveJob : y.man.saveJob = none
  laneBlk : y.blk.lane = x.blk.lane

theorem Lane.IsWarned.startFinal {x y : Lane} (h : x.IsWarned y) (o : Order) (dom : Domain) (now before : Nat) :
    x.IsWarned (y.startFinal o dom now before) := by
  obtain ⟨hwarn, hdone, hwarns, hjob, hblk⟩ := h
  unfold Lane.startFinal
  split
  · exact ⟨hwarn, hdone, hwarns, hjob, hblk⟩
  · exact ⟨hwarn, hdone, hwarns, hjob, hblk⟩

theorem Lane.isWarned_warned (x : Lane) (o : Order) (dom : Domain) (now : Nat) : x.IsWarned (x.warned o dom now) := by
  have hfirst : x.IsWarned (x.abandonSave.onPwr (fun p => { p with warn := true, finalDone := false, warns := p.warns + 1 })) :=
    ⟨rfl, rfl, rfl, rfl, rfl⟩
  have hall : x.IsWarned (if x.blk.lane.role = .halted then x.abandonSave.onPwr (fun p =>
      { p with warn := true, finalDone := false, warns := p.warns + 1 })
      else (x.abandonSave.onPwr (fun p => { p with warn := true, finalDone := false, warns := p.warns + 1 })).startFinal o dom now now) := by
    split
    · exact hfirst
    · exact hfirst.startFinal o dom now now
  exact ⟨hall.warn, hall.finalDone, hall.warns, hall.saveJob, hall.laneBlk⟩

theorem State.supplyWarning_lane {s : State} (hreset : s.pkg.inReset = false) (ha : s.a.blk.pwr.warn = false)
    (hb : s.b.blk.pwr.warn = false) (k : LaneId) :
    (s.supplyWarning.lane k).blk.pwr.warn = true ∧ (s.supplyWarning.lane k).blk.pwr.finalDone = false ∧
      (s.supplyWarning.lane k).blk.pwr.warns = (s.lane k).blk.pwr.warns + 1 ∧ (s.supplyWarning.lane k).man.saveJob = none ∧
      ((s.lane k).collects = true → (s.supplyWarning.lane k).hasBit 180 = true) := by
  let s1 : State := { s with a := s.a.warned s.pkg.order s.pkg.dom s.pkg.beat, b := s.b.warned s.pkg.order s.pkg.dom s.pkg.beat }
  have ht : s.supplyWarning = s1.flagBoth 180 true := if_neg (by simp [hreset, ha, hb])
  have hw : (s.lane k).IsWarned (s1.lane k) := by cases k <;> exact Lane.isWarned_warned ..
  have hflags := s1.flagBoth_onlyFlags 180 true
  rw [ht, hflags.keeps (p := fun x => x.blk.pwr) (fun _ => rfl) k, hflags.keeps (p := fun x => x.man.saveJob) (fun _ => rfl) k]
  exact ⟨hw.warn, hw.finalDone, hw.warns, hw.saveJob, fun hc =>
    s1.flagBoth_hasBit k true ((Lane.collects_eq_of_laneBlk hw.laneBlk).trans hc) (by decide)⟩

theorem State.warningCleared_lane (s : State) (k : LaneId) :
    (s.warningCleared.lane k).blk.pwr.warn = false ∧ (s.warningCleared.lane k).blk.pwr.finalDone = false ∧
      (s.warningCleared.lane k).hasCause 180 = false ∧ (s.warningCleared.lane k).blk.flt.sticky = (s.lane k).blk.flt.sticky := by
  rw [State.warningCleared, State.lane_endCauseBoth]
  refine ⟨?_, ?_, (Lane.endCause_fields _ 0 180).2, ?_⟩
  all_goals cases k <;> rfl

theorem powerRowsComplete : Claims.PowerRowsComplete := by
  intro s l beat now p
  have hlane : ∀ k, (s.at_ beat).lane k = s.lane k := State.lane_at s beat
  have hstep := fun h1 h2 h3 => State.coreSupplyStep_of_due (s := s.at_ beat) (l := l) h1 h2 h3
  simp only [hlane] at hstep
  refine ⟨fun hstarted hx h hpin => ?_, fun hstarted hx h hpin => ?_, fun hreset ha hb => ?_, ?_, rfl, rfl⟩
  · have hpwr : (((s.at_ beat).coreSupplyStep l).lane l).blk.pwr = p.step s.pkg.resetBeat now := hstep hstarted hx h
    have hcore := PwrBlk.core_step s.pkg.resetBeat now hpin
    refine ⟨_, rfl, by rw [hpwr, PwrBlk.stepBeat_step], ?_, ?_, ?_⟩
    · rintro ⟨t, ht, hlt⟩
      rw [hpwr, hcore, PwrBlk.nextCore, seenWithin_of_some ht hlt, if_pos rfl]
    · rintro hhot ⟨t, ht, hlt⟩
      rw [hpwr, hcore, PwrBlk.nextCore, seenWithin_of_all hhot, seenWithin_of_some ht hlt]
      rfl
    · intro hhot hwarm hreset hmargin
      rw [hpwr, hcore, PwrBlk.nextCore, seenWithin_of_all hhot, seenWithin_of_all hwarm, seenWithin_of_all hmargin, decide_eq_true hreset]
      rfl
  · exact ⟨_, rfl, (congrArg PwrBlk.core (hstep hstarted hx h)).trans (PwrBlk.core_step_of_pin _ _ hpin)⟩
  · refine ⟨_, rfl, fun k => ?_⟩
    have hall := State.supplyWarning_lane (s := s.at_ beat) hreset ha hb k
    rw [hlane] at hall
    exact hall
  · refine ⟨_, rfl, fun k => ?_⟩
    have hall := State.warningCleared_lane (s.at_ beat) k
    rw [hlane] at hall
    exact hall

/-! ### Reset -/

/-- A module reset: what stays, and what goes to its reset value. -/
theorem State.moduleReset_lane (s : State) (cause : Nat) (l : LaneId) : (s.moduleReset cause).lane l = (s.lane l).afterReset cause := by
  cases l <;> rfl

theorem State.vrstReset_of_still {s : State} (hr : s.pkg.inReset = false) (ht : s.pkg.transition = none) :
    s.vrstReset = s.moduleReset (if s.a.blk.pwr.warn || s.b.blk.pwr.warn then 1 else 2) := by
  simp only [State.vrstReset, hr, ht, Bool.false_eq_true, if_false]

theorem State.vrstReset_of_blown {s : State} {c : LifeCycle} {b : Nat} (hr : s.pkg.inReset = false)
    (ht : s.pkg.transition = some (c, b)) (hb : b + fuseBeats ≤ s.pkg.beat) :
    s.vrstReset = (s.onPkg (fun p => { p with life := c })).moduleReset (if s.a.blk.pwr.warn || s.b.blk.pwr.warn then 1 else 2) := by
  simp only [State.vrstReset, hr, ht, Bool.false_eq_true, if_false, hb, if_true]

/-- The module after the release of reset. -/
def State.released (s : State) : State :=
  s.onPkg (fun p => { p with inReset := false, released := true, beat := 0, resetBeat := 0, timeLostAtStart := p.dom.timeLost })

theorem State.resetRelease_of_transition {s : State} {c : LifeCycle} {b : Nat} (hr : s.pkg.inReset = false)
    (ht : s.pkg.transition = some (c, b)) : s.resetRelease = ((s.onPkg (fun p => { p with life := c })).moduleReset 3).released := by
  simp only [State.resetRelease, hr, ht, Bool.false_eq_true, if_false]
  rfl

theorem resetRowsComplete : Claims.ResetRowsComplete := by
  intro s
  refine ⟨fun hr ht => ?_, fun c b hr ht hb => ?_, fun hr => congrArg Host.Outcome.next (if_pos hr),
    fun r hr => congrArg Host.Outcome.next (if_pos hr), fun r c b hr ht => ?_, fun r hr ht => ?_⟩
  · refine ⟨_, congrArg Host.Outcome.next (State.vrstReset_of_still hr ht), rfl, rfl, rfl, rfl, rfl, rfl, rfl, rfl, rfl, rfl, fun l => ?_⟩
    rw [State.moduleReset_lane]
    exact ⟨rfl, rfl, rfl, rfl, rfl, rfl, rfl⟩
  · exact ⟨_, congrArg Host.Outcome.next (State.vrstReset_of_blown hr ht hb), rfl, rfl, rfl⟩
  · refine ⟨_, congrArg Host.Outcome.next (State.resetRelease_of_transition hr ht), rfl, rfl, rfl, rfl, fun l => ?_⟩
    rw [State.released, State.lane_onPkg, State.moduleReset_lane, State.lane_onPkg]
    exact ⟨rfl, rfl, rfl⟩
  · refine congrArg Host.Outcome.next ?_
    simp only [State.resetRelease, hr, ht, Bool.false_eq_true, if_false]

/-- Settles O59. -/
theorem powerAndResetRowsComplete : Obligations.PowerAndResetRowsComplete :=
  ⟨powerRowsComplete, resetRowsComplete⟩

end Sys2Proof.Machine
end

section
/-! SUPPORT. The completion of a flash write (R170, R240, R268, R358, R534). -/

namespace Sys2Proof.Machine

/-! ### The writes and the outstanding commands of a lane -/

/-- The flash writes of a lane, the images that wait for the partner's write, and the outstanding commands. -/
def Lane.writes (x : Lane) : List (FlashJob × Nat) × List NewImage × List Outstanding := (x.job, x.imgWait, x.man.outstanding)

@[simp] theorem Lane.writes_onRing (x : Lane) (r : Nat) (f : Ring → Ring) : (x.onRing r f).writes = x.writes := rfl
@[simp] theorem Lane.writes_onNet (x : Lane) (f : NetBlk → NetBlk) : (x.onNet f).writes = x.writes := rfl
@[simp] theorem Lane.writes_onSender (x : Lane) (p : Nat) (f : Sender → Sender) : (x.onSender p f).writes = x.writes := rfl

@[simp] theorem Lane.writes_onPort (x : Lane) (n : Nat) (f : PortSt → PortSt) : (x.onPort n f).writes = x.writes := by
  unfold Lane.onPort
  split <;> rfl

@[simp] theorem Lane.writes_notice (x : Lane) (h : Hdr) (opcode : Nat) (e : Word) (owners : List Nat) (ps : List Byte) :
    (x.notice h opcode e owners ps).writes = x.writes :=
  foldl_keeps (fun _ _ => Lane.writes_onRing ..) _ _

@[simp] theorem Lane.writes_postFrame (x : Lane) (room : Bool) (ring beat : Nat) (dst : Source) (sport : Nat) (bs : List Byte) :
    (x.postFrame room ring beat dst sport bs).writes = x.writes := by
  unfold Lane.postFrame
  dsimp only
  split
  · exact Lane.writes_onNet ..
  · split
    · rfl
    · exact (Lane.writes_onPort ..).trans (Lane.writes_onNet ..)

@[simp] theorem Lane.writes_postTx (x : Lane) (ring beat : Nat) (dst : Source) (sport : Nat) (bs : List Byte) :
    (x.postTx ring beat dst sport bs).writes = x.writes := by
  unfold Lane.postTx Lane.dropTx
  dsimp only
  split_ifs <;> simp

theorem State.writes_sendPacket (s : State) (l : LaneId) (via : Via) (dst : Source) (b : List Byte) :
    ((s.sendPacket l via dst b).lane l).writes = (s.lane l).writes := by
  unfold State.sendPacket
  split
  · rw [State.lane_onLane, Lane.writes_postTx]
  · split
    · rw [State.lane_onPkg]
    · rfl

theorem State.writes_replyWith (s : State) (l : LaneId) (key : Option (List Byte)) (h : Hdr) (opcode : Nat) (st : Status)
    (ps : List Byte) (e : Word) : ((s.replyWith l key h opcode st ps e).lane l).writes = (s.lane l).writes := by
  unfold State.replyWith
  split
  · dsimp only [State.sendReply]
    rw [State.writes_sendPacket, State.lane_onLane, Lane.writes_onSender]
  · exact State.writes_sendPacket ..

/-- An answered command is no longer outstanding. -/
theorem State.writes_finish (s : State) (l : LaneId) (o : Outstanding) (st : Status) (ps : List Byte) :
    ((s.finish l o st ps).lane l).writes = ((s.lane l).job, (s.lane l).imgWait, (s.lane l).man.outstanding.erase o) := by
  unfold State.finish
  dsimp only [State.reply]
  rw [State.writes_replyWith, State.lane_setLane]
  split
  · exact Lane.writes_notice ..
  · rfl

theorem State.writes_foldl_finish (l : LaneId) (st : Status) (ps : List Byte) (os : List Outstanding) (s : State) :
    ((os.foldl (fun (t : State) o => t.finish l o st ps) s).lane l).writes =
      ((s.lane l).job, (s.lane l).imgWait, os.foldl List.erase (s.lane l).man.outstanding) := by
  induction os generalizing s with
  | nil => rfl
  | cons o os ih =>
    have hone := s.writes_finish l o st ps
    simp only [Lane.writes, Prod.mk.injEq] at hone
    obtain ⟨hjob, hwait, hout⟩ := hone
    rw [List.foldl_cons, ih, hjob, hwait, hout, List.foldl_cons]

theorem not_mem_foldl_erase_filter {α : Type} [DecidableEq α] (p : α → Bool) (os : List α) {o : α} (hp : p o = true) :
    o ∉ (os.filter p).foldl List.erase os := by
  rw [← List.diff_eq_foldl, ← List.count_eq_zero, List.count_diff, List.count_filter hp, Nat.sub_self]

/-- Answering the commands of a header leaves none of them outstanding, and touches neither stored state nor the other lane. -/
theorem State.finishCmd_answers (s : State) (l : LaneId) (h : Hdr) (st : Status) (ps : List Byte) :
    OnlyReplies l s (s.finishCmd l h st ps) ∧ ((s.finishCmd l h st ps).lane l).job = (s.lane l).job ∧
      ((s.finishCmd l h st ps).lane l).imgWait = (s.lane l).imgWait ∧
      ∀ o ∈ ((s.finishCmd l h st ps).lane l).man.outstanding, o.hdr ≠ h := by
  have hw : ((s.finishCmd l h st ps).lane l).writes = _ := State.writes_foldl_finish l st ps _ s
  simp only [Lane.writes, Prod.mk.injEq] at hw
  obtain ⟨hjob, hwait, hout⟩ := hw
  refine ⟨.foldl (fun t o => t.finish_onlyReplies l o st ps) _ _, hjob, hwait, fun o ho hh => ?_⟩
  rw [hout] at ho
  exact not_mem_foldl_erase_filter (fun o : Outstanding => decide (o.hdr = h)) _ (by simpa using hh) ho

/-! ### Images -/

/-- A lane that takes a written image into its load slot. -/
def Lane.takesImage (x : Lane) (w : NewImage) : Lane :=
  ((({ x with imgWait := x.imgWait.filter (fun v => v.hdr ≠ w.hdr) } : Lane).keepTable w.part (x.part w.part).loaded).onPart
    w.part (fun q => { q with loaded := some w.image })).onFlash (fun f => { f with
      loaded := oset f.loaded w.part (storeImage w.image w.bytes) }) |>.extend (4 + w.part / 4) (imageInput w.part w.image)

theorem Lane.takesImage_fields (x : Lane) (w : NewImage) :
    ((x.takesImage w).part w.part).loaded = some w.image ∧ ((x.takesImage w).part w.part).current = (x.part w.part).current ∧
      (x.takesImage w).flash.loaded.lookup w.part = some (storeImage w.image w.bytes) ∧ (x.takesImage w).job = x.job ∧
      (x.takesImage w).imgWait = x.imgWait.filter (fun v => v.hdr ≠ w.hdr) := by
  have hpart : (x.takesImage w).part w.part = { x.part w.part with loaded := some w.image } :=
    tget_tmod_same ({} : Part) x.parts w.part (fun q => { q with loaded := some w.image })
  refine ⟨by rw [hpart], by rw [hpart], lookup_oset_same .., rfl, rfl⟩

theorem State.takeImage_eq (s : State) (l : LaneId) (w : NewImage) :
    s.takeImage l w = (s.onLane l (fun x => x.takesImage w)).finishCmd l w.hdr .ok
      (beBytes 2 w.image.gen.toNat ++ zeros 2 ++ w.image.digest) := rfl

/-- Lane `l` of `t` has taken the image `w` that lane `l` of `s` had written. -/
structure State.TookImage (s t : State) (l : LaneId) (w : NewImage) : Prop where
  loaded : ((t.lane l).part w.part).loaded = some w.image
  current : ((t.lane l).part w.part).current = ((s.lane l).part w.part).current
  flash : (t.lane l).flash.loaded.lookup w.part = some (storeImage w.image w.bytes)
  job : (t.lane l).job = (s.lane l).job
  imgWait : (t.lane l).imgWait = (s.lane l).imgWait.filter (fun v => v.hdr ≠ w.hdr)
  answered : ∀ o ∈ (t.lane l).man.outstanding, o.hdr ≠ w.hdr
  other : t.lane l.other = s.lane l.other

theorem State.takeImage_tookImage (s : State) (l : LaneId) (w : NewImage) : s.TookImage (s.takeImage l w) l w := by
  let s1 := s.onLane l (fun x => x.takesImage w)
  obtain ⟨hreplies, hjob, hwait, hout⟩ := s1.finishCmd_answers l w.hdr .ok (beBytes 2 w.image.gen.toNat ++ zeros 2 ++ w.image.digest)
  obtain ⟨hloaded, hcurrent, hflash, hjob1, hwait1⟩ := (s.lane l).takesImage_fields w
  have hlane : s1.lane l = (s.lane l).takesImage w := State.lane_onLane ..
  have hparts := hreplies.parts
  have hfl : (((s.takeImage l w).lane l).flash) = (s1.lane l).flash := congrArg (fun q => q.2.2.1) hreplies.lane
  have hpart : ((s.takeImage l w).lane l).part w.part = ((s.lane l).takesImage w).part w.part := by
    rw [← hlane]
    exact congrArg (fun q => tget {} q w.part) hparts
  refine ⟨by rw [hpart, hloaded], by rw [hpart, hcurrent], by rw [hfl, hlane, hflash], ?_, ?_, hout, ?_⟩
  · exact hjob.trans (by rw [hlane, hjob1])
  · exact hwait.trans (by rw [hlane, hwait1])
  · exact hreplies.other.trans (by simp [s1])

section
variable {s : State} {l : LaneId} {w : NewImage} (hx : (s.lane l).imgWait = [w])
include hx

theorem State.settleImages_of_alone (hy : (s.lane l.other).inService = false) (hnone : (s.lane l.other).imgWait = []) :
    s.settleImages = s.takeImage l w := by
  cases l <;> simp only [State.lane, LaneId.other] at hx hy hnone <;> simp [State.settleImages, hx, hy, hnone]

theorem State.settleImages_of_waiting (hy : (s.lane l.other).inService = true) (hnone : (s.lane l.other).imgWait = []) :
    s.settleImages = s := by
  cases l <;> simp only [State.lane, LaneId.other] at hx hy hnone <;> simp [State.settleImages, hx, hy, hnone]

theorem State.settleImages_of_both (hy : (s.lane l.other).imgWait = [w]) :
    s.settleImages = (s.takeImage .a w).takeImage .b w := by
  cases l <;> simp only [State.lane, LaneId.other] at hx hy <;> simp [State.settleImages, hx, hy]

end

/-! ### The row -/

theorem exec_flashWriteComplete {s : State} {l : LaneId} {j : FlashJob} {b : Nat} {rest : List (FlashJob × Nat)}
    (h : (s.lane l).job = (j, b) :: rest) (beat : Nat) :
    exec (.flashWriteComplete l beat) s = .next (((s.at_ beat).onLane l (fun x => { x with job := rest })).completeJob l j) := by
  have h' : ((s.at_ beat).lane l).job = (j, b) :: rest := by rw [State.lane_at]; exact h
  refine congrArg Host.Outcome.next ?_
  simp only [State.flashWriteComplete, h']

/-- The state in which an image has just been written, before the lanes settle it. -/
def State.written (s : State) (l : LaneId) (beat : Nat) (rest : List (FlashJob × Nat)) (w : NewImage) : State :=
  (s.at_ beat).onLane l (fun x => { x with job := rest, imgWait := x.imgWait ++ [w] })

theorem State.written_eq (s : State) (l : LaneId) (beat : Nat) (rest : List (FlashJob × Nat)) (w : NewImage) :
    ((s.at_ beat).onLane l (fun x => { x with job := rest })).completeJob l (.image w) = (s.written l beat rest w).settleImages := by
  cases l <;> rfl

theorem State.written_lane (s : State) (l : LaneId) (beat : Nat) (rest : List (FlashJob × Nat)) (w : NewImage) :
    (s.written l beat rest w).lane l = { s.lane l with job := rest, imgWait := (s.lane l).imgWait ++ [w] } ∧
      (s.written l beat rest w).lane l.other = s.lane l.other := by
  refine ⟨?_, ?_⟩
  · rw [State.written, State.lane_onLane, State.lane_at]
  · simp [State.written]

theorem filter_self_hdr (w : NewImage) : [w].filter (fun v => v.hdr ≠ w.hdr) = [] := by simp

/-- Both lanes have written the image: each takes it. -/
theorem State.takeImage_both {s : State} {w : NewImage} (hw : ∀ k, (s.lane k).imgWait = [w]) (k : LaneId) :
    let t := (s.takeImage .a w).takeImage .b w
    ((t.lane k).part w.part).loaded = some w.image ∧ (t.lane k).flash.loaded.lookup w.part = some (storeImage w.image w.bytes) ∧
      (t.lane k).imgWait = [] := by
  intro t
  have ha := s.takeImage_tookImage .a w
  have hb := (s.takeImage .a w).takeImage_tookImage .b w
  cases k with
  | a =>
    have hother : t.lane .a = (s.takeImage .a w).lane .a := hb.other
    rw [hother]
    exact ⟨ha.loaded, ha.flash, ha.imgWait.trans (by rw [hw, filter_self_hdr])⟩
  | b =>
    have hother : (s.takeImage .a w).lane .b = s.lane .b := ha.other
    exact ⟨hb.loaded, hb.flash, hb.imgWait.trans (by rw [hother, hw, filter_self_hdr])⟩

theorem flashWritesComplete : Claims.FlashWritesComplete := by
  intro s l beat b rest x y s1
  refine ⟨fun h => exec_flashWriteComplete h beat, fun n h => exec_flashWriteComplete h beat, fun n v h => exec_flashWriteComplete h beat,
    fun n h => exec_flashWriteComplete h beat, fun w h hwait => ?_, fun h => ?_⟩
  · have hexec := (exec_flashWriteComplete h beat).trans (congrArg Host.Outcome.next (s.written_eq l beat rest w))
    obtain ⟨hlane, hother⟩ := s.written_lane l beat rest w
    have hone : ((s.written l beat rest w).lane l).imgWait = [w] := by
      rw [hlane]
      exact congrArg (· ++ [w]) hwait
    refine ⟨fun hy hnone => ?_, fun hy hnone => ?_, fun hy hboth => ?_⟩
    · have hsettled := State.settleImages_of_alone hone (by rw [hother]; exact hy) (by rw [hother]; exact hnone)
      have htook := (s.written l beat rest w).takeImage_tookImage l w
      refine ⟨_, hexec.trans (congrArg Host.Outcome.next hsettled), htook.loaded, htook.current.trans ?_, htook.flash, htook.job.trans ?_,
        htook.imgWait.trans ?_, htook.answered, htook.other.trans hother⟩
      · rw [hlane]
        rfl
      · rw [hlane]
      · rw [hone, filter_self_hdr]
    · have hsettled := State.settleImages_of_waiting hone (by rw [hother]; exact hy) (by rw [hother]; exact hnone)
      refine ⟨_, hexec.trans (congrArg Host.Outcome.next hsettled), hone, ?_, ?_⟩
      · rw [hlane]
      · rw [hlane]
    · have hsettled := State.settleImages_of_both hone (by rw [hother]; exact hboth)
      have hw : ∀ k, ((s.written l beat rest w).lane k).imgWait = [w] := fun k => by
        obtain rfl | rfl : k = l ∨ k = l.other := by cases k <;> cases l <;> simp [LaneId.other]
        · exact hone
        · rw [hother]
          exact hboth
      exact ⟨_, hexec.trans (congrArg Host.Outcome.next hsettled), State.takeImage_both hw⟩
  · refine congrArg Host.Outcome.next ?_
    have h' : ((s.at_ beat).lane l).job = [] := by rw [State.lane_at]; exact h
    simp only [State.flashWriteComplete, h']

end Sys2Proof.Machine
end

section
/-! SUPPORT. The steps of a start (R393, R531, R552, Table 17-4). -/

namespace Sys2Proof.Machine

/-! ### Boot, self-test and pairing -/

theorem Lane.measureBoot_keeps (x : Lane) (stages : List (List Byte)) :
    ((x.measureBoot stages).mram, (x.measureBoot stages).flash, (x.measureBoot stages).blk.lane) = (x.mram, x.flash, x.blk.lane) :=
  foldl_keeps (p := fun y : Lane => (y.mram, y.flash, y.blk.lane)) (by intros; rfl) _ _

theorem State.bootComplete_of_owned {s : State} {l : LaneId} (hr : s.pkg.inReset = false) (hb : (s.lane l).booted = false)
    (hret : s.pkg.life ≠ .returned) (hvoid : s.pkg.life ≠ .void) (ok : Bool) (ver : Nat) (stages : List (List Byte)) :
    s.bootComplete l ok ver stages =
      if ok then s.setLane l (({ (s.lane l).measureBoot stages with booted := true, version := ver }).onLaneBlk
        (fun b => { b with role := .selftest }))
      else s.setLane l (s.lane l) := by
  simp [State.bootComplete, hr, hb, hret, hvoid]

theorem State.bootComplete_of_erased {s : State} {l : LaneId} (hr : s.pkg.inReset = false) (hb : (s.lane l).booted = false)
    (hlife : s.pkg.life = .returned ∨ s.pkg.life = .void) (ok : Bool) (ver : Nat) (stages : List (List Byte)) :
    s.bootComplete l ok ver stages =
      if ok then s.setLane l (({ (s.lane l).eraseOwner.measureBoot stages with booted := true, version := ver }).onLaneBlk
        (fun b => { b with role := .selftest }))
      else s.setLane l (s.lane l).eraseOwner := by
  simp [State.bootComplete, hr, hb, hlife]

/-- What a boot leaves of a lane `y` whose measured stages make it `z`. -/
theorem State.booted_lane (s : State) (l : LaneId) {y z : Lane} (h : (z.mram, z.flash, z.blk.lane) = (y.mram, y.flash, y.blk.lane))
    (ok : Bool) (ver : Nat) :
    let t := if ok then s.setLane l (({ z with booted := true, version := ver }).onLaneBlk (fun b => { b with role := .selftest }))
      else s.setLane l y
    (t.lane l).mram = y.mram ∧ (t.lane l).flash = y.flash ∧
      (t.lane l).blk.lane.role = if ok then .selftest else y.blk.lane.role := by
  simp only [Prod.mk.injEq] at h
  obtain ⟨hmram, hflash, -⟩ := h
  cases ok with
  | true => cases l <;> exact ⟨hmram, hflash, rfl⟩
  | false => cases l <;> exact ⟨rfl, rfl, rfl⟩

theorem bootComplete_erases {s : State} {l : LaneId} (ok : Bool) (ver : Nat) (stages : List (List Byte)) (hr : s.pkg.inReset = false)
    (hb : (s.lane l).booted = false) (hlife : s.pkg.life = .returned ∨ s.pkg.life = .void) :
    ((s.bootComplete l ok ver stages).lane l).mram = (s.lane l).eraseOwner.mram ∧
      ((s.bootComplete l ok ver stages).lane l).flash = (s.lane l).eraseOwner.flash ∧
      ((s.bootComplete l ok ver stages).lane l).blk.lane.role = if ok then .selftest else (s.lane l).blk.lane.role := by
  rw [State.bootComplete_of_erased hr hb hlife]
  exact s.booted_lane l ((s.lane l).eraseOwner.measureBoot_keeps stages) ok ver

/-- A lane that passes its self-test, before it announces itself or joins its partner. -/
def Lane.passedTest (x : Lane) (now : Nat) : Lane :=
  ({ x with tested := true, announced := true, announceBeat := now }).onPwr (fun p => { p with floor := 600 })

section
variable {s : State} {l : LaneId} (hb : (s.lane l).booted = true) (ht : (s.lane l).tested = false)
  (hrole : (s.lane l).blk.lane.role = .selftest) (hstep : (s.lane l).blk.lane.rejoinStep = 0)
include hb ht hrole hstep

theorem State.startupSelfTest_of_failed :
    s.startupSelfTest l false = s.onLane l (fun y => ({ y with tested := true }).onLaneBlk (fun b => { b with role := .off })) := by
  simp [State.startupSelfTest, hb, ht, hrole, hstep]

theorem State.startupSelfTest_of_alone (hy : (s.lane l.other).inService = false) :
    s.startupSelfTest l true = (s.setLane l ((s.lane l).passedTest s.pkg.beat)).send l (.announce (s.lane l).bootMeas (s.lane l).version
      (s.lane l).preferRecord.1 (s.lane l).preferRecord.2.1 (s.lane l).preferRecord.2.2) := by
  simp [State.startupSelfTest, hb, ht, hrole, hstep, hy, Lane.passedTest]

theorem State.startupSelfTest_of_partner (hy : (s.lane l.other).inService = true) :
    s.startupSelfTest l true = s.setLane l ((s.lane l).passedTest s.pkg.beat).beginJoin := by
  simp [State.startupSelfTest, hb, ht, hrole, hstep, hy, Lane.passedTest]

end

/-- The inboxes after a message is sent on the link. -/
theorem State.send_lanes (s : State) (l : LaneId) (m : Msg) :
    (∃ n, (s.send l m).lane l = { s.lane l with linkSeq := n }) ∧
      ((s.send l m).lane l.other).inbox = (s.lane l.other).inbox ++ [m] := by
  refine ⟨⟨(s.lane l).linkSeq + 1, ?_⟩, ?_⟩
  · cases l <;> rfl
  · cases l <;> rfl

/-- The lane that the preference record `r` names, and the other, after a pairing of equal versions. -/
theorem State.pair_lanes {s : State} {r : Nat × Nat × Nat} {first : LaneId} (hmeas : s.a.bootMeas = s.b.bootMeas)
    (hver : s.a.version = s.b.version)
    (hr : (if s.a.preferRecord.2.2 < s.b.preferRecord.2.2 then s.b.preferRecord else s.a.preferRecord) = r)
    (hfirst : (preferred r.1).getD .a = first) :
    (s.pair.lane first).blk.lane.role = .active ∧ (s.pair.lane first.other).blk.lane.role = .standby ∧
      ∀ k, (s.pair.lane k).blk.lane.paired = true ∧ (s.pair.lane k).blk.lane.prefer = r.1 ∧ (s.pair.lane k).blk.lane.holdoff = r.2.1 := by
  unfold State.pair
  dsimp only
  rw [if_pos (by simp [hmeas, hver]), hr, hfirst]
  cases first with
  | a => exact ⟨rfl, rfl, fun k => by cases k <;> exact ⟨rfl, rfl, rfl⟩⟩
  | b => exact ⟨rfl, rfl, fun k => by cases k <;> exact ⟨rfl, rfl, rfl⟩⟩

theorem State.pairingTimeout_lane {s : State} {l : LaneId} (hw : (s.lane l).waitsPartner = true)
    (h : (s.lane l).announceBeat + pairBeats ≤ s.pkg.beat) (hp : s.canPair = false) (hy : (s.lane l.other).inService = false) :
    ((s.pairingTimeout l).lane l).blk.lane.role = .active ∧ ((s.pairingTimeout l).lane l).blk.lane.paired = false := by
  have ht : s.pairingTimeout l = _ := if_pos (by simp [hw, h, hp, hy])
  rw [ht]
  split
  · cases l <;> exact ⟨rfl, rfl⟩
  · cases l <;> exact ⟨rfl, rfl⟩

/-! ### Stored settings -/

/-- What a start takes from stored configuration: module name, points, supply warning, the two pairs and their filters, blobs. -/
def Lane.settings (x : Lane) : BitVec 32 × PntBlk × Nat × PairCfg × PairCfg × Tab Word × Tab Word × Tab StoredBlob :=
  (x.man.moduleId, x.blk.pnt, x.blk.pwr.vwarn, x.blk.net.estate, x.blk.net.floor, x.blk.net.filtVlan, x.blk.net.filtAct, x.flash.blobs)

theorem Lane.settings_beyondEvents (x : Lane) : x.beyondEvents.settings = x.settings := rfl

theorem Lane.settings_setBit (x : Lane) (l : LaneId) (b : Nat) (lasting : Bool) : (x.setBit l b lasting).settings = x.settings := by
  rw [← Lane.settings_beyondEvents, Lane.beyondEvents_setBit, Lane.settings_beyondEvents]

theorem Lane.settings_restoreLoops (x : Lane) (l : LaneId) : (x.restoreLoops l).settings = x.settings := by
  unfold Lane.restoreLoops
  dsimp only
  split
  · exact Lane.settings_setBit ..
  · rfl

theorem State.settings_restorePattern (v : State) (l : LaneId) (x : Lane) (n : Nat) : (v.restorePattern l x n).settings = x.settings := by
  have hdiffer : ∀ b : Bool, (if b then x.setBit l 2078 false else x).settings = x.settings := fun b => by
    cases b
    · rfl
    · exact Lane.settings_setBit ..
  unfold State.restorePattern
  dsimp only
  split
  · rfl
  · split
    · split
      · exact hdiffer _
      · exact (Lane.settings_setBit ..).trans (hdiffer _)
    · exact (Lane.settings_setBit ..).trans (hdiffer _)

theorem Lane.settings_actPin (x : Lane) (l : LaneId) (e : Word) (item index : Nat) (pin : Option Word) :
    (x.actPin l e item index pin).settings = x.settings := by
  unfold Lane.actPin
  split
  · split <;> rfl
  · split
    · unfold Lane.onPort
      split <;> rfl
    · rfl
  · unfold Lane.queueGroup
    split <;> rfl
  · rfl
  · rfl

theorem Lane.settings_restorePins (x : Lane) (l : LaneId) : (x.restorePins l).settings = x.settings := by
  refine foldl_keeps (p := Lane.settings) (fun y p => ?_) _ _
  split
  · split <;> rfl
  · exact Lane.settings_actPin ..

theorem State.settings_restoreHeddle (v : State) (l : LaneId) (x : Lane) (r : Nat) : (v.restoreHeddle l x r).settings = x.settings := by
  have hdiffer : ∀ b : Bool, (if b then x.setBit l 2096 false else x).settings = x.settings := fun b => by
    cases b
    · rfl
    · exact Lane.settings_setBit ..
  unfold State.restoreHeddle
  dsimp only
  split
  · exact hdiffer _
  · exact hdiffer _

theorem Lane.settings_unwrapAll (x : Lane) (kek : Option (BitVec 256)) (gen : Word) : (x.unwrapAll kek gen).settings = x.settings := by
  unfold Lane.unwrapAll
  split
  · rfl
  · refine foldl_keeps (p := Lane.settings) (fun y e => ?_) _ _
    split
    · rfl
    · dsimp only
      split <;> rfl

/-- From `s` to `t` nothing of lane `l` has moved that a start takes from stored configuration, and nothing of the other lane. -/
structure State.SettingsStand (s t : State) (l : LaneId) : Prop where
  settings : (t.lane l).settings = (s.lane l).settings
  configured : (t.lane l).configured = (s.lane l).configured
  other : t.lane l.other = s.lane l.other

theorem State.SettingsStand.refl (s : State) (l : LaneId) : s.SettingsStand s l := ⟨rfl, rfl, rfl⟩

theorem State.SettingsStand.trans {s t u : State} {l : LaneId} (h : s.SettingsStand t l) (k : t.SettingsStand u l) : s.SettingsStand u l :=
  ⟨k.settings.trans h.settings, k.configured.trans h.configured, k.other.trans h.other⟩

theorem State.SettingsStand.onLane (s : State) (l : LaneId) {f : Lane → Lane} (hs : ∀ x, (f x).settings = x.settings)
    (hc : ∀ x, (f x).configured = x.configured) : s.SettingsStand (s.onLane l f) l :=
  ⟨by rw [State.lane_onLane, hs], by rw [State.lane_onLane, hc], State.lane_onLane_other ..⟩

theorem State.SettingsStand.foldl {α : Type} {l : LaneId} {f : State → α → State} (hf : ∀ (t : State) e, t.SettingsStand (f t e) l) (es : List α)
    (s : State) : s.SettingsStand (es.foldl f s) l := by
  induction es generalizing s with
  | nil => exact .refl s l
  | cons e es ih => exact (hf s e).trans (ih _)

/-- A posted write without a command changes what its writer holds of it, and the domain. -/
theorem State.postRtc_settingsStand (s : State) (l : LaneId) (r : PwReg) (ws : List Word) :
    s.SettingsStand (s.postRtc { lane := l, reg := r, words := ws } true) l := by
  have hpost : s.postRtc { lane := l, reg := r, words := ws } true = s.postWrite { lane := l, reg := r, words := ws } true := rfl
  rw [hpost]
  unfold State.postWrite
  split
  · exact .onLane s l (fun _ => rfl) (fun _ => rfl)
  · split
    · rw [if_pos rfl]
      exact .onLane s l (fun _ => rfl) (fun _ => rfl)
    · refine State.SettingsStand.trans (t := s.onDom _) ?_ (.onLane _ l (fun _ => rfl) (fun _ => rfl))
      cases l <;> exact ⟨rfl, rfl, rfl⟩

theorem State.restoreClock_settingsStand (s : State) (l : LaneId) : s.SettingsStand (s.restoreClock l) l := by
  unfold State.restoreClock
  extract_lets f lost post s1 s2
  have hpost : ∀ (t : State) r w, t.SettingsStand (post t r w) l := fun t r w => t.postRtc_settingsStand l r [w]
  have h1 : s.SettingsStand s1 l := by
    simp only [s1]
    split
    · split
      · exact hpost ..
      · exact .refl s l
    · exact .refl s l
  have h2 : s.SettingsStand s2 l := by
    simp only [s2]
    split
    · exact h1.trans (hpost ..)
    · exact h1
  split
  · exact h2.trans (.foldl (fun t a => (hpost t _ _).trans (hpost _ _ _)) _ _)
  · exact h2

/-- The lane that a start configures, before its clock is restored. -/
def State.configuredLane (s : State) (l : LaneId) : Lane :=
  let x1 := ((s.lane l).restoreSettings.restoreLoops l).restoreMeterConfig
  let x2 := (x1.blk.loop.loops.map (·.1)).foldl (fun (y : Lane) n => (s.startView l).restorePattern l y n) x1
  let x3 := (List.range 8).foldl (fun (y : Lane) r => (s.startView l).restoreHeddle l y r) (x2.restorePins l)
  if loadsKeys s.pkg.life then x3.unwrapAll s.pkg.dom.kekValue s.pkg.dom.kekGen else x3

theorem State.settings_configuredLane (s : State) (l : LaneId) :
    (s.configuredLane l).settings = (s.lane l).restoreSettings.settings := by
  unfold State.configuredLane
  extract_lets x1 x2 x3
  have h1 : x1.settings = (s.lane l).restoreSettings.settings :=
    (rfl : x1.settings = ((s.lane l).restoreSettings.restoreLoops l).settings).trans (Lane.settings_restoreLoops ..)
  have h2 : x2.settings = x1.settings := foldl_keeps (p := Lane.settings) (fun _ _ => State.settings_restorePattern ..) _ _
  have h3 : x3.settings = x2.settings :=
    (foldl_keeps (p := Lane.settings) (fun _ _ => State.settings_restoreHeddle ..) _ _).trans (Lane.settings_restorePins ..)
  have h := h3.trans (h2.trans h1)
  split
  · exact (Lane.settings_unwrapAll ..).trans h
  · exact h

theorem State.startupConfiguration_of_due {s : State} {l : LaneId} (hx : (s.lane l).inService = true)
    (hc : (s.lane l).configured = false) (hst : (s.lane l).started = false) :
    s.startupConfiguration l = (s.setLane l { s.configuredLane l with configured := true }).restoreClock l :=
  if_neg (by simp [hx, hc, hst])

theorem State.startupConfiguration_restores {s : State} {l : LaneId} (hx : (s.lane l).inService = true)
    (hc : (s.lane l).configured = false) (hst : (s.lane l).started = false) :
    ((s.startupConfiguration l).lane l).configured = true ∧
      ((s.startupConfiguration l).lane l).settings = (s.lane l).restoreSettings.settings ∧
      (s.startupConfiguration l).lane l.other = s.lane l.other := by
  rw [State.startupConfiguration_of_due hx hc hst]
  obtain ⟨hset, hconf, hother⟩ := (s.setLane l { s.configuredLane l with configured := true }).restoreClock_settingsStand l
  rw [State.lane_setLane] at hset hconf
  exact ⟨hconf, hset.trans (s.settings_configuredLane l), hother.trans (by cases l <;> rfl)⟩

/-! ### The engines and the front-end dies -/

/-- Whether the loop engine and the metering engine of a lane run. -/
def Lane.engines (x : Lane) : Bool × Bool := (x.blk.loop.en, x.blk.nrg.en)

theorem Lane.engines_beyondEvents (x : Lane) : x.beyondEvents.engines = x.engines := rfl

theorem Lane.engines_setBit (x : Lane) (l : LaneId) (b : Nat) (lasting : Bool) : (x.setBit l b lasting).engines = x.engines := by
  rw [← Lane.engines_beyondEvents, Lane.beyondEvents_setBit, Lane.engines_beyondEvents]

theorem Lane.engines_grantCores (x : Lane) (p : Nat) (mask : BitVec 16) : (x.grantCores p mask).engines = x.engines := by
  unfold Lane.grantCores
  split
  · rfl
  · exact foldl_keeps (p := Lane.engines) (by intros; rfl) _ _

theorem Lane.engines_dropForces (x : Lane) (p : Nat) (old new : List Symbol) : (x.dropForces p old new).1.engines = x.engines :=
  foldl_keeps (p := Lane.engines) (by intros; rfl) (x.droppedForces p old new) _

theorem Lane.engines_takeLoaded (x : Lane) (p : Nat) (take : Bool) : (x.takeLoaded p take).engines = x.engines := by
  unfold Lane.takeLoaded
  dsimp only
  split
  · split
    · exact Lane.engines_dropForces ..
    · rfl
  · rfl

theorem Lane.engines_loadCores (x : Lane) (p : Nat) (m : Mem) (f : Mem → Mem) : (x.loadCores p m f).engines = x.engines :=
  foldl_keeps (p := Lane.engines) (by intros; rfl) _ _

theorem Lane.engines_mismatchDetails (x : Lane) (p : Nat) (ms : List (Nat × Word × Word)) :
    (x.mismatchDetails p ms).engines = x.engines :=
  foldl_keeps (p := Lane.engines) (by intros; rfl) _ _

theorem Lane.engines_loaded (x : Lane) (p : Nat) (m : Mem) (g : Mem → Mem) (f : Part → Part) :
    ((x.loadCores p m g).onPart p f).engines = x.engines :=
  Lane.engines_loadCores ..

theorem Lane.engines_startPart (x : Lane) (l : LaneId) (p : Nat) (r : RestartReq) (fr : Option Restored) :
    (x.startPart l p r fr).engines = x.engines := by
  have htaken : ((x.grantCores p r.mask).takeLoaded p (r.cause = 0)).engines = x.engines :=
    (Lane.engines_takeLoaded ..).trans (Lane.engines_grantCores ..)
  unfold Lane.startPart
  dsimp only
  generalize (x.grantCores p r.mask).takeLoaded p (r.cause = 0) = y at htaken
  split
  · exact htaken
  · split
    · split
      · rw [Lane.engines_loaded, Lane.engines_mismatchDetails]
        split
        · exact (Lane.engines_setBit ..).trans htaken
        · exact htaken
      · exact (Lane.engines_loaded ..).trans htaken
    · exact (Lane.engines_loaded ..).trans htaken

theorem Lane.engines_startupPart (x : Lane) (l : LaneId) (lost : Bool) (p : Nat) : (x.startupPart l lost p).engines = x.engines := by
  unfold Lane.startupPart
  dsimp only
  split
  · rfl
  · split
    · rfl
    · split
      · rfl
      · exact Lane.engines_startPart ..

theorem Lane.engines_enableEngines (x : Lane) (o : Order) (runs : Bool) (now : Nat) :
    (x.enableEngines o runs now).engines = (runs, runs && o ≠ .m00) := rfl

/-- The lane that a start brings to its engines and partitions. -/
theorem State.startupFrontEnds_of_due {s : State} {l : LaneId} (hx : (s.lane l).inService = true) (hc : (s.lane l).configured = true)
    (hst : (s.lane l).started = false) (hruns : controlRuns s.pkg.life = true) :
    ∃ x : Lane, x.started = true ∧ x.engines = (true, decide (s.pkg.order ≠ .m00)) ∧
      s.startupFrontEnds l = (s.setLane l x).startFrontEnds l := by
  unfold State.startupFrontEnds
  extract_lets x0 now v runs x1 x2 x3 x4 x5
  have hrun : runs = true := hruns
  have h5 : x5.engines = (true, decide (s.pkg.order ≠ .m00)) := by
    have h4 : x4.engines = (true, decide (s.pkg.order ≠ .m00)) := by
      simp only [x4, Lane.engines_enableEngines, hrun, Bool.true_and]
    simp only [x5, hrun, if_true]
    exact (foldl_keeps (p := Lane.engines) (fun _ _ => Lane.engines_startupPart ..) _ _).trans h4
  clear_value x5
  refine ⟨_, ?_, ?_, if_neg ?_⟩
  · rfl
  · exact h5
  · simp [x0, hx, hc, hst]

/-- Front-end dies started one after the other. -/
def State.startDie (image : Tab HedImage) (t : State) (r : Nat) : State :=
  (t.onFe r (fun f => if f.running then f else { f with running := true, image := image.lookup r }.startComparators)).literalsMoved r

theorem FrontEnd.running_startComparators (f : FrontEnd) : f.startComparators.running = f.running := by
  unfold FrontEnd.startComparators
  split <;> rfl

theorem State.startDie_running (image : Tab HedImage) (t : State) (r q : Nat) :
    ((t.startDie image r).fe q).running = if q = r then true else (t.fe q).running := by
  rw [State.startDie, State.fe_literalsMoved (p := FrontEnd.running) (fun _ => rfl)]
  by_cases h : q = r
  · subst h
    rw [State.fe_onFe, if_pos rfl]
    split
    · next hr => exact hr
    · exact FrontEnd.running_startComparators _
  · rw [State.fe_onFe_other t _ h, if_neg h]

theorem State.startDie_lane (image : Tab HedImage) (t : State) (r : Nat) (k : LaneId) :
    { (t.startDie image r).lane k with vectorIn := [] } = { t.lane k with vectorIn := [] } := by
  rw [State.startDie, (State.literalsMoved_onlyVectors _ r).keeps (p := fun x : Lane => ({ x with vectorIn := [] } : Lane)) (fun _ _ => rfl),
    State.lane_onFe]

theorem State.running_foldl_startDie (image : Tab HedImage) (rs : List Nat) (t : State) (q : Nat) (h : q ∈ rs ∨ (t.fe q).running = true) :
    ((rs.foldl (State.startDie image) t).fe q).running = true := by
  induction rs generalizing t with
  | nil => simpa using h
  | cons r rs ih =>
    refine ih _ ?_
    rw [State.startDie_running]
    by_cases hq : q = r
    · exact .inr (if_pos hq)
    · obtain h | h := h
      · exact .inl ((List.mem_cons.1 h).resolve_left hq)
      · exact .inr (by rw [if_neg hq]; exact h)

theorem State.startFrontEnds_eq {s : State} {l : LaneId} (h : s.pkg.life = .issued ∨ s.pkg.life = .sealed) :
    s.startFrontEnds l = (List.range 8).foldl (State.startDie (s.lane l).blk.hed.image) s := by
  refine if_neg ?_
  obtain h | h := h <;> simp [h]

theorem startupFrontEnds_completes {s : State} {l : LaneId} (hx : (s.lane l).inService = true) (hc : (s.lane l).configured = true)
    (hst : (s.lane l).started = false) (hlife : s.pkg.life = .issued ∨ s.pkg.life = .sealed) :
    let t := s.startupFrontEnds l
    (t.lane l).started = true ∧ (t.lane l).engines = (true, decide (s.pkg.order ≠ .m00)) ∧ (∀ r, r < 8 → (t.fe r).running = true) ∧
      ∃ v, t.lane l.other = { s.lane l.other with vectorIn := v } := by
  intro t
  obtain ⟨x, hstarted, hengines, heq⟩ := State.startupFrontEnds_of_due hx hc hst (by obtain h | h := hlife <;> rw [h] <;> rfl)
  have hlife' : (s.setLane l x).pkg.life = .issued ∨ (s.setLane l x).pkg.life = .sealed := by cases l <;> exact hlife
  have ht : t = _ := heq.trans (State.startFrontEnds_eq hlife')
  have hlanes : ∀ k, { t.lane k with vectorIn := [] } = { (s.setLane l x).lane k with vectorIn := [] } := fun k => by
    rw [ht]
    exact foldl_keeps (p := fun u : State => { u.lane k with vectorIn := [] }) (fun u r => State.startDie_lane _ u r k) _ _
  have hown := hlanes l
  rw [State.lane_setLane] at hown
  refine ⟨?_, ?_, fun r hr => ?_, (t.lane l.other).vectorIn, ?_⟩
  · exact (congrArg Lane.started hown).trans hstarted
  · exact (congrArg Lane.engines hown).trans hengines
  · rw [ht]
    exact State.running_foldl_startDie _ _ _ r (.inl (List.mem_range.2 hr))
  · have hother := hlanes l.other
    have hsame : (s.setLane l x).lane l.other = s.lane l.other := by cases l <;> rfl
    rw [hsame] at hother
    exact congrArg (fun y : Lane => { y with vectorIn := (t.lane l.other).vectorIn }) hother

/-! ### The rows -/

theorem startStepsComplete : Claims.StartStepsComplete := by
  intro s l beat now x
  have hlane : ∀ k, (s.at_ beat).lane k = s.lane k := State.lane_at s beat
  refine ⟨fun ver stages hr hb hret hvoid => ⟨?_, ?_⟩, fun ok ver stages hr hb hlife => ?_, fun hb ht hrole hstep => ?_, ?_,
    fun hw h hp hy => ?_, fun h => ?_, fun hx hc hst => ?_, fun hx hc hst hlife => ?_⟩
  · exact congrArg Host.Outcome.next ((State.bootComplete_of_owned hr hb hret hvoid true ver stages).trans (if_pos rfl))
  · exact congrArg Host.Outcome.next ((State.bootComplete_of_owned hr hb hret hvoid false ver stages).trans (if_neg (by decide)))
  · obtain ⟨hmram, hflash, hrole⟩ := bootComplete_erases ok ver stages hr hb hlife
    refine ⟨_, rfl, hmram, ?_, ?_, ?_, ?_, ?_, hrole⟩
    all_goals rw [hflash]; rfl
  · simp only [x, ← hlane] at hb ht hrole hstep
    refine ⟨?_, fun hy => ?_, fun hy => ?_⟩
    · refine ⟨_, congrArg Host.Outcome.next (State.startupSelfTest_of_failed hb ht hrole hstep), ?_, ?_⟩
      · rw [State.lane_onLane]
        rfl
      · rw [State.lane_onLane_other, hlane]
    · obtain ⟨⟨n, hown⟩, hinbox⟩ := ((s.at_ beat).setLane l (((s.at_ beat).lane l).passedTest (s.at_ beat).pkg.beat)).send_lanes l
        (.announce ((s.at_ beat).lane l).bootMeas ((s.at_ beat).lane l).version ((s.at_ beat).lane l).preferRecord.1
          ((s.at_ beat).lane l).preferRecord.2.1 ((s.at_ beat).lane l).preferRecord.2.2)
      refine ⟨_, congrArg Host.Outcome.next (State.startupSelfTest_of_alone hb ht hrole hstep (by rw [hlane]; exact hy)), ?_, ?_, ?_⟩
      · rw [hown, State.lane_setLane]
        rfl
      · rw [hown, State.lane_setLane]
        rfl
      · rw [hinbox, hlane]
        cases l <;> rfl
    · refine ⟨_, congrArg Host.Outcome.next (State.startupSelfTest_of_partner hb ht hrole hstep (by rw [hlane]; exact hy)), ?_, ?_⟩
      · rw [State.lane_setLane]
        rfl
      · rw [State.lane_setLane]
        rfl
  · intro hany hp hmeas hver r first
    have hpair : (s.at_ beat).laneAnnouncement l = (s.at_ beat).pair :=
      if_pos (by rw [hlane]; exact Bool.and_eq_true_iff.2 ⟨hany, hp⟩)
    exact ⟨_, congrArg Host.Outcome.next hpair, State.pair_lanes (s := s.at_ beat) hmeas hver rfl rfl⟩
  · exact ⟨_, rfl, State.pairingTimeout_lane (by rw [hlane]; exact hw) (by rw [hlane]; exact h) hp (by rw [hlane]; exact hy)⟩
  · refine congrArg Host.Outcome.next (if_neg ?_)
    have h' : ¬ ((s.at_ beat).lane l).announceBeat + pairBeats ≤ (s.at_ beat).pkg.beat := by
      rw [hlane]
      exact Nat.not_le.2 h
    simp only [h', decide_false, Bool.and_false, Bool.false_and, Bool.false_eq_true, not_false_eq_true]
  · obtain ⟨hconf, hset, hother⟩ := State.startupConfiguration_restores hx hc hst
    simp only [Lane.settings, Prod.mk.injEq] at hset
    obtain ⟨hid, hpnt, hvwarn, hestate, hfloor, hvlan, hact, hblobs⟩ := hset
    refine ⟨_, rfl, hconf, hid, by rw [hpnt]; rfl, by rw [hpnt]; rfl, hvwarn, hestate, hfloor, hblobs, fun hf => ?_, fun f hf => ?_, hother⟩
    · rw [hvlan, hact]
      simp only [Lane.restoreSettings, show (s.lane l).flash.filters = none from hf]
      exact ⟨rfl, rfl⟩
    · rw [hvlan, hact]
      simp only [Lane.restoreSettings, show (s.lane l).flash.filters = some f from hf]
      exact ⟨rfl, rfl⟩
  · obtain ⟨hstarted, hengines, hdies, v, hv⟩ := startupFrontEnds_completes (s := s.at_ beat) (l := l) (by rw [hlane]; exact hx)
      (by rw [hlane]; exact hc) (by rw [hlane]; exact hst) hlife
    simp only [Lane.engines, Prod.mk.injEq] at hengines
    rw [hlane] at hv
    refine ⟨_, rfl, hstarted, hengines.1, ?_, hdies, v, hv⟩
    rw [hengines.2]
    exact decide_eq_true_eq

/-- Settles O60. That an image waits for the partner's write is the model's choice (log entry 117). -/
theorem startRowsComplete : Obligations.StartRowsComplete :=
  ⟨startStepsComplete, flashWritesComplete⟩

end Sys2Proof.Machine
end

section
/-! SUPPORT. How a judgement changes a loop group (R281, R282, Table 07-4). -/

namespace Sys2Proof.Machine

theorem Lane.group_of_beyondEvents {x y : Lane} (h : x.beyondEvents = y.beyondEvents) (g : Nat) : x.group g = y.group g := by
  have hkeeps : ∀ z : Lane, z.beyondEvents.group g = z.group g := fun _ => rfl
  rw [← hkeeps, h, hkeeps]

@[simp] theorem Lane.group_groupEvent (x : Lane) (l : LaneId) (g code : Nat) (k : Nat) (h : Nat) :
    (x.groupEvent l g code k).group h = x.group h := by
  unfold Lane.groupEvent
  exact Lane.group_of_beyondEvents (Lane.beyondEvents_enter ..) h

@[simp] theorem Lane.group_load (x : Lane) (hot warm : Bool) (now g : Nat) : (x.load hot warm now).group g = x.group g := by
  unfold Lane.load
  rfl

/-- A group whose sample `k` is judged. -/
def GroupSt.judgedAs (o : GroupSt) (k : Nat) (onTime : Bool) (slack : Int) : GroupSt :=
  { o with
    onTime := if onTime then min 16 (o.onTime + 1) else 0
    slacks := (100 * o.period * k, slack) :: o.slacks.filter (fun e => decide (100 * o.period * k < e.1 + 100000000))
    judged := if o.sample = k then some (onTime && (!o.delayed || (o.onTime = 16 && !o.pinNow))) else o.judged }

theorem Lane.group_judge (x : Lane) (l : LaneId) (g now k : Nat) (onTime : Bool) (slack : Int) :
    (x.judge l g now k onTime slack).group g =
      if (x.group g).delayed then
        { (x.group g).judgedAs k onTime slack with
          delayed := (x.group g).pinNow || !(onTime && decide ((x.group g).onTime = 16)) }
      else if onTime then (x.group g).judgedAs k onTime slack
      else { (x.group g).judgedAs k onTime slack with delayed := true, fallbacks := (x.group g).fallbacks + 1 } := by
  unfold Lane.judge
  dsimp only
  generalize hy : (x.load _ _ now).onGroup g _ = y
  have hjudged : y.group g = (x.group g).judgedAs k onTime slack := by
    rw [← hy, Lane.group_onGroup, Lane.group_load]
    rfl
  cases hd : (x.group g).delayed
  · cases onTime
    · simp [Lane.enterDelay, hjudged]
      rfl
    · simp [hjudged]
  · cases onTime <;> cases hp : (x.group g).pinNow <;> by_cases h16 : (x.group g).onTime = 16 <;>
      simp [hjudged, h16, GroupSt.judgedAs, hd]

theorem Lane.group_judge_other (x : Lane) (l : LaneId) {g h : Nat} (now k : Nat) (onTime : Bool) (slack : Int) (hne : h ≠ g) :
    (x.judge l g now k onTime slack).group h = x.group h := by
  have hbase : ∀ (a b : Bool) f, (((x.load a b now).onGroup g f).group h) = x.group h := fun a b f => by
    rw [Lane.group_onGroup_other _ _ hne, Lane.group_load]
  unfold Lane.judge
  dsimp only
  split
  · split
    · exact hbase ..
    · rw [Lane.enterDelay, Lane.group_groupEvent, Lane.group_onGroup_other _ _ hne]
      exact hbase ..
  · split
    · rw [Lane.group_groupEvent, Lane.group_onGroup_other _ _ hne]
      exact hbase ..
    · exact hbase ..

/-- Settles O47. -/
theorem delayModeFollowsJudgements : Obligations.DelayModeFollowsJudgements := by
  intro x l g now k onTime slack o y
  have hy : y = _ := x.group_judge l g now k onTime slack
  refine ⟨fun hd ht => ?_, fun hd ht => ?_, fun hd => ?_, fun ht => ?_, ?_, ?_, fun h hne => x.group_judge_other l now k onTime slack hne⟩
  · rw [hy, show (x.group g).delayed = false from hd, ht]
    exact ⟨hd, rfl, fun hk => by simp [GroupSt.judgedAs, show (x.group g).sample = k from hk, show (x.group g).delayed = false from hd]⟩
  · rw [hy, show (x.group g).delayed = false from hd, ht]
    exact ⟨rfl, rfl, rfl, fun hk => by simp [GroupSt.judgedAs, show (x.group g).sample = k from hk]⟩
  · rw [hy, show (x.group g).delayed = true from hd]
    exact ⟨rfl, rfl⟩
  · rw [hy, ht]
    split <;> rfl
  · rw [hy]
    repeat' split
    all_goals rfl
  · rw [hy]
    repeat' split
    all_goals rfl

end Sys2Proof.Machine
end

section
/-! SUPPORT. Decimator blocks, windows and pulses (R292, R293, R300, R301, R312). -/

namespace Sys2Proof.Machine

theorem State.setLane_eq_onLane (s : State) (l : LaneId) (x : Lane) : s.setLane l x = s.onLane l (fun _ => x) := by
  cases l <;> rfl

/-! ### Blocks -/

theorem State.decimatorBlock_of_unmetered {s : State} (l : LaneId) (v i : List Nat) (h : s.pkg.order = .m00) :
    s.decimatorBlock l v i = s :=
  if_pos (by simp [h])

theorem State.decimatorBlock_of_metered {s : State} {l : LaneId} (v i : List Nat) (ho : s.pkg.order ≠ .m00)
    (hx : (s.lane l).inService = true) (hclock : (s.lane l).clockLost 4 = false) :
    s.decimatorBlock l v i =
      (let d := (s.lane l).decimate s.pkg.order v i
      let n := s.pkg.beat / 100000
      let s0 := s.onLane l (fun _ => d.1)
      if (s.lane l).blk.nrg.en = true ∧ (s.lane l).blk.nrg.blockNo < n then
        if (s.lane l.other).inService then
          (s0.onLane l (fun y => y.onNrg (fun b => { b with blockNo := n, blocks := b.blocks ++ [(n, d.2.1, d.2.2)] }))).send l
            (.block n d.2.1 d.2.2 (blockCrc s.pkg.order d.2.1 d.2.2))
        else s0.onLane l (fun y => (y.onNrg (fun b => { b with blockNo := n })).takeBlock l s.pkg.order n d.2.1 d.2.2)
      else s0) := by
  have hgo : ¬ (decide (s.pkg.order = .m00) || !(s.lane l).collects || (s.lane l).clockLost 4) = true := by
    simp [ho, Lane.collects_of_inService hx, hclock]
  unfold State.decimatorBlock
  refine (if_neg hgo).trans ?_
  simp only [hx, Bool.true_and, Bool.and_eq_true, decide_eq_true_eq, State.setLane_eq_onLane, State.onLane_onLane] <;> rfl

/-- A block of the lane's own and its partner's of the same number, taken from the lane's queue and inbox. -/
def State.blocksTaken (s : State) (l : LaneId) (m : Msg) (rest : List (Nat × List (List Int) × List (List Int))) : State :=
  s.onLane l (fun y => { y with inbox := y.inbox.erase m }.onNrg (fun b => { b with blocks := rest }))

section
variable {s : State} {l : LaneId} {own : Nat × List (List Int) × List (List Int)} {rest : List (Nat × List (List Int) × List (List Int))}
  {v i : List (List Int)} {crc : Word} (hx : (s.lane l).inService = true) (hown : (s.lane l).blk.nrg.blocks = own :: rest)
  (hmsg : (s.lane l).inbox.find? (fun q => match q with | .block n .. => decide (n = own.1) | _ => false) = some (.block own.1 v i crc))
include hx hown hmsg

theorem State.blockCheck_of_equal (h : crc = blockCrc s.pkg.order own.2.1 own.2.2) :
    s.blockCheck l = (s.blocksTaken l (.block own.1 v i crc) rest).onLane l (fun y => y.takeBlock l s.pkg.order own.1 own.2.1 own.2.2) := by
  unfold State.blockCheck
  simp only [hown, hx, Bool.not_true, Bool.false_eq_true, if_false]
  generalize hf : List.find? _ (s.lane l).inbox = found
  obtain rfl : found = some (.block own.1 v i crc) := hf.symm.trans hmsg
  exact if_pos h

theorem State.blockCheck_of_active (h : crc ≠ blockCrc s.pkg.order own.2.1 own.2.2) (hl : s.active = some l) :
    s.blockCheck l = (s.blocksTaken l (.block own.1 v i crc) rest).onLane l (fun y =>
      (y.takeBlock l s.pkg.order own.1 own.2.1 own.2.2).onNrg (fun b => { b with mismatch := b.mismatch + 1 })) := by
  unfold State.blockCheck
  simp only [hown, hx, Bool.not_true, Bool.false_eq_true, if_false]
  generalize hf : List.find? _ (s.lane l).inbox = found
  obtain rfl : found = some (.block own.1 v i crc) := hf.symm.trans hmsg
  simp only [h, if_false, hl, if_true]
  rfl

theorem State.blockCheck_of_standby (h : crc ≠ blockCrc s.pkg.order own.2.1 own.2.2) (hl : s.active ≠ some l) :
    s.blockCheck l =
      (let ts := s.pkg.beat :: (s.lane l).blk.nrg.mismatches.filter (fun t => decide (s.pkg.beat < t + 800000))
      let s2 := ((s.blocksTaken l (.block own.1 v i crc) rest).onLane l (fun y =>
        (y.takeBlock l s.pkg.order own.1 v i).onNrg (fun b => { b with mismatch := b.mismatch + 1 }))).onLane l
          (fun y => y.onNrg (fun k => { k with mismatches := ts }))
      if 3 ≤ ts.length then s2.raise l 168 true else s2) := by
  unfold State.blockCheck
  simp only [hown, hx, Bool.not_true, Bool.false_eq_true, if_false]
  generalize hf : List.find? _ (s.lane l).inbox = found
  obtain rfl : found = some (.block own.1 v i crc) := hf.symm.trans hmsg
  simp only [h, if_false, hl]
  rfl

end

/-! ### Windows -/

theorem State.windowEnd_of_due {s : State} {l : LaneId} {now : Nat} (hl : s.active = some l) (ho : s.pkg.order ≠ .m00)
    (hx : (s.lane l).inService = true) (hmod : now % 10000000 = 0) (hw : (s.lane l).blk.nrg.window < now / 10000000) :
    s.windowEnd now = (if (s.lane l.other).inService then s.send l (.window (now / 10000000) (s.lane l).blk.pick.released) else s
      ).completeWindow l (now / 10000000) (s.lane l).blk.pick.released := by
  have hgo : (decide (s.pkg.order ≠ .m00) && (s.lane l).inService && decide (now % 10000000 = 0) &&
      decide ((s.lane l).blk.nrg.window < now / 10000000)) = true := by simp [ho, hx, hmod, hw]
  simp only [State.windowEnd, hl]
  exact if_pos hgo

theorem State.windowMessage_of_find {s : State} {l : LaneId} {w : Nat} {pick : Word} (hx : (s.lane l).inService = true)
    (hmsg : (s.lane l).inbox.find? (fun q => match q with | .window .. => true | _ => false) = some (.window w pick)) :
    s.windowMessage l =
      if pick = (s.lane l).blk.pick.released ∨ serialBefore pick (s.lane l).blk.pick.released = true then
        (s.onLane l (fun y => { y with inbox := y.inbox.erase (.window w pick) })).completeWindow l w pick
      else s := by
  unfold State.windowMessage
  dsimp only
  generalize hf : List.find? _ (s.lane l).inbox = found
  obtain rfl : found = some (.window w pick) := hf.symm.trans hmsg
  simp only [hx, Bool.not_true, Bool.false_eq_true, if_false, Bool.or_eq_true, decide_eq_true_eq]

/-! ### Pulses -/

@[simp] theorem Lane.pulse_onPulse (x : Lane) (n : Nat) (f : PulseOut → PulseOut) : (x.onPulse n f).pulse n = f (x.pulse n) :=
  tget_tmod_same _ _ _ _

theorem Lane.pulseStart_of_due {x : Lane} {n now : Nat} (hx : x.inService = true) (hon : (x.pulse n).on = false)
    (hen : pulseEn (x.pulse n).cfg = true) (hb : (x.pulse n).backlog ≠ 0) (hoff : ∀ e, (x.pulse n).offBeat = some e → e + 3050000 ≤ now)
    (hwarn : x.blk.pwr.warn = false) : (x.pulseStart n now).pulse n = { x.pulse n with on := true, onBeat := now } := by
  have hstart : x.pulseStart n now = x.onPulse n (fun q => { q with on := true, onBeat := now }) := by
    unfold Lane.pulseStart
    cases ho : (x.pulse n).offBeat with
    | none => simp [hx, hen, hb, hon, hwarn, ho]
    | some e => simp [hx, hen, hb, hon, hwarn, ho, hoff e ho]
  rw [hstart, Lane.pulse_onPulse]

theorem Lane.pulseStart_of_idle {x : Lane} {n now : Nat} (h : (x.pulse n).backlog = 0 ∨ x.blk.pwr.warn = true) :
    x.pulseStart n now = x := by
  refine if_neg ?_
  obtain h | h := h <;> simp [h]

/-- A pulse that has lasted its time: it ends, and the backlog in MRAM is one less. -/
theorem Lane.pulseEnd_of_due {x : Lane} {n now : Nat} (hon : (x.pulse n).on = true) (h : (x.pulse n).onBeat + 3200000 ≤ now) :
    (x.pulseEnd n now).pulse n =
        { x.pulse n with on := false, offBeat := some now, backlog := (x.pulse n).backlog - 1, saturated := false } ∧
      (x.pulseEnd n now).mram.backlogOf n = some ((x.pulse n).backlog - 1) := by
  have hend : x.pulseEnd n now = ((x.onPulse n (fun q =>
      { q with on := false, offBeat := some now, backlog := q.backlog - 1, saturated := false })).writeBacklog n).endCause (2028 + n) :=
    if_pos (by simp [hon, h])
  rw [hend]
  refine ⟨?_, ?_⟩
  · exact (Lane.pulse_onPulse ..)
  · have hread : ∀ (y : Lane), (y.writeBacklog n).mram.backlogOf n = some (y.pulse n).backlog := fun y => by
      simp only [Mram.backlogOf, Lane.writeBacklog, Lane.onMram, twinPut, twinAt, lookup_oset_same, Option.getD_some]
      exact Twin.read_put _ _ _
    refine (hread _).trans ?_
    rw [Lane.pulse_onPulse]

theorem Lane.pulseEnd_of_early {x : Lane} {n now : Nat} (h : now < (x.pulse n).onBeat + 3200000) : x.pulseEnd n now = x :=
  if_neg (by simp [Nat.not_le.2 h])

/-! ### The rows -/

/-- Settles O48. The number of a block, and that a disabled meter and a number that has passed only pass bits on, are the model's choice
(log entry 130). -/
theorem meterRowsComplete : Obligations.MeterRowsComplete := by
  intro s l beat hx now b o
  have hlane : ∀ k, (s.at_ beat).lane k = s.lane k := State.lane_at s beat
  have hx' : ((s.at_ beat).lane l).inService = true := by rw [hlane]; exact hx
  refine ⟨?_, fun ho v i => congrArg Host.Outcome.next (State.decimatorBlock_of_unmetered l v i ho), ?_, fun hl ho hmod hw => ?_, ?_, ?_⟩
  · intro v i ho hclock d n s0
    have heq := State.decimatorBlock_of_metered v i ho hx hclock
    refine ⟨fun hen hn hy => ?_, fun hen hn hy => ?_, fun h => ?_⟩
    · exact congrArg Host.Outcome.next (heq.trans ((if_pos ⟨hen, hn⟩).trans (if_pos hy)))
    · exact congrArg Host.Outcome.next (heq.trans ((if_pos ⟨hen, hn⟩).trans (if_neg (by rw [hy]; decide))))
    · refine congrArg Host.Outcome.next (heq.trans (if_neg ?_))
      rintro ⟨hen, hn⟩
      obtain h | h := h
      · exact absurd hen (by rw [show (s.lane l).blk.nrg.en = false from h]; decide)
      · exact absurd hn (Nat.not_lt.2 h)
  · intro own rest v i crc hown hmsg s1
    rw [← hlane] at hmsg
    have hown' : ((s.at_ beat).lane l).blk.nrg.blocks = own :: rest := by rw [hlane]; exact hown
    refine ⟨fun h => ?_, fun h hl => ?_, ?_⟩
    · exact congrArg Host.Outcome.next (State.blockCheck_of_equal hx' hown' hmsg h)
    · exact congrArg Host.Outcome.next (State.blockCheck_of_active hx' hown' hmsg h hl)
    · intro h hl ts s2
      refine congrArg Host.Outcome.next ((State.blockCheck_of_standby hx' hown' hmsg h hl).trans ?_)
      rw [hlane]
      rfl
  · refine congrArg Host.Outcome.next ((State.windowEnd_of_due (s := s.at_ beat) hl ho hx' hmod (by rw [hlane]; exact hw)).trans ?_)
    rw [hlane, hlane]
  · intro w pick hmsg
    have heq := State.windowMessage_of_find hx hmsg
    exact ⟨fun h => congrArg Host.Outcome.next (heq.trans (if_pos h)),
      fun h1 h2 => congrArg Host.Outcome.next (heq.trans (if_neg (not_or.2 ⟨h1, by rw [h2]; decide⟩)))⟩
  · intro n hn
    have hstart : exec (.pulseStart n beat) s = _ := congrArg Host.Outcome.next (if_pos hn)
    have hend : exec (.pulseEnd n beat) s = _ := congrArg Host.Outcome.next (if_pos hn)
    refine ⟨_, hstart, _, hend, ?_⟩
    intro p
    have hlanes : ∀ (f : Lane → Lane), ({ s.at_ beat with a := f (s.at_ beat).a, b := f (s.at_ beat).b } : State).lane l = f (s.lane l) :=
      fun f => by cases l <;> rfl
    have hts := hlanes (fun x => x.pulseStart n now)
    have hte := hlanes (fun x => x.pulseEnd n now)
    refine ⟨fun hon hen hb hoff hwarn => ?_, fun h => ?_, fun hon h => ?_, fun hon h => ?_⟩
    · exact (congrArg (fun x : Lane => x.pulse n) hts).trans (Lane.pulseStart_of_due hx hon hen hb hoff hwarn)
    · exact (congrArg (fun x : Lane => x.pulse n) hts).trans (congrArg (fun x : Lane => x.pulse n) (Lane.pulseStart_of_idle h))
    · obtain ⟨hp, hm⟩ := Lane.pulseEnd_of_due hon h
      exact ⟨(congrArg (fun x : Lane => x.pulse n) hte).trans hp, (congrArg (fun x : Lane => x.mram.backlogOf n) hte).trans hm⟩
    · exact (congrArg (fun x : Lane => x.pulse n) hte).trans (congrArg (fun x : Lane => x.pulse n) (Lane.pulseEnd_of_early h))

end Sys2Proof.Machine
end

section
/-! SUPPORT. The seven steps of a rejoin (Table 03-6, R113, R114). -/

namespace Sys2Proof.Machine

/-! ### What a rejoining lane takes over -/

/-- The cores named in a list are taken over from the other lane. -/
theorem Lane.core_foldl_takeCores {y : Lane} (x : Lane) {c : Nat} {cs : List Nat} (hc : c ∈ cs) :
    (cs.foldl (fun z d => z.onCore d (fun _ => y.core d)) x).core c = y.core c := by
  induction cs using List.reverseRecOn with
  | nil => simp at hc
  | append_singleton ds d ih =>
    rw [List.foldl_concat]
    by_cases hd : c = d
    · rw [← hd, Lane.core_onCore]
    · rw [Lane.core_onCore_other _ _ hd]
      exact ih (by simpa [hd] using hc)

/-! The end of a step, and the lane block, leave parts, cores and groups as they were. -/

theorem Lane.part_rejoinNext (x y : Lane) (p : Nat) : (x.rejoinNext y).part p = x.part p := rfl
theorem Lane.core_rejoinNext (x y : Lane) (c : Nat) : (x.rejoinNext y).core c = x.core c := rfl
theorem Lane.group_rejoinNext (x y : Lane) (g : Nat) : (x.rejoinNext y).group g = x.group g := rfl
theorem Lane.part_onLaneBlk (x : Lane) (f : LaneBlk → LaneBlk) (p : Nat) : (x.onLaneBlk f).part p = x.part p := rfl
theorem Lane.core_onLaneBlk (x : Lane) (f : LaneBlk → LaneBlk) (c : Nat) : (x.onLaneBlk f).core c = x.core c := rfl
theorem Lane.group_onLaneBlk (x : Lane) (f : LaneBlk → LaneBlk) (g : Nat) : (x.onLaneBlk f).group g = x.group g := rfl
theorem Lane.group_onNrg (x : Lane) (f : NrgBlk → NrgBlk) (g : Nat) : (x.onNrg f).group g = x.group g := rfl

/-- A partition's remaining state: the partition and the cores granted to it. -/
def Lane.takePartition (x y : Lane) (p : Nat) : Lane :=
  (y.part p).coreList.foldl (fun z n => z.onCore n (fun _ => y.core n)) (x.onPart p (fun _ => y.part p))

theorem Lane.takePartition_part (x y : Lane) (p : Nat) : (x.takePartition y p).part p = y.part p :=
  (foldl_keeps (p := fun z : Lane => z.part p) (fun z n => z.part_onCore n p _) _ _).trans (Lane.part_onPart ..)

/-- A group's loop state: the group and its loops. -/
def Lane.takeGroup (x y : Lane) (g : Nat) : Lane :=
  (y.blk.loop.loops.filter (fun e => e.2.group = g)).foldl (fun z e => z.onLoop e.1 (fun _ => e.2)) (x.onGroup g (fun _ => y.group g))

theorem Lane.takeGroup_group (x y : Lane) (g : Nat) : (x.takeGroup y g).group g = y.group g :=
  (foldl_keeps (p := fun z : Lane => z.group g) (f := fun z (e : Nat × LoopSt) => z.onLoop e.1 (fun _ => e.2)) (fun _ _ => rfl) _ _).trans
    (Lane.group_onGroup ..)

/-! ### The steps -/

section
variable {s : State} {l : LaneId}

theorem State.rejoinReset_of_due (hy : (s.lane l.other).inService = true) (hr : (s.lane l).blk.lane.role = .selftest)
    (hs : (s.lane l).blk.lane.rejoinStep = 1) : s.rejoinReset l = s.onLane l Lane.rejoinReset :=
  if_pos (by simp [hr, hs, hy])

theorem State.rejoinSelfTest_of_passed (hr : (s.lane l).blk.lane.role = .selftest) (hs : (s.lane l).blk.lane.rejoinStep = 2)
    (hn : (s.lane l).noLink = false) : s.rejoinSelfTest l true = s.onLane l (fun y =>
      ({ y with lostClocks := [] } : Lane).onLaneBlk (fun b => { b with role := .transfer, rejoinStep := 3 })) := by
  simp only [State.rejoinSelfTest, hr, hs, hn, decide_true, Bool.and_self, if_true, Bool.not_true, Bool.or_self, Bool.false_eq_true,
    if_false]

theorem State.rejoinSelfTest_of_failed (hr : (s.lane l).blk.lane.role = .selftest) (hs : (s.lane l).blk.lane.rejoinStep = 2) :
    s.rejoinSelfTest l false = s.rejoinFail l := by
  simp only [State.rejoinSelfTest, hr, hs, decide_true, Bool.and_self, if_true, Bool.not_false, Bool.true_or]

theorem State.rejoinKeys_of_due (hr : (s.lane l).blk.lane.role = .transfer) (hs : (s.lane l).blk.lane.rejoinStep = 3)
    (hn : (s.lane l).noLink = false) : s.rejoinKeys l = s.onLane l (fun k =>
      ((k.onFlash (fun f => { f with blobs := (s.lane l.other).flash.blobs })).unwrapAll s.pkg.dom.kekValue s.pkg.dom.kekGen).onLaneBlk
        (fun b => { b with rejoinStep := 4 })) := by
  simp only [State.rejoinKeys, hr, hs, hn, decide_true, Bool.and_self, if_true, Bool.false_eq_true, if_false]

theorem State.rejoinPreCopy_of_due (hy : (s.lane l.other).inService = true) (hr : (s.lane l).blk.lane.role = .transfer)
    (hs : (s.lane l).blk.lane.rejoinStep = 4) (hn : (s.lane l).noLink = false) : s.rejoinPreCopy l = s.onLane l (fun k =>
      ((k.takeReplica (s.lane l.other)).onLaneBlk (fun b => { b with rejoinStep := 5, percent := 100 })).rejoinNext (s.lane l.other)) := by
  simp only [State.rejoinPreCopy, hy, hr, hs, hn, decide_true, Bool.and_self, if_true, Bool.false_eq_true, if_false]

theorem State.rejoinFinalCopy_of_boundary {p : Nat} (hp : p < 16) (hy : (s.lane l.other).inService = true)
    (hr : (s.lane l).blk.lane.role = .transfer) (hs : (s.lane l).blk.lane.rejoinStep = 5)
    (hb : ((s.lane l.other).part p).state ≠ .running ∨ ((s.lane l.other).part p).phase = .idle ∨
      ((s.lane l.other).part p).phase = .ready) :
    s.rejoinFinalCopy l p = s.onLane l (fun k => ((k.takePartition (s.lane l.other) p).onLaneBlk (fun b =>
      { b with copiedParts := insSorted p b.copiedParts })).rejoinNext (s.lane l.other)) :=
  if_pos (by simpa [hp, hy, hr, hs, or_assoc] using hb)

theorem State.rejoinEngineState_of_boundary {g : Nat} (hg : g < 8) (hy : (s.lane l.other).inService = true)
    (hr : (s.lane l).blk.lane.role = .transfer) (hs : (s.lane l).blk.lane.rejoinStep = 6)
    (ha : ((s.lane l.other).group g).awaiting = false) :
    s.rejoinEngineState l g = s.onLane l (fun k => (((k.takeGroup (s.lane l.other) g).onNrg (fun _ => (s.lane l.other).blk.nrg)).onLaneBlk
      (fun b => { b with copiedGroups := insSorted g b.copiedGroups })).rejoinNext (s.lane l.other)) :=
  if_pos (by simp [hg, hy, hr, hs, ha])

/-- The state after step 7 of a lane that matched its partner. -/
theorem State.rejoinJoin_of_match (hy : (s.lane l.other).inService = true) (hr : (s.lane l).blk.lane.role = .transfer)
    (hs : (s.lane l).blk.lane.rejoinStep = 7) (hc : (s.lane l.other).closed = []) (hn : (s.lane l).noLink = false)
    (hm : (s.lane l).bootMeas = (s.lane l.other).bootMeas)
    (hd : ((s.lane l).takeReplica (s.lane l.other)).stateDigest = (s.lane l.other).stateDigest) :
    ((s.rejoinJoin l).lane l).blk.lane.role = .standby ∧ ((s.rejoinJoin l).lane l).blk.lane.paired = true ∧
      ((s.rejoinJoin l).lane l.other).blk.lane.paired = true ∧ ((s.rejoinJoin l).lane l).parts = (s.lane l.other).parts ∧
      ((s.rejoinJoin l).lane l).cores = (s.lane l.other).cores := by
  unfold State.rejoinJoin
  simp only [hy, hr, hs, hc, hn, hm, hd, decide_true, Bool.and_self, if_true, ne_eq, not_true, decide_false, Bool.or_self,
    Bool.false_eq_true, if_false]
  cases l <;> exact ⟨rfl, rfl, rfl, rfl, rfl⟩

theorem State.rejoinJoin_of_mismatch (hy : (s.lane l.other).inService = true) (hr : (s.lane l).blk.lane.role = .transfer)
    (hs : (s.lane l).blk.lane.rejoinStep = 7) (hc : (s.lane l.other).closed = [])
    (h : (s.lane l).bootMeas ≠ (s.lane l.other).bootMeas ∨
      ((s.lane l).takeReplica (s.lane l.other)).stateDigest ≠ (s.lane l.other).stateDigest) :
    s.rejoinJoin l = s.rejoinFail l := by
  have hfail : ((s.lane l).noLink || decide ((s.lane l).bootMeas ≠ (s.lane l.other).bootMeas) ||
      decide (((s.lane l).takeReplica (s.lane l.other)).stateDigest ≠ (s.lane l.other).stateDigest)) = true := by
    simpa [or_assoc] using Or.inr h
  unfold State.rejoinJoin
  simp only [hy, hr, hs, hc, decide_true, Bool.and_self, if_true, hfail]

end

/-- Settles O42: each row's guard is the step it begins from; the conditions of the model are the choices of log 45, 46 (the roles and
the final copy) and 127 (a passed self-test found every clock running). -/
theorem rejoinRowsComplete : Obligations.RejoinRowsComplete := by
  unfold Obligations.RejoinRowsComplete
  intro s l hy hn x y
  have hlane : ∀ b k, (s.at_ b).lane k = s.lane k := fun b k => State.lane_at s b k
  refine ⟨fun hr hs => congrArg Host.Outcome.next (State.rejoinReset_of_due hy hr hs), fun hr hs => ⟨fun b => ?_, fun b => ?_⟩,
    fun hr => ⟨fun hs b => ?_, fun hs => congrArg Host.Outcome.next (State.rejoinPreCopy_of_due hy hr hs hn), ?_, ?_, fun hs hc => ⟨?_, ?_⟩⟩⟩
  · exact congrArg Host.Outcome.next (State.rejoinSelfTest_of_passed (s := s.at_ b) (by rw [hlane]; exact hr) (by rw [hlane]; exact hs)
      (by rw [hlane]; exact hn))
  · exact congrArg Host.Outcome.next (State.rejoinSelfTest_of_failed (s := s.at_ b) (by rw [hlane]; exact hr) (by rw [hlane]; exact hs))
  · have hkeys := State.rejoinKeys_of_due (s := s.at_ b) (l := l) (by rw [hlane]; exact hr) (by rw [hlane]; exact hs)
      (by rw [hlane]; exact hn)
    rw [hlane] at hkeys
    exact congrArg Host.Outcome.next hkeys
  · intro hs p hp hb
    have hcopy := State.rejoinFinalCopy_of_boundary hp hy hr hs hb
    refine ⟨s.rejoinFinalCopy l p, rfl, ?_, fun c hc => ?_, ?_⟩
    · rw [hcopy, State.lane_onLane, Lane.part_rejoinNext, Lane.part_onLaneBlk, Lane.takePartition_part]
    · rw [hcopy, State.lane_onLane, Lane.core_rejoinNext, Lane.core_onLaneBlk]
      exact Lane.core_foldl_takeCores _ hc
    · rw [hcopy]
      exact State.lane_onLane_other ..
  · intro hs g hg ha
    have htake := State.rejoinEngineState_of_boundary hg hy hr hs ha
    refine ⟨s.rejoinEngineState l g, rfl, ?_, ?_, ?_⟩
    · rw [htake, State.lane_onLane, Lane.group_rejoinNext, Lane.group_onLaneBlk, Lane.group_onNrg, Lane.takeGroup_group]
    · rw [htake, State.lane_onLane]
      rfl
    · rw [htake]
      exact State.lane_onLane_other ..
  · intro hm hd b
    have hjoin := State.rejoinJoin_of_match (s := s.at_ b) (l := l) (by rw [hlane]; exact hy) (by rw [hlane]; exact hr)
      (by rw [hlane]; exact hs) (by rw [hlane]; exact hc) (by rw [hlane]; exact hn) (by rw [hlane, hlane]; exact hm)
      (by rw [hlane, hlane]; exact hd)
    rw [hlane] at hjoin
    exact ⟨_, rfl, hjoin⟩
  · intro h b
    exact congrArg Host.Outcome.next (State.rejoinJoin_of_mismatch (s := s.at_ b) (by rw [hlane]; exact hy) (by rw [hlane]; exact hr)
      (by rw [hlane]; exact hs) (by rw [hlane]; exact hc) (by rw [hlane, hlane]; exact h))

end Sys2Proof.Machine
end

section
/-! SUPPORT. What the front-end dies report (R204 to R212, R226, R236, Table 14-1). -/

namespace Sys2Proof.Machine

theorem bitClass_bitUnit {p : Nat} (hp : p < 512) : bitClass (bitUnit p) = 3 := by
  unfold bitClass bitUnit
  repeat refine (if_neg (by omega)).trans ?_
  exact if_pos (by omega)

theorem bitClass_bitCluster {c : Nat} (hc : c < 64) : bitClass (bitCluster c) = 3 := by
  unfold bitClass bitCluster
  repeat refine (if_neg (by omega)).trans ?_
  exact if_pos (by omega)

theorem contains_setIn_same (i : Nat) (t : List Nat) (b : Bool) : (setIn t i b).contains i = b := by
  apply Bool.eq_iff_iff.mpr
  cases b <;> simp [setIn, mem_insSorted]

/-! ### What a detection leaves of another bit -/

theorem Lane.hasCause_setBit_other (x : Lane) (l : LaneId) {b c : Nat} (lasting : Bool) (h : c ≠ b) :
    (x.setBit l b lasting).hasCause c = x.hasCause c := by
  have hcause : (if lasting then x.onFlt (fun f => { f with cause := insSorted b f.cause }) else x).hasCause c = x.hasCause c := by
    cases lasting
    · rfl
    · apply Bool.eq_iff_iff.mpr
      simp [Lane.hasCause, mem_insSorted, h]
  unfold Lane.setBit
  dsimp only
  split
  · exact hcause
  · split
    · exact hcause
    · refine Eq.trans ?_ hcause
      unfold Lane.hasCause
      rw [(Lane.enter_keeps ..).1]
      rfl

/-- From `s` to `t` the package stands, and so do bit `b` and its cause in both collectors. -/
structure State.SameMark (s t : State) (b : Nat) : Prop where
  bit : ∀ k, (t.lane k).hasBit b = (s.lane k).hasBit b
  cause : ∀ k, (t.lane k).hasCause b = (s.lane k).hasCause b
  pkg : t.pkg = s.pkg

theorem State.SameMark.refl (s : State) (b : Nat) : s.SameMark s b := ⟨fun _ => rfl, fun _ => rfl, rfl⟩

theorem State.SameMark.trans {s t u : State} {b : Nat} (h : s.SameMark t b) (k : t.SameMark u b) : s.SameMark u b :=
  ⟨fun l => (k.bit l).trans (h.bit l), fun l => (k.cause l).trans (h.cause l), k.pkg.trans h.pkg⟩

theorem State.flag_sameMark (s : State) (l : LaneId) {b c : Nat} (lasting : Bool) (h : b ≠ c) : s.SameMark (s.flag l c lasting) b := by
  refine ⟨fun k => State.flag_hasBit_other s l k lasting (.inl h), fun k => ?_, (s.flag_onlyFlags l c lasting).pkg⟩
  by_cases hk : k = l
  · subst hk
    rw [State.flag, State.lane_onLane]
    split
    · exact Lane.hasCause_setBit_other _ _ _ h
    · rfl
  · rw [LaneId.eq_other hk, State.flag, State.lane_onLane_other]

theorem State.flagBoth_sameMark (s : State) {b c : Nat} (lasting : Bool) (h : b ≠ c) : s.SameMark (s.flagBoth c lasting) b :=
  (s.flag_sameMark .a lasting h).trans (State.flag_sameMark _ .b lasting h)

theorem State.endCauseBoth_sameMark (s : State) {b c : Nat} (h : b ≠ c) : s.SameMark (s.endCauseBoth c) b := by
  refine ⟨fun k => ?_, fun k => ?_, rfl⟩
  · rw [State.lane_endCauseBoth]; rfl
  · rw [State.lane_endCauseBoth]
    apply Bool.eq_iff_iff.mpr
    simp [Lane.hasCause, Lane.endCause, h]

theorem State.raiseBoth_flagBoth {s : State} {b : Nat} (lasting : Bool) (hl : bitClass b ≠ 2) (hg : bitClass b ≠ 4) :
    s.raiseBoth b lasting = s.flagBoth b lasting := by
  rw [State.raiseBoth, State.raise_flag lasting hl hg, State.raise_flag lasting hl hg]
  rfl

theorem State.hasCause_endCauseBoth (s : State) (b c : Nat) (k : LaneId) :
    ((s.endCauseBoth b).lane k).hasCause c = ((s.lane k).hasCause c && !decide (c = b)) := by
  rw [State.lane_endCauseBoth]
  apply Bool.eq_iff_iff.mpr
  simp [Lane.hasCause, Lane.endCause]

/-! ### TEST_SLOT -/

/-- One cluster's test slot: the unit's test result stands at the die, and the unit's bit and cause follow it. -/
theorem State.testOne_of_used {s : State} {r ms : Nat} (now : Nat) {v : SlotResult} (hr : r < 8) (hc : v.cluster < 8)
    (hty : s.cfgLane.unitType (64 * r + (8 * v.cluster + ms % 8)) ≠ 0) :
    ((s.testOne r ms now v).fe r).testFail.contains (8 * v.cluster + ms % 8) = !(v.injectOk && v.stageOk) ∧
      (∀ l, (s.lane l).collects = true → (v.injectOk && v.stageOk) = false →
        ((s.testOne r ms now v).lane l).hasBit (bitUnit (64 * r + (8 * v.cluster + ms % 8))) = true) ∧
      ((v.injectOk && v.stageOk) = true → (s.fe r).overcurrent.contains (8 * v.cluster + ms % 8) = false →
        ∀ l, ((s.testOne r ms now v).lane l).hasCause (bitUnit (64 * r + (8 * v.cluster + ms % 8))) = false) := by
  unfold State.testOne
  extract_lets i p ty ok cnt s1 c f out others clean s2 s3 s4
  have hp : p < 512 := by show 64 * r + i < 512; omega
  have hc64 : c < 64 := by show 8 * r + v.cluster < 64; omega
  have hclass := bitClass_bitUnit hp
  have hcluster := bitClass_bitCluster hc64
  have hraise : ∀ u : State, u.raiseBoth (bitUnit p) true = u.flagBoth (bitUnit p) true :=
    fun u => State.raiseBoth_flagBoth true (by rw [hclass]; decide) (by rw [hclass]; decide)
  have hraise' : ∀ u : State, u.raiseBoth (bitCluster c) true = u.flagBoth (bitCluster c) true :=
    fun u => State.raiseBoth_flagBoth true (by rw [hcluster]; decide) (by rw [hcluster]; decide)
  have hne : bitUnit p ≠ bitCluster c := by unfold bitUnit bitCluster; omega
  have hne' : bitUnit p ≠ bitProcess p := by unfold bitUnit bitProcess; omega
  have hfail : (s2.fe r).testFail.contains i = !ok := by
    rw [show s2.fe r = _ from State.fe_onFe s1 r _]
    exact contains_setIn_same ..
  have hcount : ∀ x : Lane, (cnt x).blk.lane = x.blk.lane := fun x => by show (if _ then _ else _ : Lane).blk.lane = _; split <;> rfl
  have hcollects : ∀ l, (s2.lane l).collects = (s.lane l).collects := fun l => by
    rw [show s2.lane l = s1.lane l from State.lane_onFe s1 r _ l]
    cases l <;> exact Lane.collects_eq_of_laneBlk (hcount _)
  have hclustered : s3.SameMark s4 (bitUnit p) := by
    show s3.SameMark (if _ then _ else _) _
    split
    · rw [hraise']; exact s3.flagBoth_sameMark true hne
    · split
      · exact s3.endCauseBoth_sameMark hne
      · exact .refl ..
  have hpkg : s3.pkg = s2.pkg := by
    show (if _ then _ else _ : State).pkg = _
    split
    · split <;> rfl
    · rw [hraise]; exact (s2.flagBoth_onlyFlags ..).pkg
  rw [if_neg hty]
  clear_value s4
  have hmark : s3.SameMark (if out = true then if v.openLoad || v.short then s4.flagBoth (bitProcess p) true
      else s4.endCauseBoth (bitProcess p) else s4) (bitUnit p) := by
    refine hclustered.trans ?_
    split
    · split
      · exact s4.flagBoth_sameMark true hne'
      · exact s4.endCauseBoth_sameMark hne'
    · exact .refl ..
  refine ⟨?_, fun l hl hok => ?_, fun hok hover l => ?_⟩
  · refine Eq.trans ?_ hfail
    rw [State.fe, hmark.pkg, hpkg]
    rfl
  · rw [hmark.bit l]
    have hs3 : s3 = s2.raiseBoth (bitUnit p) true := if_neg (by rw [show ok = false from hok]; decide)
    rw [hs3, hraise]
    exact s2.flagBoth_hasBit l true ((hcollects l).trans hl) (by rw [hclass]; decide)
  · rw [hmark.cause l]
    have hs3 : s3 = s2.endCauseBoth (bitUnit p) :=
      (if_pos (show ok = true from hok)).trans (if_neg (by rw [show f.overcurrent.contains i = false from hover]; decide))
    rw [hs3, State.hasCause_endCauseBoth]
    simp

theorem State.testSlot_single {s : State} {r : Nat} (ms now : Nat) {v : SlotResult} (hr : r < 8) (hrun : (s.fe r).running = true)
    (hc : v.cluster < 8) : s.testSlot r ms now [v] = s.testOne r ms now v := by
  simp [State.testSlot, hr, hrun, hc]

/-! ### The other reports -/

section
variable {s : State} {r p : Nat}

theorem State.overcurrent_of_output (now : Nat) (hp : p < 512) (hrun : (s.fe (p / 64)).running = true)
    (ht : isOutputType (s.cfgLane.unitType p) = true) : s.overcurrent p now = (s.onFe (p / 64) (fun f => { f with
      overcurrent := insSorted (p % 64) f.overcurrent, overBeat := tput 0 f.overBeat (p % 64) now })).raiseBoth (bitUnit p) true :=
  if_pos (by simp [hp, hrun, ht])

theorem State.readbackFault_of_output (hp : p < 512) (hrun : (s.fe (p / 64)).running = true)
    (ht : isOutputType (s.cfgLane.unitType p) = true) : s.readbackFault p = (s.onFe (p / 64) (fun f => { f with
      testFail := insSorted (p % 64) f.testFail, stageFault := insSorted (p % 64) f.stageFault })).raiseBoth (bitUnit p) true :=
  if_pos (by simp [hp, hrun, ht])

/-- The bit of a region for each fault of its field supply. -/
def fieldBit : FieldSupply → Nat
  | .low => 1
  | .high => 2
  | .load96 => 3
  | .load8 => 7

theorem State.fieldFault_of_running (f : FieldSupply) (hr : r < 8) (hrun : (s.fe r).running = true) :
    s.fieldFault r f = (s.onFe r (fun g => { g with fs := some f })).raiseBoth (bitRegion r (fieldBit f)) true := by
  refine (if_pos (by simp [hr, hrun])).trans ?_
  cases f <;> rfl

theorem State.walkingVector_of_passed (hr : r < 8) (hrun : (s.fe r).running = true) (hd : (s.fe r).planeDiff = none) :
    s.walkingVector r true = s.endCauseBoth (bitRegion r 5) := by
  simp [State.walkingVector, hr, hrun, hd]

theorem State.planeCheck_of_diff {d : Nat} (hd : (s.fe r).planeDiff = some d) :
    s.planeCheck r = if d + 100 < s.pkg.beat then s.raiseBoth (bitRegion r 5) true else s := by
  simp only [State.planeCheck, hd]

theorem State.walkingVector_of_diff {d : Nat} (hr : r < 8) (hrun : (s.fe r).running = true) (hd : (s.fe r).planeDiff = some d)
    (hlate : d + 100 < s.pkg.beat) : s.walkingVector r true = s.raiseBoth (bitRegion r 5) true := by
  simp only [State.walkingVector, hr, hrun, hd, decide_true, Bool.and_self, if_true, Bool.not_true, Bool.false_eq_true, if_false,
    Option.isSome_some, State.planeCheck_of_diff hd, hlate]

theorem State.walkingVector_of_failed (hr : r < 8) (hrun : (s.fe r).running = true) :
    s.walkingVector r false = s.raiseBoth (bitRegion r 5) true := by
  simp only [State.walkingVector, hr, hrun, decide_true, Bool.and_self, if_true, Bool.not_false]

theorem State.fieldRestored_of_region (hr : r < 8) : s.fieldRestored r =
    ((((s.onFe r (fun f => { f with fs := none })).endCauseBoth (bitRegion r 1)).endCauseBoth (bitRegion r 2)).endCauseBoth
      (bitRegion r 3)).endCauseBoth (bitRegion r 7) :=
  if_pos hr

theorem State.frontEndRestart_of_fault (hr : r < 8) (hf : (s.fe r).internalFault = true) :
    s.frontEndRestart r = (s.onFe r (fun f => { f with internalFault := false })).endCauseBoth (bitRegion r 0) :=
  if_pos (by simp [hr, hf])

/-- A lane's heartbeat has been silent for 20 µs. -/
def Lane.silent (x : Lane) (now : Nat) : Prop := x.blk.lane.heartbeat = false ∨ x.blk.lane.hbBeat + 2000 ≤ now

theorem State.noHeartbeats_of_silent {now : Nat} (hr : r < 8) (hrun : (s.fe r).running = true) (h : ∀ l, (s.lane l).silent now) :
    s.noHeartbeats r now = s.onFe r (fun f => { f with noHeartbeat := true }) :=
  if_pos (by simpa [hr, hrun, Lane.silent] using ⟨h .a, h .b⟩)

theorem State.noHeartbeats_of_heard {now : Nat} {l : LaneId} (h : ¬ (s.lane l).silent now) : s.noHeartbeats r now = s := by
  refine if_neg ?_
  cases l <;> simp_all [Lane.silent, State.lane]

end

theorem frontEndReportsComplete : Claims.FrontEndReportsComplete := by
  intro s r p beat now
  have hlane : ∀ k, (s.at_ beat).lane k = s.lane k := State.lane_at s beat
  refine ⟨?_, fun hp hrun ht => ⟨?_, ?_⟩, ?_, ?_, ?_, ?_, ?_⟩
  · intro ms v hr hrun hc hty
    obtain ⟨hfail, hbit, hcause⟩ := State.testOne_of_used (s := s.at_ beat) (ms := ms) (s.at_ beat).pkg.beat hr hc hty
    rw [← State.testSlot_single (s := s.at_ beat) ms (s.at_ beat).pkg.beat hr hrun hc] at hfail hbit hcause
    have hvec := State.literalsMoved_onlyVectors ((s.at_ beat).testSlot r ms (s.at_ beat).pkg.beat [v]) r
    refine ⟨_, rfl, ?_, fun l hl hok => ?_, fun hok hover l => ?_⟩
    · exact (State.fe_literalsMoved (p := fun f => f.testFail.contains (8 * v.cluster + ms % 8)) (fun _ => rfl) _ r r).trans hfail
    · exact (hvec.keeps (p := fun x => x.hasBit _) (fun _ _ => rfl) l).trans (hbit l (by rw [hlane]; exact hl) hok)
    · exact (hvec.keeps (p := fun x => x.hasCause _) (fun _ _ => rfl) l).trans (hcause hok hover l)
  · exact congrArg (fun u : State => Host.Outcome.next (u.literalsMoved (p / 64)))
      (State.overcurrent_of_output (s := s.at_ beat) _ hp hrun ht)
  · exact congrArg (fun u : State => Host.Outcome.next (u.literalsMoved (p / 64)))
      (State.readbackFault_of_output (s := s.at_ beat) hp hrun ht)
  · intro hr hrun supply
    have hsupply : ∀ f : FieldSupply, exec (.fieldSupplyFault r f) s = .next (supply f (fieldBit f)) :=
      fun f => congrArg (fun u : State => Host.Outcome.next (u.literalsMoved r)) (State.fieldFault_of_running f hr hrun)
    exact ⟨hsupply .low, hsupply .high, hsupply .load96, hsupply .load8,
      fun hd => congrArg (fun u : State => Host.Outcome.next (u.literalsMoved r)) (State.walkingVector_of_passed hr hrun hd),
      fun d hd hlate => congrArg (fun u : State => Host.Outcome.next (u.literalsMoved r)) (State.walkingVector_of_diff hr hrun hd hlate),
      congrArg (fun u : State => Host.Outcome.next (u.literalsMoved r)) (State.walkingVector_of_failed hr hrun)⟩
  · intro hr
    have heq := State.fieldRestored_of_region (s := s) hr
    refine ⟨s.fieldRestored r, rfl, ?_, fun q hq => ?_, fun l => ⟨?_, fun b => ?_⟩⟩
    · rw [heq]
      exact congrArg FrontEnd.fs (State.fe_onFe s r _)
    · rw [heq]
      exact State.fe_onFe_other s _ hq
    · rw [heq]
      simp only [State.lane_endCauseBoth, State.lane_onFe]
      rfl
    · rw [heq]
      simp only [State.hasCause_endCauseBoth, State.lane_onFe, List.any_cons, List.any_nil, Bool.not_or, Bool.and_assoc, Bool.or_false]
  · exact fun hr hf => congrArg Host.Outcome.next (State.frontEndRestart_of_fault hr hf)
  · intro hr hrun hsilent
    exact congrArg Host.Outcome.next (State.noHeartbeats_of_silent (s := s.at_ beat) (now := now) hr hrun
      (fun l => by rw [hlane]; exact hsilent l))
  · intro l hbeat hnow
    refine congrArg Host.Outcome.next (State.noHeartbeats_of_heard (s := s.at_ beat) (l := l) (now := now) ?_)
    rw [hlane]
    rintro (h | h)
    · exact absurd (hbeat.symm.trans h) (by decide)
    · exact absurd hnow (Nat.not_lt.2 h)

end Sys2Proof.Machine
end

section
/-! SUPPORT. The frame of a region (R93, R94, R195, R204, R237). -/

namespace Sys2Proof.Machine

/-! ### Unit settings that come into force with a frame -/

/-- What the closing of region `r`'s frame does to a lane's point configuration. -/
def Lane.applyUnits (x : Lane) (r : Nat) : Lane :=
  if x.collects then (x.blk.pnt.retypes r).foldl (fun z q =>
    z.detail 0x0005 (x.pointOwner q.1) (beBytes 2 q.1 ++ beBytes 1 q.2.1 ++ beBytes 1 q.2.2 ++ zeros 12)) (x.onPnt (fun b => b.applyPending r))
  else x

/-- It moves the points and the recorder alone. -/
theorem Lane.applyUnits_keeps {β : Type} {p : Lane → β} (hpnt : ∀ (x : Lane) f, p (x.onPnt f) = p x)
    (hrec : ∀ (x : Lane) f, p (x.onRec f) = p x) (x : Lane) (r : Nat) : p (x.applyUnits r) = p x := by
  unfold Lane.applyUnits
  split
  · exact (foldl_keeps (p := p) (fun _ _ => hrec _ _) _ _).trans (hpnt _ _)
  · rfl

theorem Lane.pnt_applyUnits (x : Lane) (r : Nat) :
    (x.applyUnits r).blk.pnt = if x.collects then x.blk.pnt.applyPending r else x.blk.pnt := by
  unfold Lane.applyUnits
  split
  · rw [foldl_keeps (p := fun x : Lane => x.blk.pnt) (by intros; rfl)]
    rfl
  · rfl

/-- One setting that waits for the region comes into force whole. -/
theorem PntBlk.applyPending_single {b : PntBlk} {r : Nat} {u : Nat × Word × Word × Word} (hb : b.pendingUnits = [u]) (hu : u.1 / 64 = r) :
    tget 0 (b.applyPending r).cfg u.1 = u.2.1 ∧ tget 0 (b.applyPending r).param u.1 = u.2.2.1 ∧
      tget 0 (b.applyPending r).safe u.1 = u.2.2.2 ∧ (b.applyPending r).pendingUnits = [] := by
  have hdue : b.pendingUnits.filter (fun u => decide (u.1 / 64 = r)) = [u] := by simp [hb, hu]
  have hrest : b.pendingUnits.filter (fun u => decide (u.1 / 64 ≠ r)) = [] := by simp [hb, hu]
  unfold PntBlk.applyPending
  simp only [hdue, List.foldl_cons, List.foldl_nil]
  exact ⟨tget_tput_same .., tget_tput_same .., tget_tput_same .., hrest⟩

/-- With nothing waiting, the settings stand and no unit is held at zero. -/
theorem PntBlk.applyPending_nil {b : PntBlk} (r : Nat) (hb : b.pendingUnits = []) (hr : b.retyped = []) :
    (b.applyPending r).cfg = b.cfg ∧ (b.applyPending r).retyped = [] := by
  unfold PntBlk.applyPending
  simp [hb, hr]

theorem Lane.applyUnits_idle {x : Lane} (r : Nat) (hb : x.blk.pnt.pendingUnits = []) (hr : x.blk.pnt.retyped = []) :
    (x.applyUnits r).blk.pnt.cfg = x.blk.pnt.cfg ∧ (x.applyUnits r).blk.pnt.retyped = [] := by
  rw [Lane.pnt_applyUnits]
  split
  · exact PntBlk.applyPending_nil r hb hr
  · exact ⟨rfl, hr⟩

/-- The point configurations of both lanes as the frame closes. -/
def State.applyUnits (s : State) (r : Nat) : State := { s with a := s.a.applyUnits r, b := s.b.applyUnits r }

theorem State.lane_applyUnits (s : State) (r : Nat) (k : LaneId) : (s.applyUnits r).lane k = (s.lane k).applyUnits r := by
  cases k <;> rfl

theorem State.cfgLane_applyUnits (s : State) (r : Nat) : (s.applyUnits r).cfgLane = s.cfgLane.applyUnits r := by
  have hleads : ∀ x : Lane, (x.applyUnits r).leads = x.leads :=
    fun x => Lane.applyUnits_keeps (p := Lane.leads) (fun _ _ => rfl) (fun _ _ => rfl) x r
  have hact : (s.applyUnits r).activeLane = s.activeLane := by
    show (if (s.b.applyUnits r).leads && !(s.a.applyUnits r).leads then LaneId.b else .a) = _
    rw [hleads, hleads]
    rfl
  rw [State.cfgLane, hact, State.lane_applyUnits]
  rfl

/-! ### The samples of a frame -/

theorem FrontEnd.frameNo_takeSample (f : FrontEnd) (t filter : Nat) (u : UnitSample) : (f.takeSample t filter u).1.frameNo = f.frameNo := by
  unfold FrontEnd.takeSample
  dsimp only
  repeat' split
  all_goals rfl

/-! ### The frame -/

/-- A lane in service receives a frame on its link. -/
def Lane.giveFrame (y : Lane) (r : Nat) (frame : SFrame) : Lane :=
  if y.inService then { y with frameIn := y.frameIn ++ [(r, frame, true)] } else y

/-- The process condition of an input unit (Table 06-4) follows the samples of the frame. -/
def State.processCondition (r : Nat) (z : State) (u : UnitSample) : State :=
  let g := z.fe r
  if g.openWire.contains u.unit || g.short.contains u.unit || g.overRange.contains u.unit || g.underRange.contains u.unit then
    z.flagBoth (bitProcess (64 * r + u.unit)) true
  else z.endCauseBoth (bitProcess (64 * r + u.unit))

theorem State.processConditions_keep (r : Nat) (us : List UnitSample) (s : State) :
    (us.foldl (State.processCondition r) s).pkg = s.pkg ∧
      ∀ k, ((us.foldl (State.processCondition r) s).lane k).beyondEvents = (s.lane k).beyondEvents := by
  have hstep : ∀ z u, OnlyFlags z (State.processCondition r z u) := by
    intro z u
    unfold State.processCondition
    dsimp only
    split
    · exact z.flagBoth_onlyFlags ..
    · exact ⟨fun k => by rw [State.lane_endCauseBoth]; rfl, rfl, rfl, rfl⟩
  exact ⟨foldl_keeps (p := State.pkg) (fun z u => (hstep z u).pkg) us s,
    fun k => foldl_keeps (p := fun z : State => (z.lane k).beyondEvents) (fun z u => (hstep z u).lane k) us s⟩

/-- What the closing of a region's frame leaves at the die and in the lanes, before a changed literal is sent. -/
structure State.FrameClosed (s t : State) (r : Nat) (samples : List UnitSample) (f : SFrame) : Prop where
  head : (t.fe r).frames.head? = some f
  number : f.number = ((s.fe r).frameNo + 1) % 65536
  frameNo : (t.fe r).frameNo = f.number
  crc : f.crc = Config.frameCrc (f.number, f.units)
  lane : ∀ l, ∃ x : Lane, x.beyondEvents = ((s.lane l).applyUnits r).beyondEvents ∧ (t.lane l).beyondEvents = (x.giveFrame r f).beyondEvents
  word : ∀ u, samples = [u] → u.unit < 64 → s.cfgLane.blk.pnt.pendingUnits = [] → s.cfgLane.blk.pnt.retyped = [] →
    (tget {} f.units u.unit).word = ((s.fe r).takeSample (s.cfgLane.unitType (64 * r + u.unit))
      (cfgFilter (s.cfgLane.unitCfg (64 * r + u.unit))) u).2
  other : ∀ q, q ≠ r → t.fe q = s.fe q

theorem tget_foldl_tput_mem {α : Type} [DecidableEq α] {d : α} (g : Nat → α) {i : Nat} {is : List Nat} (t : Tab α) (h : i ∈ is) :
    tget d (is.foldl (fun t j => tput d t j (g j)) t) i = g i :=
  (tget_foldl_tput_unless (fun _ => false) g i is t).trans (if_pos ⟨h, rfl⟩)

theorem State.regionFrame_closed {s : State} {r : Nat} (samples : List UnitSample) (hr : r < 8) (hrun : (s.fe r).running = true) :
    ∃ f, s.FrameClosed (s.regionFrame r samples) r samples f := by
  unfold State.regionFrame
  rw [if_pos (by simp [hr, hrun])]
  extract_lets retypes upd s0 s1 x f0 step q s2 views number frame s3 give s4
  have hs0 : s0 = s.applyUnits r := rfl
  have hs1 : OnlyFlags s0 s1 := by
    show OnlyFlags s0 (if _ then _ else _)
    split
    · exact .refl _
    · exact s0.flagBoth_onlyFlags ..
  have hfe1 : ∀ q, s1.fe q = s.fe q := fun q => by rw [State.fe, hs1.pkg]; rfl
  have hf0 : f0.frameNo = (s.fe r).frameNo := by
    show (List.foldl _ (s1.fe r) retypes).frameNo = _
    rw [foldl_keeps (p := FrontEnd.frameNo) (by intros; rfl), hfe1]
  have hq : q.1.frameNo = (s.fe r).frameNo :=
    (foldl_keeps (p := fun a : FrontEnd × Tab UnitView => a.1.frameNo) (f := step) (fun _ _ => FrontEnd.frameNo_takeSample ..) _ _).trans hf0
  have hword : ∀ u, samples = [u] → u.unit < 64 → s.cfgLane.blk.pnt.pendingUnits = [] → s.cfgLane.blk.pnt.retyped = [] →
      (tget {} views u.unit).word = ((s.fe r).takeSample (s.cfgLane.unitType (64 * r + u.unit))
        (cfgFilter (s.cfgLane.unitCfg (64 * r + u.unit))) u).2 := by
    intro u hsamples hu hpend hret
    have hnone : retypes = [] := by
      show PntBlk.retypes _ r = []
      simp [PntBlk.retypes, hpend]
    have hs10 : s1 = s.applyUnits r := (if_pos hnone).trans hs0
    obtain ⟨hcfg, hheld⟩ := Lane.applyUnits_idle r hpend hret
    have hx : x = s.cfgLane.applyUnits r := (congrArg State.cfgLane hs10).trans (s.cfgLane_applyUnits r)
    have hunit : ∀ p, x.unitCfg p = s.cfgLane.unitCfg p := fun p => by rw [Lane.unitCfg, hx, hcfg]; rfl
    have htype : ∀ p, x.unitType p = s.cfgLane.unitType p := fun p => by rw [Lane.unitType, hunit]; rfl
    have hzero : ∀ p, x.heldAtZero p = false := fun p => by rw [Lane.heldAtZero, hx, hheld]; rfl
    have hfold : q = step (f0, []) u := by
      show List.foldl step (f0, []) (samples.filter _) = _
      simp [hsamples, hu]
    have hstart : f0 = s.fe r := by
      show List.foldl _ (s1.fe r) retypes = _
      rw [hnone]
      exact hfe1 r
    refine (congrArg UnitView.word (tget_foldl_tput_mem _ _ (List.mem_range.2 hu))).trans ?_
    show (tget {} q.2 u.unit).word = _
    rw [hfold]
    refine (congrArg UnitView.word (tget_tput_same ..)).trans ?_
    show (if x.heldAtZero _ then 0 else (f0.takeSample (x.unitType _) (cfgFilter (x.unitCfg _)) u).2) = _
    rw [hzero, hunit, htype, hstart]
    rfl
  have hcrc : frame.crc = Config.frameCrc (frame.number, frame.units) := rfl
  have hunits : frame.units = views := rfl
  have hnumber : frame.number = ((s.fe r).frameNo + 1) % 65536 := congrArg (fun n => (n + 1) % 65536) hq
  clear_value frame
  have hfe4 : s4.fe r = { q.1 with frameNo := frame.number, frames := (frame :: q.1.frames).take 4 } := by
    refine (State.fe_onFe s2 r _).trans ?_
    rw [show s2.fe r = q.1 from State.fe_onFe s1 r _]
  refine ⟨frame, ?_⟩
  change s.FrameClosed (List.foldl (State.processCondition r) s4 _) r samples frame
  generalize samples.filter _ = us
  obtain ⟨hpkg, hlanes⟩ := State.processConditions_keep r us s4
  have hfe : ∀ q, (List.foldl (State.processCondition r) s4 us).fe q = s4.fe q := fun q => by rw [State.fe, hpkg]; rfl
  refine ⟨?_, hnumber, ?_, hcrc, fun l => ⟨s1.lane l, by rw [hs1.lane, hs0, State.lane_applyUnits], ?_⟩,
    fun u h1 h2 h3 h4 => by rw [hunits]; exact hword u h1 h2 h3 h4,
    fun p hp => ?_⟩
  · rw [hfe, hfe4]
    rfl
  · rw [hfe, hfe4]
  · rw [hlanes]
    cases l <;> rfl
  · rw [hfe]
    exact ((State.fe_onFe_other s2 _ hp).trans (State.fe_onFe_other s1 _ hp)).trans (hfe1 p)

/-- What a lane holds beside its collector and its events, once the frame has closed. -/
theorem State.FrameClosed.keeps {s t : State} {r : Nat} {samples : List UnitSample} {f : SFrame} (h : s.FrameClosed t r samples f)
    {β : Type} {p : Lane → β} (hp : ∀ x : Lane, p x.beyondEvents = p x) (hframe : ∀ (x : Lane) v, p { x with frameIn := v } = p x)
    (l : LaneId) : p (t.lane l) = p ((s.lane l).applyUnits r) := by
  obtain ⟨x, hx, ht⟩ := h.lane l
  rw [← hp, ht, hp, ← hp ((s.lane l).applyUnits r), ← hx, hp]
  unfold Lane.giveFrame
  split
  · exact hframe _ _
  · rfl

theorem State.FrameClosed.frameIn {s t : State} {r : Nat} {samples : List UnitSample} {f : SFrame} (h : s.FrameClosed t r samples f)
    (l : LaneId) : (t.lane l).frameIn = if (s.lane l).inService then (s.lane l).frameIn ++ [(r, f, true)] else (s.lane l).frameIn := by
  obtain ⟨x, hx, ht⟩ := h.lane l
  have hserv : x.inService = (s.lane l).inService :=
    (congrArg Lane.inService hx).trans (Lane.applyUnits_keeps (p := Lane.inService) (fun _ _ => rfl) (fun _ _ => rfl) _ r)
  have hin : x.frameIn = (s.lane l).frameIn :=
    (congrArg Lane.frameIn hx).trans (Lane.applyUnits_keeps (p := Lane.frameIn) (fun _ _ => rfl) (fun _ _ => rfl) _ r)
  refine (congrArg Lane.frameIn ht).trans ?_
  show (x.giveFrame r f).frameIn = _
  rw [Lane.giveFrame, hserv, ← hin]
  split <;> rfl

theorem regionFrameCompletes : Claims.RegionFrameCompletes := by
  intro s r samples
  refine ⟨fun hrun => ?_, fun hr hrun => ?_⟩
  · have hframe : s.regionFrame r samples = s := if_neg (by simp [hrun])
    have hliterals : s.literalsMoved r = s := if_pos (by simp [hrun])
    exact congrArg Host.Outcome.next ((congrArg (State.literalsMoved · r) hframe).trans hliterals)
  · obtain ⟨f, h⟩ := State.regionFrame_closed samples hr hrun
    have hvec := State.literalsMoved_onlyVectors (s.regionFrame r samples) r
    have hin : ∀ l, (((s.regionFrame r samples).literalsMoved r).lane l).frameIn =
        if (s.lane l).inService then (s.lane l).frameIn ++ [(r, f, true)] else (s.lane l).frameIn :=
      fun l => (hvec.keeps (p := Lane.frameIn) (fun _ _ => rfl) l).trans (h.frameIn l)
    refine ⟨(s.regionFrame r samples).literalsMoved r, f, rfl, ?_, h.number, ?_, h.crc, fun l hl => (hin l).trans (if_pos hl),
      fun l hl => (hin l).trans (if_neg (by simp [hl])), fun l u hc hpend hu => ?_, h.word, fun q hq => ?_⟩
    · exact (State.fe_literalsMoved (p := fun g => g.frames.head?) (fun _ => rfl) _ r r).trans h.head
    · exact (State.fe_literalsMoved (p := FrontEnd.frameNo) (fun _ => rfl) _ r r).trans h.frameNo
    · have hpnt : (((s.regionFrame r samples).literalsMoved r).lane l).blk.pnt = (s.lane l).blk.pnt.applyPending r := by
        rw [hvec.keeps (p := fun x => x.blk.pnt) (fun _ _ => rfl), h.keeps (p := fun x => x.blk.pnt) (fun _ => rfl) (fun _ _ => rfl),
          Lane.pnt_applyUnits, if_pos hc]
      obtain ⟨hcfg, hparam, hsafe, hnone⟩ := PntBlk.applyPending_single hpend hu
      simp only [Lane.unitCfg, Lane.unitParam, Lane.unitSafeWord, hpnt]
      exact ⟨hcfg, hparam, hsafe, hnone⟩
    · exact ((State.literalsMoved_comparedAt _ r).fe q hq).trans (h.other q hq)

/-- Settles O43: the frame of a region is followed from the settings that come into force to the lanes that receive it, and each report
of a die from its guard. -/
theorem frontEndRowsComplete : Obligations.FrontEndRowsComplete :=
  ⟨regionFrameCompletes, frontEndReportsComplete⟩

end Sys2Proof.Machine
end

section
/-! SUPPORT. Literals and literal vectors (R218, R224, R226, R227, R236, Table 06-8). -/

namespace Sys2Proof.Machine

/-! ### What the literals of a region depend on -/

theorem FrontEnd.eq_of_unsent {β : Type} {p : FrontEnd → β} {f g : FrontEnd} (hp : ∀ f : FrontEnd, p f.unsent = p f)
    (h : f.unsent = g.unsent) : p f = p g := by
  rw [← hp, h, hp]

/-- The literals follow the die, but for what it says of the vectors it sent, and the faults that stand. -/
theorem State.literal_congr {s t : State} {r : Nat} (hfe : (t.fe r).unsent = (s.fe r).unsent)
    (hfault : ∀ p, t.unitFault p = s.unitFault p) (i c : Nat) : t.literal r i c = s.literal r i c := by
  have himage : (t.fe r).image = (s.fe r).image := FrontEnd.eq_of_unsent (p := FrontEnd.image) (fun _ => rfl) hfe
  have hopen : (t.fe r).openWire = (s.fe r).openWire := FrontEnd.eq_of_unsent (p := FrontEnd.openWire) (fun _ => rfl) hfe
  have hshort : (t.fe r).short = (s.fe r).short := FrontEnd.eq_of_unsent (p := FrontEnd.short) (fun _ => rfl) hfe
  simp only [State.literal, himage, hopen, hshort, hfault]

theorem OnlyVectors.literals {s t : State} (h : OnlyVectors s t) (r : Nat) :
    t.literalsA r = s.literalsA r ∧ t.literalsB r = s.literalsB r := by
  have hfaulted : ∀ k p, ((t.lane k).collects && (t.lane k).unitFaulted p) = ((s.lane k).collects && (s.lane k).unitFaulted p) :=
    fun k p => h.keeps (p := fun x => x.collects && x.unitFaulted p) (fun _ _ => rfl) k
  have hfault : ∀ p, t.unitFault p = s.unitFault p := fun p => congrArg₂ (· || ·) (hfaulted .a p) (hfaulted .b p)
  have hcompA : (t.fe r).compA = (s.fe r).compA := FrontEnd.eq_of_unsent (p := FrontEnd.compA) (fun _ => rfl) (h.fe r)
  have hcompB : (t.fe r).compB = (s.fe r).compB := FrontEnd.eq_of_unsent (p := FrontEnd.compB) (fun _ => rfl) (h.fe r)
  constructor
  · unfold State.literalsA
    simp only [State.literal_congr (h.fe r) hfault, hcompA]
  · unfold State.literalsB
    simp only [State.literal_congr (h.fe r) hfault, hcompB]

/-- The vector that a running die has sent last is that of its literals, and its number has moved on if they had changed. -/
theorem State.literalsMoved_vector {s : State} {r : Nat} (hrun : (s.fe r).running = true) :
    ((s.literalsMoved r).fe r).lastVector = some (s.literalsA r, s.literalsB r) ∧
      ((s.literalsMoved r).fe r).vector = if (s.fe r).lastVector = some (s.literalsA r, s.literalsB r) then (s.fe r).vector
        else ((s.fe r).vector + 1) % 65536 := by
  by_cases h : (s.fe r).lastVector = some (s.literalsA r, s.literalsB r)
  · have hsame : s.literalsMoved r = s := if_pos (by simp [h])
    rw [hsame]
    exact ⟨h, (if_pos h).symm⟩
  · have hsent : s.literalsMoved r = (s.sendVector r).onFe r _ := if_neg (by simp [h, hrun])
    rw [hsent, State.fe_onFe, if_neg h]
    have hfe : (s.sendVector r).fe r = _ := State.fe_onFe s r _
    simp only [hfe]
    trivial

/-! ### Planes that differ -/

theorem bitClass_plane {r : Nat} (hr : r < 8) : bitClass (bitRegion r 5) = 3 := by
  revert hr
  revert r
  decide

theorem State.planeCheck_onlyFlags (s : State) {r : Nat} (hr : r < 8) : OnlyFlags s (s.planeCheck r) := by
  unfold State.planeCheck
  split
  · split
    · have hclass := bitClass_plane hr
      rw [State.raiseBoth_flagBoth true (by rw [hclass]; decide) (by rw [hclass]; decide)]
      exact s.flagBoth_onlyFlags ..
    · exact .refl s
  · exact .refl s

theorem State.planeCheck_of_none {s : State} {r : Nat} (h : (s.fe r).planeDiff = none) : s.planeCheck r = s := by
  simp only [State.planeCheck, h]

/-! ### The rows -/

theorem State.vectorRefresh_of_due {s : State} {r : Nat} (hr : r < 8) (hrun : (s.fe r).running = true)
    (h : (s.fe r).vectorBeat + 10000 ≤ s.pkg.beat) : s.vectorRefresh r = (s.planeCheck r).sendVector r :=
  if_pos (by simp [hr, hrun, h])

theorem State.vectorRefresh_of_early {s : State} {r : Nat} (h : s.pkg.beat < (s.fe r).vectorBeat + 10000) : s.vectorRefresh r = s :=
  if_neg (by simp [h])

theorem State.sendVector_lane (s : State) (r : Nat) (l : LaneId) : ((s.sendVector r).lane l).vectorIn =
    if (s.lane l).collects then (s.lane l).vectorIn ++ [(r, ((s.fe r).vector + 1) % 65536, s.literalsA r, s.literalsB r)]
    else (s.lane l).vectorIn := by
  cases l <;> exact apply_ite Lane.vectorIn ..

theorem State.literalVector_of_find {s : State} {l : LaneId} {r : Nat} {v : Nat × Nat × BitVec 64 × BitVec 64} (now : Nat)
    (h : (s.lane l).vectorIn.find? (fun v => v.1 = r) = some v) :
    s.literalVector l r now = s.onLane l (fun x => (({ x with vectorIn := x.vectorIn.erase v }).onHed (fun h =>
      { h with vectors := oset h.vectors r (v.2.1, v.2.2.1, v.2.2.2, now) })).sendInhibits r v.2.1) := by
  simp only [State.literalVector, h]

theorem State.vectorTimeout_of_vector {s : State} {l : LaneId} {r : Nat} {v : Nat × BitVec 64 × BitVec 64 × Nat} (now : Nat)
    (h : (s.lane l).blk.hed.vectors.lookup r = some v) :
    s.vectorTimeout l r now = if v.2.2.2 + 20000 ≤ now then
      s.onLane l (fun x => (x.onHed (fun h => { h with vectors := odel h.vectors r })).sendInhibits r v.1) else s := by
  simp only [State.vectorTimeout, h]

/-- The comparators of a running die follow the codes of a crossing, and the vector follows the literals. -/
theorem State.thresholdCrossing_fe {s : State} {p : Nat} (ca cb : Nat) {im : HedImage} (hp : p < 512)
    (hrun : (s.fe (p / 64)).running = true) (him : (s.fe (p / 64)).image = some im) :
    let t := s.thresholdCrossing p ca cb
    tget 0 (t.fe (p / 64)).codeA (p % 64) = ca % 65536 ∧ tget 0 (t.fe (p / 64)).codeB (p % 64) = cb % 65536 ∧
      tget 0 (t.fe (p / 64)).compA (p % 64) =
        comparator (tget {} im.literals (p % 64)) (tget 0 (s.fe (p / 64)).compA (p % 64)) (ca % 65536) ∧
      tget 0 (t.fe (p / 64)).compB (p % 64) =
        comparator (tget {} im.literals (p % 64)) (tget 0 (s.fe (p / 64)).compB (p % 64)) (cb % 65536) ∧
      (t.fe (p / 64)).lastVector = some (t.literalsA (p / 64), t.literalsB (p / 64)) ∧
      (t.fe (p / 64)).vector = (if (s.fe (p / 64)).lastVector = some (t.literalsA (p / 64), t.literalsB (p / 64))
        then (s.fe (p / 64)).vector else ((s.fe (p / 64)).vector + 1) % 65536) := by
  unfold State.thresholdCrossing
  extract_lets r i lit s1 t
  have hr : r < 8 := by show p / 64 < 8; omega
  have hfe : (s.planeCheck r).fe r = s.fe r := by rw [State.fe, (s.planeCheck_onlyFlags hr).pkg]; rfl
  have hlit : lit = tget {} im.literals i := by
    show (match (s.fe r).image with | some im => tget {} im.literals i | none => {} : Literal) = _
    rw [him]
  have hs1 : s1.fe r = { s.fe r with
      codeA := tput 0 (s.fe r).codeA i (ca % 65536), codeB := tput 0 (s.fe r).codeB i (cb % 65536)
      compA := tput 0 (s.fe r).compA i (comparator lit (tget 0 (s.fe r).compA i) (ca % 65536))
      compB := tput 0 (s.fe r).compB i (comparator lit (tget 0 (s.fe r).compB i) (cb % 65536)) } := by
    refine (State.fe_onFe ..).trans ?_
    rw [hfe, if_pos hrun, if_pos hrun]
  have ht : t = s1.literalsMoved r := if_pos hp
  clear_value s1 t
  subst ht
  obtain ⟨hA, hB⟩ := (s1.literalsMoved_onlyVectors r).literals r
  obtain ⟨hlast, hvector⟩ := State.literalsMoved_vector (s := s1) (r := r) (by rw [hs1]; exact hrun)
  rw [hA, hB]
  refine ⟨?_, ?_, ?_, ?_, hlast, ?_⟩
  · rw [State.fe_literalsMoved (p := FrontEnd.codeA) (fun _ => rfl), hs1, tget_tput_same]
  · rw [State.fe_literalsMoved (p := FrontEnd.codeB) (fun _ => rfl), hs1, tget_tput_same]
  · rw [State.fe_literalsMoved (p := FrontEnd.compA) (fun _ => rfl), hs1, tget_tput_same, hlit]
  · rw [State.fe_literalsMoved (p := FrontEnd.compB) (fun _ => rfl), hs1, tget_tput_same, hlit]
  · rw [hvector, hs1]

theorem literalRowsComplete : Claims.LiteralRowsComplete := by
  intro s r p beat now
  have hlane : ∀ k, (s.at_ beat).lane k = s.lane k := State.lane_at s beat
  refine ⟨fun ca cb im hp hrun him => ⟨s.thresholdCrossing p ca cb, rfl, State.thresholdCrossing_fe ca cb hp hrun him⟩, ?_,
    fun hr => ⟨State.planeCheck_of_none, fun d => State.planeCheck_of_diff⟩, ?_, ?_, ?_⟩
  · intro hr hrun hdue
    have hflags := (s.at_ beat).planeCheck_onlyFlags hr
    have hfe : ((s.at_ beat).planeCheck r).fe r = s.fe r := by rw [State.fe, hflags.pkg]; rfl
    have hsent : (((s.at_ beat).planeCheck r).sendVector r).fe r = _ := State.fe_onFe _ r _
    refine ⟨_, congrArg Host.Outcome.next (State.vectorRefresh_of_due (s := s.at_ beat) hr hrun hdue), ?_, ?_, fun l => ?_⟩
    · rw [hsent, hfe]
    · rw [hsent, hflags.pkg]
      rfl
    · rw [State.sendVector_lane, hfe, hflags.keeps (p := Lane.collects) (fun _ => rfl), hflags.keeps (p := Lane.vectorIn) (fun _ => rfl),
        hlane]
  · exact fun h => congrArg Host.Outcome.next (State.vectorRefresh_of_early (s := s.at_ beat) h)
  · exact fun l v h => congrArg Host.Outcome.next (State.literalVector_of_find (s := s.at_ beat) now (by rw [hlane]; exact h))
  · intro l v h
    have heq := State.vectorTimeout_of_vector (s := s.at_ beat) (l := l) (r := r) now (by rw [hlane]; exact h)
    exact ⟨fun hdue => congrArg Host.Outcome.next (heq.trans (if_pos hdue)),
      fun hearly => congrArg Host.Outcome.next (heq.trans (if_neg (Nat.not_le.2 hearly)))⟩

end Sys2Proof.Machine
end

section
/-! SUPPORT. Inhibit messages between the lanes and the front-end dies (R228, R229, Table 06-8). -/

namespace Sys2Proof.Machine

/-! ### What a lane sends -/

/-- The step of one region: its terms are sent if they differ from those last sent. -/
def Lane.sendInhibit (source vector : Nat) (y : Lane) (n : Nat) : Lane :=
  if y.crossTerms n = tget 0 y.blk.hed.sent n then y
  else ({ y with inhibits := y.inhibits ++ [Inhibit.mk n source vector (y.crossTerms n)] }).onHed
    (fun h => { h with sent := tput 0 h.sent n (y.crossTerms n), xmsg := h.xmsg + 1 })

theorem Lane.sendInhibits_of_open {x : Lane} (source vector : Nat) (h : x.blk.lane.gatesClosed = false) :
    x.sendInhibits source vector = (List.range 8).foldl (Lane.sendInhibit source vector) x :=
  if_neg (by simp [h])

theorem Lane.crossTerms_sendInhibit (source vector : Nat) (y : Lane) (n m : Nat) :
    (y.sendInhibit source vector n).crossTerms m = y.crossTerms m := by
  unfold Lane.sendInhibit
  split <;> rfl

theorem Lane.sent_sendInhibit (source vector : Nat) (y : Lane) (n m : Nat) :
    tget 0 (y.sendInhibit source vector n).blk.hed.sent m = if m = n then y.crossTerms n else tget 0 y.blk.hed.sent m := by
  unfold Lane.sendInhibit
  generalize y.crossTerms n = c
  split
  · next h =>
    split
    · next hm => rw [hm, h]
    · rfl
  · show tget 0 (tput 0 y.blk.hed.sent n c) m = _
    rw [tget_tput]

theorem Lane.inhibits_sendInhibit (source vector : Nat) (y : Lane) (n : Nat) : (y.sendInhibit source vector n).inhibits =
    y.inhibits ++ if y.crossTerms n = tget 0 y.blk.hed.sent n then [] else [Inhibit.mk n source vector (y.crossTerms n)] := by
  unfold Lane.sendInhibit
  split
  · exact (List.append_nil _).symm
  · rfl

/-- Over distinct regions: each region's terms stand as sent, and the messages are those of the regions whose terms had changed. -/
theorem Lane.sendInhibits_foldl (source vector : Nat) {ns : List Nat} (hns : ns.Nodup) (x : Lane) :
    (∀ m, tget 0 (ns.foldl (Lane.sendInhibit source vector) x).blk.hed.sent m =
      if m ∈ ns then x.crossTerms m else tget 0 x.blk.hed.sent m) ∧
    (ns.foldl (Lane.sendInhibit source vector) x).inhibits = x.inhibits ++
      (ns.filter (fun n => decide (x.crossTerms n ≠ tget 0 x.blk.hed.sent n))).map
        (fun n => Inhibit.mk n source vector (x.crossTerms n)) := by
  induction ns generalizing x with
  | nil => exact ⟨fun _ => rfl, (List.append_nil _).symm⟩
  | cons n ns ih =>
    obtain ⟨hn, hrest⟩ := List.nodup_cons.1 hns
    obtain ⟨hsent, hinh⟩ := ih hrest (x.sendInhibit source vector n)
    have hsame : ∀ m ∈ ns, tget 0 (x.sendInhibit source vector n).blk.hed.sent m = tget 0 x.blk.hed.sent m := fun m hm =>
      (Lane.sent_sendInhibit ..).trans (if_neg (by rintro rfl; exact hn hm))
    have hfilter : ns.filter (fun m => decide ((x.sendInhibit source vector n).crossTerms m ≠
        tget 0 (x.sendInhibit source vector n).blk.hed.sent m)) = ns.filter (fun m => decide (x.crossTerms m ≠ tget 0 x.blk.hed.sent m)) :=
      List.filter_congr (fun m hm => by rw [Lane.crossTerms_sendInhibit, hsame m hm])
    refine ⟨fun m => ?_, ?_⟩
    · rw [List.foldl_cons, hsent, Lane.crossTerms_sendInhibit, Lane.sent_sendInhibit]
      by_cases hm : m = n
      · subst hm
        simp [hn]
      · simp [hm]
    · rw [List.foldl_cons, hinh, hfilter, Lane.inhibits_sendInhibit, List.append_assoc]
      simp only [Lane.crossTerms_sendInhibit, List.filter_cons]
      by_cases h : x.crossTerms n = tget 0 x.blk.hed.sent n
      · have hd : decide (x.crossTerms n ≠ tget 0 x.blk.hed.sent n) = false := decide_eq_false (not_not.2 h)
        rw [if_pos h, hd, if_neg Bool.false_ne_true, List.nil_append]
      · have hd : decide (x.crossTerms n ≠ tget 0 x.blk.hed.sent n) = true := decide_eq_true h
        rw [if_neg h, hd, if_pos rfl]
        rfl

/-- A lane's messages say the terms of every region, and go to those whose terms had changed. -/
theorem Lane.sendInhibits_sends {x : Lane} (source vector : Nat) (h : x.blk.lane.gatesClosed = false) {n : Nat} (hn : n < 8) :
    tget 0 (x.sendInhibits source vector).blk.hed.sent n = x.crossTerms n ∧
      ((∃ m ∈ (x.sendInhibits source vector).inhibits.drop x.inhibits.length, m.region = n ∧ m.cross = x.crossTerms n) ↔
        x.crossTerms n ≠ tget 0 x.blk.hed.sent n) := by
  obtain ⟨hsent, hinh⟩ := Lane.sendInhibits_foldl source vector (List.nodup_range (n := 8)) x
  rw [Lane.sendInhibits_of_open source vector h]
  refine ⟨(hsent n).trans (if_pos (List.mem_range.2 hn)), ?_⟩
  rw [hinh, List.drop_left]
  constructor
  · rintro ⟨m, hm, hregion, -⟩
    obtain ⟨k, hk, rfl⟩ := List.mem_map.1 hm
    obtain rfl : k = n := hregion
    simpa using (List.mem_filter.1 hk).2
  · intro hne
    exact ⟨_, List.mem_map.2 ⟨n, List.mem_filter.2 ⟨List.mem_range.2 hn, by simpa using hne⟩, rfl⟩, rfl, rfl⟩

/-! ### What the die does with a message -/

/-- The die has the message's terms and applies them if they are the active lane's. -/
def State.takeInhibit (s : State) (l : LaneId) (r : Nat) (m : Inhibit) : State :=
  (s.onLane l (fun x => { x with inhibits := x.inhibits.erase m })).onFe r (fun f => f.putCross l m.cross (s.inhibitsFrom l))

theorem FrontEnd.putCross_fields (f : FrontEnd) (l k : LaneId) (c : BitVec 64) (use : Bool) :
    (f.putCross l c use).cross = (if use then c else f.cross) ∧ (f.putCross l c use).inhOf k = f.inhOf k ∧
      (f.putCross l c use).lastCross = f.lastCross := by
  cases l <;> cases k <;> cases use <;> exact ⟨rfl, rfl, rfl⟩

theorem FrontEnd.setInh_fields (f : FrontEnd) (l : LaneId) (q : List Inhibit) :
    (f.setInh l q).cross = f.cross ∧ (f.setInh l q).inhOf l = q ∧ (f.setInh l q).lastCross = f.lastCross := by
  cases l <;> exact ⟨rfl, rfl, rfl⟩

theorem FrontEnd.differTerms_fields (f : FrontEnd) (c : BitVec 64) (now : Nat) (l : LaneId) :
    (f.differTerms c now).cross = f.cross ∧ (f.differTerms c now).inhOf l = f.inhOf l ∧ (f.differTerms c now).lastCross = c ∧
      (f.differTerms c now).disagreeCross = c &&& f.lastCross := by
  cases l <;> exact ⟨rfl, rfl, rfl, rfl⟩

/-- A pair of messages that is found: the mate leaves the die, and terms that differ are noted. -/
def State.pairInhibits (s : State) (l : LaneId) (r : Nat) (m q : Inhibit) : State :=
  let s1 := s.onFe r (fun f => f.setInh l.other ((f.inhOf l.other).erase q))
  if !(s.a.inService && s.b.inService) then s1
  else
    let s2 := s1.onFe r (fun f => f.differTerms (q.cross ^^^ m.cross) s.pkg.beat)
    if q.cross = m.cross then s2 else s2.countDisagree.renewCause (bitRegion r 6)

theorem State.inService_takeInhibit (s : State) (l : LaneId) (r : Nat) (m : Inhibit) :
    ((s.takeInhibit l r m).a.inService && (s.takeInhibit l r m).b.inService) = (s.a.inService && s.b.inService) := by
  cases l <;> rfl

theorem State.inhibitMessage_of_mate {s : State} {l : LaneId} {r : Nat} {m q : Inhibit}
    (hm : (s.lane l).inhibits.find? (fun m => m.region = r) = some m)
    (hq : ((s.fe r).inhOf l.other).find? (fun q => q.source = m.source && q.vector = m.vector) = some q) :
    s.inhibitMessage l r = (s.takeInhibit l r m).pairInhibits l r m q := by
  have hinh : ((s.takeInhibit l r m).fe r).inhOf l.other = (s.fe r).inhOf l.other := by
    rw [State.takeInhibit, State.fe_onFe, (FrontEnd.putCross_fields ..).2.1, State.fe_onLane]
  have hbeat : (s.takeInhibit l r m).pkg.beat = s.pkg.beat := by cases l <;> rfl
  unfold State.pairInhibits
  rw [State.inService_takeInhibit, hbeat]
  unfold State.inhibitMessage
  simp only [hm]
  change (match ((s.takeInhibit l r m).fe r).inhOf l.other |>.find? (fun q => q.source = m.source && q.vector = m.vector) with
    | none => _ | some q => _) = _
  rw [hinh, hq]
  rfl

theorem State.inhibitMessage_of_first {s : State} {l : LaneId} {r : Nat} {m : Inhibit}
    (hm : (s.lane l).inhibits.find? (fun m => m.region = r) = some m)
    (hq : ((s.fe r).inhOf l.other).find? (fun q => q.source = m.source && q.vector = m.vector) = none) :
    s.inhibitMessage l r = (s.takeInhibit l r m).onFe r (fun f => f.setInh l ((f.inhOf l ++ [m]).drop ((f.inhOf l).length - 15))) := by
  have hinh : ((s.takeInhibit l r m).fe r).inhOf l.other = (s.fe r).inhOf l.other := by
    rw [State.takeInhibit, State.fe_onFe, (FrontEnd.putCross_fields ..).2.1, State.fe_onLane]
  unfold State.inhibitMessage
  simp only [hm]
  change (match ((s.takeInhibit l r m).fe r).inhOf l.other |>.find? (fun q => q.source = m.source && q.vector = m.vector) with
    | none => _ | some q => _) = _
  rw [hinh, hq]
  rfl

theorem State.countDisagree_lane (s : State) (b : Nat) (k : LaneId) :
    ((s.countDisagree.renewCause b).lane k).inhibits = (s.lane k).inhibits ∧
      ((s.countDisagree.renewCause b).lane k).blk.lane.outDisagree = (s.lane k).blk.lane.outDisagree + 1 := by
  have hinh : ∀ x : Lane, (if x.hasBit b then x.onFlt (fun k => { k with cause := insSorted b k.cause }) else x).inhibits = x.inhibits := by
    intro x
    split <;> rfl
  cases k <;> exact ⟨hinh _, congrArg LaneBlk.outDisagree (Lane.laneBlk_renewed ..)⟩

/-- What a pair of messages leaves. -/
theorem State.pairInhibits_leaves (s : State) (l : LaneId) (r : Nat) (m q : Inhibit) :
    (∀ k, ((s.pairInhibits l r m q).lane k).inhibits = (s.lane k).inhibits) ∧
    ((s.pairInhibits l r m q).fe r).cross = (s.fe r).cross ∧
    ((s.pairInhibits l r m q).fe r).inhOf l.other = ((s.fe r).inhOf l.other).erase q ∧
    ((s.a.inService && s.b.inService) = true → ((s.pairInhibits l r m q).fe r).lastCross = q.cross ^^^ m.cross ∧
      ((s.pairInhibits l r m q).fe r).disagreeCross = (q.cross ^^^ m.cross) &&& (s.fe r).lastCross) ∧
    ∀ k, ((s.pairInhibits l r m q).lane k).blk.lane.outDisagree = (s.lane k).blk.lane.outDisagree +
      (if q.cross ≠ m.cross ∧ (s.a.inService && s.b.inService) = true then 1 else 0) := by
  unfold State.pairInhibits
  extract_lets s1 s2
  obtain ⟨hcross1, hinh1, hlast1⟩ := FrontEnd.setInh_fields (s.fe r) l.other (((s.fe r).inhOf l.other).erase q)
  have hfe1 : s1.fe r = _ := State.fe_onFe s r _
  have hlane1 : ∀ k, s1.lane k = s.lane k := State.lane_onFe s r _
  by_cases hboth : (s.a.inService && s.b.inService) = true
  · rw [if_neg (by simp [hboth])]
    obtain ⟨hcross2, hinh2, hlast2, hdis2⟩ := FrontEnd.differTerms_fields (s1.fe r) (q.cross ^^^ m.cross) s.pkg.beat l.other
    have hfe2 : s2.fe r = _ := State.fe_onFe s1 r _
    have hlane2 : ∀ k, s2.lane k = s.lane k := fun k => (State.lane_onFe s1 r _ k).trans (hlane1 k)
    have hdie : ∀ t : State, t.fe r = s2.fe r → (t.fe r).cross = (s.fe r).cross ∧
        (t.fe r).inhOf l.other = ((s.fe r).inhOf l.other).erase q ∧ (t.fe r).lastCross = q.cross ^^^ m.cross ∧
        (t.fe r).disagreeCross = (q.cross ^^^ m.cross) &&& (s.fe r).lastCross := by
      intro t ht
      rw [ht, hfe2, hcross2, hinh2, hlast2, hdis2, hfe1]
      exact ⟨hcross1, hinh1, rfl, by rw [hlast1]⟩
    by_cases heq : q.cross = m.cross
    · rw [if_pos heq]
      obtain ⟨hc, hi, hl, hd⟩ := hdie s2 rfl
      exact ⟨fun k => by rw [hlane2], hc, hi, fun _ => ⟨hl, hd⟩, fun k => by simp [hlane2, heq]⟩
    · rw [if_neg heq]
      obtain ⟨hc, hi, hl, hd⟩ := hdie (s2.countDisagree.renewCause (bitRegion r 6)) rfl
      refine ⟨fun k => ?_, hc, hi, fun _ => ⟨hl, hd⟩, fun k => ?_⟩
      · rw [(s2.countDisagree_lane _ k).1, hlane2]
      · rw [(s2.countDisagree_lane _ k).2, hlane2, if_pos ⟨heq, hboth⟩]
  · rw [if_pos (by rw [Bool.eq_false_iff.2 hboth]; rfl), hfe1]
    exact ⟨fun k => by rw [hlane1], hcross1, hinh1, fun h => absurd h hboth, fun k => by simp [hlane1, hboth]⟩

theorem State.lane_takeInhibit (s : State) (l : LaneId) (r : Nat) (m : Inhibit) :
    ((s.takeInhibit l r m).lane l).inhibits = (s.lane l).inhibits.erase m ∧
      ∀ k, ((s.takeInhibit l r m).lane k).blk = (s.lane k).blk := by
  refine ⟨?_, fun k => ?_⟩
  · rw [State.takeInhibit, State.lane_onFe, State.lane_onLane]
  · cases l <;> cases k <;> rfl

theorem State.fe_takeInhibit (s : State) (l : LaneId) (r : Nat) (m : Inhibit) :
    (s.takeInhibit l r m).fe r = (s.fe r).putCross l m.cross (s.inhibitsFrom l) := by
  rw [State.takeInhibit, State.fe_onFe, State.fe_onLane]

/-- The lane whose messages a die applies: the active lane while it is alive, else the other. -/
theorem State.inhibitsFrom_iff {s : State} {k l : LaneId} (hk : s.active = some k) :
    s.inhibitsFrom l = true ↔
      ((s.lane k).faultLine = false ∧ (s.lane k).blk.lane.heartbeat = true ∧ s.pkg.beat < (s.lane k).blk.lane.hbBeat + 2000 ↔ k = l) := by
  simp only [State.inhibitsFrom, State.activeSuspect, hk]
  by_cases hfault : (s.lane k).faultLine = true <;> by_cases hbeat : (s.lane k).blk.lane.heartbeat = true <;>
    by_cases hlate : s.pkg.beat < (s.lane k).blk.lane.hbBeat + 2000 <;> simp [hfault, hbeat, hlate]

theorem inhibitMessagesComplete : Claims.InhibitMessagesComplete := by
  refine ⟨fun x r v => ⟨fun h => if_pos h, fun h n hn => Lane.sendInhibits_sends r v h hn⟩, fun s l r m hm => ?_⟩
  have hvec := (s.inhibitMessage l r).literalsMoved_onlyVectors r
  obtain ⟨hinh, hblk⟩ := s.lane_takeInhibit l r m
  obtain ⟨hput, hputInh, hputLast⟩ := FrontEnd.putCross_fields (s.fe r) l l.other m.cross (s.inhibitsFrom l)
  have hleft : ((s.inhibitMessage l r).lane l).inhibits = (s.lane l).inhibits.erase m ∧
      ((s.inhibitMessage l r).fe r).cross = if s.inhibitsFrom l then m.cross else (s.fe r).cross := by
    cases hq : ((s.fe r).inhOf l.other).find? (fun q => q.source = m.source && q.vector = m.vector) with
    | none =>
      rw [State.inhibitMessage_of_first hm hq, State.lane_onFe, State.fe_onFe, (FrontEnd.setInh_fields ..).1, State.fe_takeInhibit]
      exact ⟨hinh, hput⟩
    | some q =>
      obtain ⟨hlanes, hcross, -⟩ := (s.takeInhibit l r m).pairInhibits_leaves l r m q
      rw [State.inhibitMessage_of_mate hm hq, hlanes, hcross, State.fe_takeInhibit]
      exact ⟨hinh, hput⟩
  have hcross : (((s.inhibitMessage l r).literalsMoved r).fe r).cross = if s.inhibitsFrom l then m.cross else (s.fe r).cross :=
    (State.fe_literalsMoved (p := FrontEnd.cross) (fun _ => rfl) _ r r).trans hleft.2
  refine ⟨(s.inhibitMessage l r).literalsMoved r, rfl, (hvec.keeps (p := Lane.inhibits) (fun _ _ => rfl) l).trans hleft.1,
    fun k hk => ?_, fun q hq => ?_⟩
  · refine ⟨fun h => ?_, fun h => ?_⟩
    · have hfrom : s.inhibitsFrom l = true := (State.inhibitsFrom_iff hk).2 (by
        rcases h with ⟨ha, hkl⟩ | ⟨ha, hkl⟩
        · exact ⟨fun _ => hkl, fun _ => ha⟩
        · exact ⟨fun h => absurd h ha, fun h => absurd (h.symm.trans hkl) (by cases l <;> decide)⟩)
      rw [hcross, if_pos hfrom]
    · have hfrom : ¬ s.inhibitsFrom l = true := fun hfrom => by
        have hiff := (State.inhibitsFrom_iff hk).1 hfrom
        rcases h with ⟨ha, hkl⟩ | ⟨ha, hkl⟩
        · exact absurd ((hiff.1 ha).symm.trans hkl) (by cases l <;> decide)
        · exact ha (hiff.2 hkl)
      rw [hcross, if_neg hfrom]
  · obtain ⟨-, -, hmates, hterms, hcount⟩ := (s.takeInhibit l r m).pairInhibits_leaves l r m q
    rw [State.inService_takeInhibit] at hterms hcount
    rw [← State.inhibitMessage_of_mate hm hq] at hmates hterms hcount
    rw [State.fe_takeInhibit] at hmates hterms
    refine ⟨?_, fun ha hb => ?_, fun k => ?_⟩
    · refine (State.fe_literalsMoved (p := fun f => f.inhOf l.other) (fun f => by cases l <;> rfl) _ r r).trans ?_
      rw [hmates, hputInh]
    · obtain ⟨hlast, hdis⟩ := hterms (by rw [ha, hb]; rfl)
      refine ⟨(State.fe_literalsMoved (p := FrontEnd.lastCross) (fun _ => rfl) _ r r).trans hlast, ?_⟩
      rw [State.fe_literalsMoved (p := FrontEnd.disagreeCross) (fun _ => rfl), hdis, hputLast]
    · rw [hvec.keeps (p := fun x => x.blk.lane.outDisagree) (fun _ _ => rfl), hcount, hblk]
      simp only [Bool.and_eq_true]

/-- Settles O44: each row from its guard; one disagreement per differing pair of messages is the choice of log 123. -/
theorem literalAndInhibitRowsComplete : Obligations.LiteralAndInhibitRowsComplete :=
  ⟨literalRowsComplete, inhibitMessagesComplete⟩

end Sys2Proof.Machine
end

section
/-! SUPPORT. The heddle commit (Table 06-12) and the CRC checks (R230 to R235). -/

namespace Sys2Proof.Machine

/-! ### What an answered command leaves of the interlocks -/

/-- A lane's heddle block, and the front-end dies. -/
def State.interlocks (s : State) (l : LaneId) : HedBlk × Tab FrontEnd := ((s.lane l).blk.hed, s.pkg.rfe)

theorem Lane.hed_onPort (x : Lane) (n : Nat) (f : PortSt → PortSt) : (x.onPort n f).blk.hed = x.blk.hed := by
  unfold Lane.onPort
  split <;> rfl

theorem Lane.hed_postTx (x : Lane) (ring beat : Nat) (dst : Source) (sport : Nat) (bs : List Byte) :
    (x.postTx ring beat dst sport bs).blk.hed = x.blk.hed := by
  have hframe : ∀ room, (x.postFrame room ring beat dst sport bs).blk.hed = x.blk.hed := by
    intro room
    unfold Lane.postFrame
    dsimp only
    split
    · rfl
    · split
      · rfl
      · exact Lane.hed_onPort ..
  unfold Lane.postTx
  dsimp only
  split
  · rfl
  · split
    · exact hframe _
    · exact (Lane.hed_onPort ..).trans (hframe _)

theorem State.interlocks_sendPacket (s : State) (l : LaneId) (via : Via) (dst : Source) (b : List Byte) :
    (s.sendPacket l via dst b).interlocks l = s.interlocks l := by
  unfold State.sendPacket
  split
  · exact Prod.ext (by rw [State.interlocks, State.lane_onLane]; exact Lane.hed_postTx ..) (by cases l <;> rfl)
  · split
    · exact Prod.ext (by rw [State.interlocks, State.lane_onPkg]; rfl) rfl
    · rfl

theorem State.interlocks_replyWith (s : State) (l : LaneId) (key : Option (List Byte)) (h : Hdr) (opcode : Nat) (st : Status)
    (ps : List Byte) (e : Word) : (s.replyWith l key h opcode st ps e).interlocks l = s.interlocks l := by
  unfold State.replyWith
  split
  · refine (State.interlocks_sendPacket ..).trans (Prod.ext ?_ (by cases l <;> rfl))
    rw [State.interlocks, State.lane_onLane]
    rfl
  · exact State.interlocks_sendPacket ..

theorem State.interlocks_finish (s : State) (l : LaneId) (o : Outstanding) (st : Status) (ps : List Byte) :
    (s.finish l o st ps).interlocks l = s.interlocks l := by
  unfold State.finish
  refine (State.interlocks_replyWith ..).trans (Prod.ext ?_ (by cases l <;> rfl))
  rw [State.interlocks, State.lane_setLane]
  dsimp only
  split
  · exact foldl_keeps (p := fun x : Lane => x.blk.hed) (by intros; rfl) _ _
  · rfl

theorem State.interlocks_finishAll (s : State) (l : LaneId) (why : Waiting) (st : Status) (ps : List Byte) :
    (s.finishAll l why st ps).interlocks l = s.interlocks l :=
  foldl_keeps (p := fun t : State => t.interlocks l) (fun t o => t.interlocks_finish l o st ps) _ s

theorem lookup_odel_same {α : Type} (t : Tab α) (k : Nat) : (odel t k).lookup k = none := by
  simp only [odel, List.lookup_eq_none_iff, List.mem_filter, decide_eq_true_eq]
  exact fun e h => bne_iff_ne.2 (Ne.symm h.2)

/-- The end of a commit takes it out of the lane, and leaves the rest of the lane's heddle block and the dies. -/
theorem State.interlocks_endCommit (s : State) (l : LaneId) (r : Nat) (st : Status) (ps : List Byte) :
    (s.endCommit l r st ps).interlocks l = ({ (s.lane l).blk.hed with commit := odel (s.lane l).blk.hed.commit r }, s.pkg.rfe) := by
  refine (State.interlocks_finishAll ..).trans (Prod.ext ?_ (by cases l <;> rfl))
  rw [State.interlocks, State.lane_onLane]
  rfl

theorem State.fe_endCommits (s : State) (r : Nat) (st : Status) (q : Nat) : (s.endCommits r st).fe q = s.fe q := by
  have hone : ∀ (t : State) (k : LaneId), (if (t.lane k).committing r then t.endCommit k r st [] else t).pkg.rfe = t.pkg.rfe := by
    intro t k
    split
    · exact congrArg Prod.snd (t.interlocks_endCommit k r st [])
    · rfl
  exact congrArg (fun t : Tab FrontEnd => tget {} t q) ((hone _ .b).trans (hone s .a))

/-! ### What inhibit messages leave of the heddle block -/

/-- The heddle block without what a lane notes of the inhibit messages it sends. -/
def Lane.heddle (x : Lane) : HedBlk := { x.blk.hed with sent := [], xmsg := 0 }

theorem Lane.heddle_sendInhibits (x : Lane) (source vector : Nat) : (x.sendInhibits source vector).heddle = x.heddle := by
  unfold Lane.sendInhibits
  split
  · rfl
  · refine foldl_keeps (p := Lane.heddle) (fun y n => ?_) _ x
    dsimp only
    generalize y.crossTerms n = c
    split <;> rfl

theorem State.heddle_switchInhibits (s : State) (r : Nat) (k : LaneId) : ((s.switchInhibits r).lane k).heddle = (s.lane k).heddle := by
  cases k <;> exact Lane.heddle_sendInhibits ..

/-! ### The steps of a commit -/

section
variable {s : State} {l : LaneId} {r : Nat} {c : HedCommit}

theorem State.heddlePersist_of_write (hc : (s.lane l).blk.hed.commit.lookup r = some c) (hstep : c.step = 2)
    (hhalt : s.pkg.halted = false) (hwarn : (s.lane l).blk.pwr.warn = false) (hother : (s.lane l.other).blk.hed.commit.lookup r = none) :
    s.heddlePersist l r =
      (let t := s.onLane l (fun x => (x.onHed (fun h => { h with commit := oset h.commit r { c with step := 3 } })).onFlash
        (fun f => { f with heddle := tput [] f.heddle r (putSpare (tget [] f.heddle r) c.image) }))
      if s.active = some l then t.onFe r (fun f => { f with shadow := some c.image }) else t) := by
  have hcompare : s.heddleCompare l r = s := by simp [State.heddleCompare, hc, hstep]
  unfold State.heddlePersist
  rw [hcompare]
  dsimp only
  rw [hc]
  dsimp only
  rw [if_neg (not_not.2 hstep), if_neg (by rw [hhalt]; decide), if_neg (by rw [hwarn]; decide)]
  split
  · next d hd =>
    refine absurd (hd.symm.trans ?_) (Option.some_ne_none d)
    split
    · rw [State.lane_onFe, State.lane_onLane_other, hother]
    · rw [State.lane_onLane_other, hother]
  · rfl

theorem FrontEnd.startComparators_fields (f : FrontEnd) :
    f.startComparators.image = f.image ∧ f.startComparators.old = f.old ∧ f.startComparators.shadow = f.shadow := by
  unfold FrontEnd.startComparators
  split <;> exact ⟨rfl, rfl, rfl⟩

/-- A lane of the commit `c` runs its image; what it ran before stays in the OR for the overlap. -/
def Lane.switched (x : Lane) (r : Nat) (c : HedCommit) : Lane :=
  x.onHed (fun h => { h with
    commit := oset h.commit r { c with step := 5 }
    old := match h.image.lookup r with | some o => oset h.old r o | none => odel h.old r
    image := oset h.image r c.image
    crc := tput 0 h.crc r c.image.crc })

/-- The switch of a region: the die and every lane that makes the commit run the new image. -/
theorem State.heddleSwitch_switches (im : HedImage) (hc : (s.lane l).blk.hed.commit.lookup r = some c) :
    ((s.heddleSwitch r im).fe r).image = some im ∧ ((s.heddleSwitch r im).fe r).old = (s.fe r).image ∧
      ((s.heddleSwitch r im).fe r).shadow = none ∧ ((s.heddleSwitch r im).lane l).blk.hed.image.lookup r = some c.image ∧
      tget 0 ((s.heddleSwitch r im).lane l).blk.hed.crc r = c.image.crc ∧
      ((s.heddleSwitch r im).lane l).blk.hed.commit.lookup r = some { c with step := 5 } := by
  unfold State.heddleSwitch
  extract_lets f s1
  generalize hg : s1.onFe r _ = s2
  have hlane : ((((s2.endCauseBoth (bitRegion r 4)).literalsMoved r).switchInhibits r).lane l).heddle = (f (s.lane l)).heddle := by
    rw [State.heddle_switchInhibits, (State.literalsMoved_onlyVectors _ r).keeps (p := Lane.heddle) (fun _ _ => rfl),
      State.lane_endCauseBoth, ← hg, State.lane_onFe]
    cases l <;> rfl
  have hf : f (s.lane l) = (s.lane l).switched r c := by
    simp only [f, hc]
    rfl
  have hdie : ∀ {β : Type} {p : FrontEnd → β}, (∀ f : FrontEnd, p f.unsent = p f) →
      p ((((s2.endCauseBoth (bitRegion r 4)).literalsMoved r).switchInhibits r).fe r) =
        p ({ s.fe r with old := (s.fe r).image, image := some im, shadow := none } : FrontEnd).startComparators := by
    intro β p hp
    refine (State.fe_literalsMoved hp _ r r).trans ?_
    show p (s2.fe r) = _
    rw [← hg, State.fe_onFe]
    rfl
  obtain ⟨himage, hold, hshadow⟩ :=
    FrontEnd.startComparators_fields { s.fe r with old := (s.fe r).image, image := some im, shadow := none }
  rw [hf] at hlane
  refine ⟨(hdie (p := FrontEnd.image) fun _ => rfl).trans himage, (hdie (p := FrontEnd.old) fun _ => rfl).trans hold,
    (hdie (p := FrontEnd.shadow) fun _ => rfl).trans hshadow, ?_, ?_, ?_⟩
  · exact (congrArg (fun h : HedBlk => h.image.lookup r) hlane).trans (lookup_oset_same ..)
  · exact (congrArg (fun h : HedBlk => tget 0 h.crc r) hlane).trans (tget_tput_same ..)
  · exact (congrArg (fun h : HedBlk => h.commit.lookup r) hlane).trans (lookup_oset_same ..)

theorem State.heddleVerify_of_equal (hc : (s.lane l).blk.hed.commit.lookup r = some c) (hstep : c.step = 3)
    (hhalt : s.pkg.halted = false) (hother : (s.lane l.other).blk.hed.commit.lookup r = none) :
    s.heddleVerify l r c.expected =
      (s.onLane l (fun x => x.onHed (fun h => { h with commit := oset h.commit r { c with step := 4 } }))).heddleSwitch r c.image := by
  have hverified : ∀ k, ((s.onLane l (fun x => x.onHed (fun h =>
      { h with commit := oset h.commit r { c with step := 4 } }))).lane k).commitVerified r = true := by
    intro k
    by_cases hk : k = l
    · subst hk
      rw [State.lane_onLane, Lane.commitVerified]
      simp [Lane.onHed]
    · rw [LaneId.eq_other hk, State.lane_onLane_other, Lane.commitVerified, hother]
  have ha := hverified .a
  have hb := hverified .b
  unfold State.heddleVerify
  rw [hc]
  dsimp only
  rw [if_neg (by simp [hstep]), if_neg (by rw [hhalt]; decide), if_neg (not_not.2 rfl)]
  exact if_pos (by rw [Bool.and_eq_true]; exact ⟨ha, hb⟩)

theorem State.heddleVerify_of_other {v : Word} (hc : (s.lane l).blk.hed.commit.lookup r = some c) (hstep : c.step = 3)
    (hhalt : s.pkg.halted = false) (hv : v ≠ c.expected) : s.heddleVerify l r v = s.endCommits r .lanesDisagree := by
  unfold State.heddleVerify
  rw [hc]
  dsimp only
  rw [if_neg (by simp [hstep]), if_neg (by rw [hhalt]; decide), if_pos hv]

theorem State.heddleOverlapEnd_ends (s : State) (r : Nat) : ((s.heddleOverlapEnd r).fe r).old = none ∧
    ((s.heddleOverlapEnd r).fe r).image = (s.fe r).image ∧ ∀ k, ((s.heddleOverlapEnd r).lane k).blk.hed.old.lookup r = none := by
  have hfe : (s.heddleOverlapEnd r).fe r = _ := State.fe_onFe
    { s with a := s.a.onHed (fun h => { h with old := odel h.old r }), b := s.b.onHed (fun h => { h with old := odel h.old r }) } r _
  refine ⟨by rw [hfe], by rw [hfe]; rfl, fun k => ?_⟩
  have hlane := State.heddle_switchInhibits (State.onFe
    { s with a := s.a.onHed (fun h => { h with old := odel h.old r }), b := s.b.onHed (fun h => { h with old := odel h.old r }) } r
    (fun g => { g with old := none })) r k
  refine (congrArg (fun h : HedBlk => h.old.lookup r) hlane).trans ?_
  cases k <;> exact lookup_odel_same ..

theorem State.heddleMark_of_due {now : Nat} (hc : (s.lane l).blk.hed.commit.lookup r = some c) (hstep : c.step = 5)
    (hwarn : (s.lane l).blk.pwr.warn = false) (hnow : now < c.beat + abandonBeats) :
    tget [] ((s.heddleMark l r now).lane l).flash.heddle r = markSpare (tget [] (s.lane l).flash.heddle r) ∧
      ((s.heddleMark l r now).lane l).blk.hed.commits = (s.lane l).blk.hed.commits + 1 ∧
      ((s.heddleMark l r now).lane l).committing r = false := by
  unfold State.heddleMark
  rw [hc]
  dsimp only
  rw [if_neg (not_not.2 hstep), if_neg (by rw [hwarn]; decide), if_neg (Nat.not_le.2 hnow)]
  generalize hs1 : s.onLane l _ = s1
  have hlane : s1.lane l = _ := (congrArg (fun t : State => t.lane l) hs1.symm).trans (State.lane_onLane ..)
  have hflash := congrArg (fun q : Tab Part × Tab Core × Flash × Mram × FltBlk × List RecRecord => q.2.2.1)
    (State.finishAll_onlyReplies (s1.onLane l (fun x => x.onHed (fun h => { h with commit := odel h.commit r }))) l (.heddle r) .ok
      (beBytes 4 c.image.crc.toNat)).lane
  have hhed := congrArg Prod.fst (s1.interlocks_endCommit l r .ok (beBytes 4 c.image.crc.toNat))
  refine ⟨?_, ?_, ?_⟩
  · refine (congrArg (fun f : Flash => tget [] f.heddle r) hflash).trans ?_
    show tget [] ((s1.onLane l _).lane l).flash.heddle r = _
    rw [State.lane_onLane, hlane]
    exact tget_tput_same ..
  · refine (congrArg HedBlk.commits hhed).trans ?_
    show (s1.lane l).blk.hed.commits = _
    rw [hlane]
    rfl
  · refine (congrArg (fun h : HedBlk => (h.commit.lookup r).isSome) hhed).trans ?_
    show ((odel _ r).lookup r).isSome = false
    rw [lookup_odel_same]
    rfl

theorem State.heddleMark_of_abandoned {now : Nat} (hc : (s.lane l).blk.hed.commit.lookup r = some c) (hstep : c.step = 5)
    (hwarn : (s.lane l).blk.pwr.warn = false) (hnow : c.beat + abandonBeats ≤ now) :
    s.heddleMark l r now = s.endCommit l r .busy [] := by
  unfold State.heddleMark
  rw [hc]
  dsimp only
  rw [if_neg (not_not.2 hstep), if_neg (by rw [hwarn]; decide), if_pos hnow]

end

theorem heddleCommitRowsComplete : Claims.HeddleCommitRowsComplete := by
  intro s l r beat c hc hhalt hwarn hother
  have hlane : ∀ k, (s.at_ beat).lane k = s.lane k := State.lane_at s beat
  refine ⟨fun hstep => ?_, fun hstep => ?_, fun v hstep hv => ⟨congrArg Host.Outcome.next (State.heddleVerify_of_other hc hstep hhalt hv),
    s.fe_endCommits r _ r⟩, ⟨s.heddleOverlapEnd r, rfl, s.heddleOverlapEnd_ends r⟩, fun hstep hnow => ?_, fun hstep hnow => ?_⟩
  · refine ⟨_, congrArg Host.Outcome.next (State.heddlePersist_of_write hc hstep hhalt hwarn hother), ?_⟩
    dsimp only
    have hwritten := State.lane_onLane s l (fun x => (x.onHed (fun h => { h with commit := oset h.commit r { c with step := 3 } })).onFlash
      (fun f => { f with heddle := tput [] f.heddle r (putSpare (tget [] f.heddle r) c.image) }))
    have hfe := State.fe_onLane s l (fun x => (x.onHed (fun h => { h with commit := oset h.commit r { c with step := 3 } })).onFlash
      (fun f => { f with heddle := tput [] f.heddle r (putSpare (tget [] f.heddle r) c.image) })) r
    split
    · rw [State.lane_onFe, State.fe_onFe, hwritten, hfe]
      exact ⟨lookup_oset_same .., tget_tput_same .., fun _ => rfl, rfl, rfl⟩
    · next hact =>
      rw [hwritten, hfe]
      exact ⟨lookup_oset_same .., tget_tput_same .., fun h => absurd h hact, rfl, rfl⟩
  · have hlane4 := State.lane_onLane s l (fun x => x.onHed (fun h => { h with commit := oset h.commit r { c with step := 4 } }))
    have hc4 : ((s.onLane l (fun x => x.onHed (fun h => { h with commit := oset h.commit r { c with step := 4 } }))).lane
        l).blk.hed.commit.lookup r = some { c with step := 4 } := by
      rw [hlane4]
      exact lookup_oset_same ..
    obtain ⟨himage, hold, hshadow, hnew, hcrc, hcommit⟩ := State.heddleSwitch_switches c.image hc4
    rw [State.fe_onLane] at hold
    exact ⟨_, congrArg Host.Outcome.next (State.heddleVerify_of_equal hc hstep hhalt hother), himage, hold, hshadow, hnew, hcrc, hcommit⟩
  · have hmark := State.heddleMark_of_due (s := s.at_ beat) (l := l) (r := r) (c := c) (now := max s.pkg.beat beat)
      (by rw [hlane]; exact hc) hstep (by rw [hlane]; exact hwarn) hnow
    rw [hlane] at hmark
    exact ⟨(s.at_ beat).heddleMark l r (max s.pkg.beat beat), rfl, hmark⟩
  · exact congrArg Host.Outcome.next (State.heddleMark_of_abandoned (s := s.at_ beat) (by rw [hlane]; exact hc) hstep
      (by rw [hlane]; exact hwarn) hnow)

/-! ### The CRC checks -/

/-- A lane that checked its CRC counts it. -/
def Lane.countCheck (x : Lane) : Lane := if x.inService then x.onHed (fun h => { h with checks := h.checks + 1 }) else x

theorem Lane.checks_countCheck (x : Lane) : x.countCheck.blk.hed.checks = x.blk.hed.checks + if x.inService then 1 else 0 := by
  unfold Lane.countCheck
  split
  · rfl
  · exact (BitVec.add_zero _).symm

/-- HED_CRC of a lane in service equals the CRCs that the die read back. -/
def Lane.crcGood (x : Lane) (r : Nat) (a b : Word) : Bool :=
  !x.inService || (tget 0 x.blk.hed.crc r = a && tget 0 x.blk.hed.crc r = b)

section
variable {s : State} {r : Nat} {a b : Word}

theorem State.crcCheck_of_good (hr : r < 8) (hrun : (s.fe r).running = true) (him : (s.fe r).image.isSome = true)
    (h : ∀ k, (s.lane k).crcGood r a b = true) :
    s.crcCheck r a b = ({ s with a := s.a.countCheck, b := s.b.countCheck } : State).endCauseBoth (bitRegion r 4) := by
  have ha : s.a.crcGood r a b = true := h .a
  have hb : s.b.crcGood r a b = true := h .b
  exact (if_pos (by simp [hr, hrun, him])).trans (if_pos (by rw [Bool.and_eq_true]; exact ⟨ha, hb⟩))

theorem State.crcCheck_of_bad {k : LaneId} (hr : r < 8) (hrun : (s.fe r).running = true) (him : (s.fe r).image.isSome = true)
    (h : (s.lane k).crcGood r a b = false) : s.crcCheck r a b = s.raiseBoth (bitRegion r 4) true := by
  have hboth : ¬ (s.a.crcGood r a b && s.b.crcGood r a b) = true := by
    cases k <;> simp_all [State.lane]
  exact (if_pos (by simp [hr, hrun, him])).trans (if_neg hboth)

end

theorem Lane.crcGood_of_equal {x : Lane} {r : Nat} {a b : Word}
    (h : x.inService = true → tget 0 x.blk.hed.crc r = a ∧ tget 0 x.blk.hed.crc r = b) : x.crcGood r a b = true := by
  by_cases hx : x.inService = true
  · obtain ⟨ha, hb⟩ := h hx
    rw [Lane.crcGood, decide_eq_true ha, decide_eq_true hb]
    exact Bool.or_true _
  · simp [Lane.crcGood, hx]

theorem Lane.crcGood_of_other {x : Lane} {r : Nat} {a b : Word} (hx : x.inService = true)
    (h : tget 0 x.blk.hed.crc r ≠ a ∨ tget 0 x.blk.hed.crc r ≠ b) : x.crcGood r a b = false := by
  rw [Lane.crcGood, hx]
  rcases h with ha | hb
  · rw [decide_eq_false ha]
    rfl
  · rw [decide_eq_false hb, Bool.and_false]
    rfl

theorem crcRowsComplete : Claims.CrcRowsComplete := by
  intro s l r beat a b hr
  have hlane : ∀ k, (s.at_ beat).lane k = s.lane k := State.lane_at s beat
  refine ⟨fun hrun him => ⟨fun h => ?_, fun k hk hne => ?_⟩, fun hx him => ⟨fun hne => ?_, fun heq => ?_⟩⟩
  · have heq := State.crcCheck_of_good hr hrun him (fun k => Lane.crcGood_of_equal (h k))
    have hvec := (s.crcCheck r a b).literalsMoved_onlyVectors r
    refine ⟨(s.crcCheck r a b).literalsMoved r, rfl, fun k => ⟨?_, ?_⟩⟩
    · rw [hvec.keeps (p := fun x => x.hasCause (bitRegion r 4)) (fun _ _ => rfl), heq, State.hasCause_endCauseBoth]
      simp
    · rw [hvec.keeps (p := fun x => x.blk.hed.checks) (fun _ _ => rfl), heq, State.lane_endCauseBoth]
      cases k <;> exact Lane.checks_countCheck _
  · exact congrArg (fun u : State => Host.Outcome.next (u.literalsMoved r))
      (State.crcCheck_of_bad hr hrun him (Lane.crcGood_of_other hk hne))
  · refine congrArg Host.Outcome.next (if_pos ?_)
    rw [hlane, hx, him, decide_eq_true hr, decide_eq_true hne]
    rfl
  · refine congrArg Host.Outcome.next (if_neg ?_)
    rw [hlane, decide_eq_false (not_not.2 heq), Bool.and_false]
    exact Bool.false_ne_true

/-- Settles O45: each step of a commit from its guard; that a region without a committed image is not compared is the choice of log 34,
and the statement asks for an image. -/
theorem heddleRowsComplete : Obligations.HeddleRowsComplete :=
  ⟨heddleCommitRowsComplete, crcRowsComplete⟩

end Sys2Proof.Machine
end

section
/-! SUPPORT. What the computation of a loop sample leaves of the groups and of the other lane (R244, R246). -/

namespace Sys2Proof.Machine

/-- From `s` to `t` lane `l` has kept its loop groups, and the other lane everything. -/
structure State.GroupsKept (l : LaneId) (s t : State) : Prop where
  groups : (t.lane l).blk.loop.groups = (s.lane l).blk.loop.groups
  other : t.lane l.other = s.lane l.other

theorem State.GroupsKept.refl (l : LaneId) (s : State) : State.GroupsKept l s s := ⟨rfl, rfl⟩

theorem State.GroupsKept.trans {l : LaneId} {s t u : State} (h : State.GroupsKept l s t) (k : State.GroupsKept l t u) :
    State.GroupsKept l s u := ⟨k.groups.trans h.groups, k.other.trans h.other⟩

theorem State.GroupsKept.onLane (l : LaneId) (s : State) {f : Lane → Lane} (hf : (f (s.lane l)).blk.loop.groups = (s.lane l).blk.loop.groups) :
    State.GroupsKept l s (s.onLane l f) :=
  ⟨by rw [State.lane_onLane, hf], State.lane_onLane_other ..⟩

/-! ### The pieces of a loop's sample -/

theorem Lane.groups_enter (x : Lane) (l : LaneId) (kind stream part : Nat) (body : EventBody) :
    (x.enter l kind stream part body).blk.loop.groups = x.blk.loop.groups := by
  have hkeeps : ∀ y : Lane, y.beyondEvents.blk.loop.groups = y.blk.loop.groups := fun _ => rfl
  rw [← hkeeps, Lane.beyondEvents_enter, hkeeps]

theorem Lane.groups_startFlash (x : Lane) (j : FlashJob) (now : Nat) : (x.startFlash j now).blk.loop.groups = x.blk.loop.groups := by
  unfold Lane.startFlash
  split <;> rfl

theorem Lane.groups_sendUpdate (x : Lane) (r now : Nat) : (x.sendUpdate r now).blk.loop.groups = x.blk.loop.groups := by
  unfold Lane.sendUpdate Lane.putUpdate
  split <;> rfl

theorem Lane.groups_changeLoop (x : Lane) (n : Nat) (c : LoopChange) : (x.changeLoop n c).blk.loop.groups = x.blk.loop.groups := by
  unfold Lane.changeLoop
  dsimp only
  cases c with
  | record =>
    dsimp only
    split <;> rfl
  | _ => rfl

theorem Lane.groups_applyNamed (x : Lane) (l : LaneId) (n : Nat) (m : SampleMsg) (now : Nat) :
    (x.applyNamed l n m now).blk.loop.groups = x.blk.loop.groups := by
  unfold Lane.applyNamed
  refine (foldl_keeps (p := fun z : Lane => z.blk.loop.groups) (fun z c => ?_) _ _).trans rfl
  dsimp only
  split
  · rw [Lane.groups_startFlash, Lane.groups_enter, Lane.groups_changeLoop]
  · exact Lane.groups_changeLoop ..

theorem Lane.groups_takeOutput (x : Lane) (n : Nat) : (x.takeOutput n).blk.loop.groups = x.blk.loop.groups := by
  unfold Lane.takeOutput
  dsimp only
  split <;> rfl

theorem Lane.groups_loopOff (x : Lane) (n now : Nat) : (x.loopOff n now).blk.loop.groups = x.blk.loop.groups := by
  unfold Lane.loopOff
  dsimp only
  split
  · exact Lane.groups_sendUpdate ..
  · rfl

theorem Lane.group_of_groups {x y : Lane} (h : x.blk.loop.groups = y.blk.loop.groups) (g : Nat) : x.group g = y.group g := by
  rw [Lane.group, h]
  rfl

theorem Lane.group_loopsOff (ns : List Nat) (x : Lane) (now g : Nat) :
    (ns.foldl (fun z n => z.loopOff n now) x).group g = x.group g :=
  Lane.group_of_groups (foldl_keeps (p := fun z : Lane => z.blk.loop.groups) (fun z n => z.groups_loopOff n now) ns x) g

/-- The bits of the loops are of class S or N, whatever the loop's number. -/
theorem bitClass_loop {b : Nat} (hb : 1408 ≤ b) : bitClass b ≠ 2 ∧ bitClass b ≠ 4 := by
  have hclass : bitClass b = if b ≤ 1919 then 3 else if b ≤ 2099 then 1 else 0 := by
    unfold bitClass
    repeat refine (if_neg (by omega)).trans ?_
    rfl
  rw [hclass]
  split
  · decide
  · split <;> decide

theorem State.flag_groupsKept (l : LaneId) (s : State) (b : Nat) (lasting : Bool) : State.GroupsKept l s (s.flag l b lasting) :=
  ⟨(s.flag_onlyFlags l b lasting).keeps (p := fun x => x.blk.loop.groups) (fun _ => rfl) l, State.lane_onLane_other ..⟩

/-- A loop's detection: its bit is raised, or its cause ends, or neither. -/
theorem State.loopBit_groupsKept (l : LaneId) (s : State) {b : Nat} (on off : Bool) (hb : 1408 ≤ b) :
    State.GroupsKept l s (if on then s.raise l b true else if off then s.onLane l (fun x => x.endCause b) else s) := by
  obtain ⟨hl, hg⟩ := bitClass_loop hb
  split
  · rw [State.raise_flag true hl hg]
    exact s.flag_groupsKept l b true
  · split
    · exact .onLane l s rfl
    · exact .refl l s

theorem State.computeLoop_groupsKept (s : State) (l : LaneId) (m : SampleMsg) (prev : Option (List Nat)) (n : Nat) :
    State.GroupsKept l s (s.computeLoop l m prev n) := by
  unfold State.computeLoop
  extract_lets before touched s0 i o r past base st s1 s2 s3 ev
  have h0 : State.GroupsKept l s s0 := .onLane l s ((Lane.groups_takeOutput ..).trans (Lane.groups_applyNamed ..))
  have h1 : State.GroupsKept l s0 s1 := .onLane l s0 (by dsimp only; split <;> rfl)
  have h2 : State.GroupsKept l s1 s2 := State.loopBit_groupsKept l s1 r.inOn r.inOff (by unfold bitLoopInput; omega)
  have h3 : State.GroupsKept l s2 s3 := State.loopBit_groupsKept l s2 r.plausOn r.plausOff (by unfold bitLoopPlaus; omega)
  have hev : ∀ y e, (ev y e).blk.loop.groups = y.blk.loop.groups := fun y e => Lane.groups_enter ..
  refine (((h0.trans h1).trans h2).trans h3).trans (.onLane l s3 ?_)
  have hy : (r.events.foldl ev (s3.lane l)).blk.loop.groups = (s3.lane l).blk.loop.groups :=
    foldl_keeps (p := fun y : Lane => y.blk.loop.groups) hev _ _
  have hy1 : ∀ save : Bool, (if save then ev ((r.events.foldl ev (s3.lane l)).startFlash (.pattern n) s.pkg.beat) (0x0B, (o.patLen : Int))
      else r.events.foldl ev (s3.lane l)).blk.loop.groups = (s3.lane l).blk.loop.groups := by
    intro save
    split
    · rw [hev, Lane.groups_startFlash, hy]
    · exact hy
  dsimp only
  split
  · exact (Lane.groups_sendUpdate ..).trans (hy1 r.save)
  · exact hy1 r.save

/-! ### A computed sample -/

/-- What a group keeps of its sample while the loops compute it. -/
def GroupSt.standing (o : GroupSt) : Nat × Nat × Option Bool := (o.sample, o.instant, o.judged)

theorem GroupSt.standing_applyChange (o : GroupSt) (c : LoopChange) : (o.applyChange c).standing = o.standing := by
  cases c <;> rfl

/-- The group of a computed sample awaits nothing, and its sample, its instant and its judgement stand. -/
theorem State.computeSample_computes (s : State) (l : LaneId) (m : SampleMsg) :
    (s.computeSample l m).lane l.other = s.lane l.other ∧
      (((s.computeSample l m).lane l).group m.group).awaiting = false ∧
      (((s.computeSample l m).lane l).group m.group).frames = some m.frames ∧
      (((s.computeSample l m).lane l).group m.group).standing = ((s.lane l).group m.group).standing := by
  unfold State.computeSample
  extract_lets g q s1 prev s2
  have hg : m.group = g := rfl
  rw [hg]
  have h1other : s1.lane l.other = s.lane l.other := State.lane_onLane_other ..
  have h1 : ((s1.lane l).group g).standing = ((s.lane l).group g).standing := by
    have hnamed : (((s.lane l).onGroup g (fun o => q.1.foldl GroupSt.applyChange { o with changes := q.2 })).group g).standing =
        ((s.lane l).group g).standing := by
      rw [Lane.group_onGroup]
      exact foldl_keeps GroupSt.standing_applyChange _ _
    rw [show s1.lane l = _ from State.lane_onLane ..]
    dsimp only
    split
    · rw [Lane.enterDelay, Lane.group_groupEvent, Lane.group_onGroup, Lane.group_load]
      exact hnamed
    · exact hnamed
  have h2 : State.GroupsKept l s1 s2 := by
    show State.GroupsKept l s1 (List.foldl _ s1 _)
    generalize (s1.lane l).groupLoops g = ns
    clear_value s1
    clear s2 h1 h1other
    induction ns generalizing s1 with
    | nil => exact .refl l s1
    | cons n ns ih => exact (s1.computeLoop_groupsKept l m prev n).trans (ih _)
  have hgroup : (s2.lane l).group g = (s1.lane l).group g := Lane.group_of_groups h2.groups g
  refine ⟨(State.lane_onLane_other ..).trans (h2.other.trans h1other), ?_⟩
  rw [State.lane_onLane]
  dsimp only
  rw [Lane.group_loopsOff, Lane.group_onGroup, hgroup]
  exact ⟨rfl, rfl, h1⟩

end Sys2Proof.Machine
end

section
/-! SUPPORT. The instants of the loop samples, and a lane that meets one late (R244, R246, R247, R283, R284). -/

namespace Sys2Proof.Machine

/-! ### A group meets the instant of a sample -/

/-- A group at the instant of sample `k`. -/
def GroupSt.meets (o : GroupSt) (k now : Nat) : GroupSt :=
  { o with sample := k, instant := now, awaiting := true, judged := none, complete := 0 }

/-- Both lanes meet the instant. -/
def State.meetBoth (s : State) (g k now : Nat) : State := (s.meetInstant .a g k now).meetInstant .b g k now

section
variable {s : State} {l : LaneId} {g : Nat} (k : Nat) {now : Nat}

theorem State.meetInstant_of_absent (hx : (s.lane l).inService = false) : s.meetInstant l g k now = s :=
  if_pos (by simp [hx])

theorem State.meetInstant_of_ready (hx : (s.lane l).inService = true) (ha : ((s.lane l).group g).awaiting = false)
    (hc : ((s.lane l).group g).complete ≤ now) :
    s.meetInstant l g k now = s.onLane l (fun y => y.onGroup g (fun o => o.meets k now)) := by
  refine (if_neg (by simp [hx])).trans ?_
  rw [if_neg (by simp [ha, hc])]
  rfl

theorem State.meetInstant_of_late (hx : (s.lane l).inService = true)
    (h : ((s.lane l).group g).awaiting = true ∨ now < ((s.lane l).group g).complete) :
    s.meetInstant l g k now = (s.raise l 170 true).onLane l (fun y => y.onGroup g (fun o => o.meets k now)) := by
  refine (if_neg (by simp [hx])).trans ?_
  rw [if_pos (by simpa using h)]
  rfl

theorem State.meetBoth_alone (hx : (s.lane l).inService = true) (hy : (s.lane l.other).inService = false)
    (ha : ((s.lane l).group g).awaiting = false) (hc : ((s.lane l).group g).complete ≤ now) :
    s.meetBoth g k now = s.onLane l (fun y => y.onGroup g (fun o => o.meets k now)) := by
  unfold State.meetBoth
  cases l with
  | a =>
    rw [State.meetInstant_of_ready k hx ha hc]
    exact State.meetInstant_of_absent k hy
  | b =>
    rw [State.meetInstant_of_absent (l := .a) k hy]
    exact State.meetInstant_of_ready k hx ha hc

theorem State.meetBoth_pair (hx : (s.lane l).inService = true) (hy : (s.lane l.other).inService = true)
    (ha : ((s.lane l).group g).awaiting = false) (hc : ((s.lane l).group g).complete ≤ now)
    (ha' : ((s.lane l.other).group g).awaiting = false) (hc' : ((s.lane l.other).group g).complete ≤ now) :
    s.meetBoth g k now = (s.onLane l (fun y => y.onGroup g (fun o => o.meets k now))).onLane l.other
      (fun y => y.onGroup g (fun o => o.meets k now)) := by
  unfold State.meetBoth
  cases l with
  | a =>
    rw [State.meetInstant_of_ready k hx ha hc]
    exact State.meetInstant_of_ready k hy ha' hc'
  | b =>
    rw [State.meetInstant_of_ready (l := .a) k hy ha' hc']
    exact State.meetInstant_of_ready (l := .b) k hx ha hc

/-! ### Bits that stay set -/

theorem State.hasBit_flag (b : Nat) (lasting : Bool) (i : LaneId) {c : Nat} (h : (s.lane i).hasBit c = true) :
    ((s.flag l b lasting).lane i).hasBit c = true := by
  by_cases hsame : c = b ∧ i = l
  · obtain ⟨rfl, rfl⟩ := hsame
    have hmem : c ∈ (s.lane i).blk.flt.sticky := by simpa [Lane.hasBit] using h
    rw [State.flag, State.lane_onLane]
    split
    · simp [Lane.hasBit, hmem]
    · exact h
  · rw [State.flag_hasBit_other s l i lasting (by tauto)]
    exact h

theorem Lane.hasBit_haltG (x : Lane) (o : Order) (dom : Domain) (now c : Nat) : (x.haltG o dom now).hasBit c = x.hasBit c := by
  have hfinal : ∀ y : Lane, (y.startFinal o dom now now).blk.flt = y.blk.flt := by
    intro y
    unfold Lane.startFinal
    split <;> rfl
  unfold Lane.haltG
  split
  · dsimp only
    split
    · rfl
    · unfold Lane.hasBit
      rw [hfinal]
      rfl
  · split <;> rfl

theorem State.hasBit_haltG (i : LaneId) (c : Nat) : (s.haltG.lane i).hasBit c = (s.lane i).hasBit c := by
  unfold State.haltG
  split
  · rfl
  · cases i <;> exact Lane.hasBit_haltG ..

theorem State.hasBit_send (m : Msg) (i : LaneId) (c : Nat) : ((s.send l m).lane i).hasBit c = (s.lane i).hasBit c := by
  cases l <;> cases i <;> rfl

theorem State.hasBit_onLane {f : Lane → Lane} (hf : ∀ x, (f x).blk.flt = x.blk.flt) (i : LaneId) (c : Nat) :
    ((s.onLane l f).lane i).hasBit c = (s.lane i).hasBit c := by
  have hbit : ∀ x, (f x).hasBit c = x.hasBit c := fun x => by rw [Lane.hasBit, hf]; rfl
  by_cases hi : i = l
  · rw [hi, State.lane_onLane, hbit]
  · rw [LaneId.eq_other hi, State.lane_onLane_other]

theorem State.hasBit_leaveService (b : Nat) (i : LaneId) {c : Nat} (h : (s.lane i).hasBit c = true) :
    ((s.leaveService l b).lane i).hasBit c = true := by
  unfold State.leaveService
  dsimp only
  split
  · split
    · rw [State.hasBit_onLane (by intro x; rfl), State.hasBit_send, State.cutFrames, State.lane_onPkg]
      exact h
    · rw [State.hasBit_haltG]
      exact h
  · split
    · split
      · rw [State.hasBit_haltG]
        exact h
      · have hfail : ∀ u : State, (u.lane i).hasBit c = true → ∀ b : Bool,
            ((if b then u.flag l.other 2089 false else u).lane i).hasBit c = true := by
          intro u hu b
          split
          · exact State.hasBit_flag 2089 false i hu
          · exact hu
        refine hfail _ ?_ _
        rw [State.hasBit_onLane (by intro x; rfl), State.hasBit_onLane (by intro x; rfl)]
        exact h
    · exact h

theorem State.hasBit_raise (b : Nat) (lasting : Bool) (i : LaneId) {c : Nat} (h : (s.lane i).hasBit c = true) :
    ((s.raise l b lasting).lane i).hasBit c = true := by
  have hflag := State.hasBit_flag (l := l) b lasting i h
  unfold State.raise
  dsimp only
  split
  · exact h
  · split
    · exact hflag
    · split
      · exact State.hasBit_leaveService b i hflag
      · split
        · rw [State.hasBit_haltG]
          exact hflag
        · exact hflag

/-- A detection of class L is set in its lane. -/
theorem State.raise_hasBit {b : Nat} (lasting : Bool) (hc : (s.lane l).collects = true) (hb : bitClass b = 2) :
    ((s.raise l b lasting).lane l).hasBit b = true := by
  have hflag := State.flag_hasBit s l lasting hc (b := b) (by rw [hb]; decide)
  unfold State.raise
  rw [if_neg (by simp [hc])]
  split
  · exact hflag
  · dsimp only
    exact State.hasBit_leaveService b l hflag

/-- While both lanes are in service a class L detection of one leaves the other as it was, but for the notice it receives. -/
theorem State.raise_other {β : Type} {p : Lane → β} (hp : ∀ (y : Lane) h m now, p (y.receive h m now) = p y) {b : Nat} (lasting : Bool)
    (hb : bitClass b = 2) (hx : (s.lane l).inService = true) (hy : (s.lane l.other).inService = true) :
    p ((s.raise l b lasting).lane l.other) = p (s.lane l.other) := by
  have hflag : (s.flag l b lasting).lane l.other = s.lane l.other := State.lane_onLane_other ..
  have hserves : ((s.flag l b lasting).lane l).inService = true := by
    rw [Lane.inService, (s.flag_keeps l l b lasting).2.2.1]
    exact hx
  unfold State.raise
  rw [if_neg (by simp [Lane.collects_of_inService hx])]
  split
  · rw [hflag]
  · dsimp only
    rw [State.leaveService_of_both b hserves (by rw [hflag]; exact hy), State.lane_onLane_other]
    rw [State.lane_send_other, hp, State.cutFrames, State.lane_onPkg, hflag]

/-! ### A lane that meets the instant before it is ready -/

theorem bitClass_lateSample : bitClass 170 = 2 := by decide

theorem State.meetInstant_hasBit (hx : (s.lane l).inService = true)
    (h : ((s.lane l).group g).awaiting = true ∨ now < ((s.lane l).group g).complete) :
    ((s.meetInstant l g k now).lane l).hasBit 170 = true := by
  rw [State.meetInstant_of_late k hx h, State.hasBit_onLane (by intro x; rfl)]
  exact State.raise_hasBit true (Lane.collects_of_inService hx) bitClass_lateSample

theorem State.hasBit_meetInstant (i : LaneId) {c : Nat} (h : (s.lane i).hasBit c = true) :
    ((s.meetInstant l g k now).lane i).hasBit c = true := by
  unfold State.meetInstant
  dsimp only
  split
  · exact h
  · rw [State.hasBit_onLane (by intro x; rfl)]
    split
    · exact State.hasBit_raise 170 true i h
    · exact h

/-- The partner of a lane that meets the instant is in service as before, with its group as it was. -/
theorem State.meetInstant_other {β : Type} {p : Lane → β} (hp : ∀ (y : Lane) h m now, p (y.receive h m now) = p y)
    (hx : (s.lane l).inService = true) (hy : (s.lane l.other).inService = true) :
    p ((s.meetInstant l g k now).lane l.other) = p (s.lane l.other) := by
  refine (congrArg (fun t : State => p (t.lane l.other)) (if_neg (by simp [hx]))).trans ?_
  rw [State.lane_onLane_other]
  split
  · exact State.raise_other hp true bitClass_lateSample hx hy
  · rfl

theorem State.meetBoth_hasBit (hx : (s.lane l).inService = true) (hy : (s.lane l.other).inService = true)
    (h : ((s.lane l.other).group g).awaiting = true ∨ now < ((s.lane l.other).group g).complete) :
    ((s.meetBoth g k now).lane l.other).hasBit 170 = true := by
  cases l with
  | a =>
    have hserves := State.meetInstant_other (g := g) (now := now) (p := Lane.inService) k (fun _ _ _ _ => rfl) hx hy
    have hgroup : ((s.meetInstant .a g k now).lane .b).group g = (s.lane .b).group g :=
      State.meetInstant_other (p := fun y => y.group g) k (fun _ _ _ _ => rfl) hx hy
    exact State.meetInstant_hasBit k (hserves.trans hy) (by rw [hgroup]; exact h)
  | b => exact State.hasBit_meetInstant k .a (State.meetInstant_hasBit (l := .a) k hy h)

end

end Sys2Proof.Machine
end

section
/-! SUPPORT. The rows of the loop engine: instants, messages and computations, judgements and outputs (R244 to R247, R279 to R284). -/

namespace Sys2Proof.Machine

/-! ### SAMPLE_INSTANT -/

section
variable {s : State} {l : LaneId} {g now : Nat}

/-- Lane `l` sends its message to a partner in service and computes the sample. -/
def State.sendSample (s : State) (l : LaneId) (m : SampleMsg) : State :=
  (if (s.lane l.other).inService then s.send l (.sample m) else s).computeSample l m

theorem State.sampleInstant_of_due (hact : s.active = some l) (hg : g < 8) (hx : (s.lane l).inService = true)
    (hdue : (s.lane l).sampleDue g now = true)
    (hfirst : ∀ h, h < 8 → (s.lane l).servedBefore h g = true → (s.lane l).sampleDue h now = false) :
    s.sampleInstant g now =
      (let t := s.meetBoth g (now / (100 * ((s.lane l).group g).period)) now
       let u := if ((s.lane l).group g).delayed then t.onLane l (fun y => y.writeOutputs g now) else t
       u.sendSample l (u.sampleMsg l g now)) := by
  have hall : (List.range 8).all (fun h => !((s.lane l).servedBefore h g && (s.lane l).sampleDue h now)) = true := by
    rw [List.all_eq_true]
    intro h hh
    by_cases hs : (s.lane l).servedBefore h g = true
    · rw [hfirst h (List.mem_range.1 hh) hs, Bool.and_false]
      rfl
    · rw [Bool.eq_false_iff.2 hs, Bool.false_and]
      rfl
  unfold State.sampleInstant
  rw [hact]
  exact if_pos (by rw [hx, hdue, hall, decide_eq_true hg]; rfl)

theorem State.sampleInstant_of_not_due (hact : s.active = some l) (h : (s.lane l).sampleDue g now = false) :
    s.sampleInstant g now = s := by
  unfold State.sampleInstant
  rw [hact]
  exact if_neg (by simp [h])

theorem State.sampleInstant_of_earlier {h : Nat} (hact : s.active = some l) (hh : h < 8) (hs : (s.lane l).servedBefore h g = true)
    (hdue : (s.lane l).sampleDue h now = true) : s.sampleInstant g now = s := by
  have hall : (List.range 8).all (fun h => !((s.lane l).servedBefore h g && (s.lane l).sampleDue h now)) = false :=
    List.all_eq_false.2 ⟨h, List.mem_range.2 hh, by rw [hs, hdue]; decide⟩
  unfold State.sampleInstant
  rw [hact]
  exact if_neg (by rw [hall, Bool.and_false]; decide)

theorem Lane.sampleDue_of_instant {x : Lane} (hlive : x.groupLive g = true) (hmod : now % (100 * (x.group g).period) = 0)
    (hne : (x.group g).instant ≠ now) : x.sampleDue g now = true := by
  simp [Lane.sampleDue, hlive, hmod, hne]

theorem Lane.sampleDue_of_idle {x : Lane} (h : ¬ (x.groupLive g = true ∧ now % (100 * (x.group g).period) = 0)) :
    x.sampleDue g now = false := by
  by_cases hlive : x.groupLive g = true
  · have hmod : ¬ now % (100 * (x.group g).period) = 0 := fun hmod => h ⟨hlive, hmod⟩
    simp [Lane.sampleDue, hmod]
  · simp [Lane.sampleDue, hlive]

theorem State.sendSample_other (s : State) (l : LaneId) (m : SampleMsg) :
    (s.sendSample l m).lane l.other = (if (s.lane l.other).inService then s.send l (.sample m) else s).lane l.other :=
  (State.computeSample_computes _ l m).1

/-- The sample of a lane alone is computed at its instant. -/
theorem State.sampleInstant_alone (hact : s.active = some l) (hg : g < 8) (hx : (s.lane l).inService = true)
    (hy : (s.lane l.other).inService = false) (hdue : (s.lane l).sampleDue g now = true)
    (hfirst : ∀ h, h < 8 → (s.lane l).servedBefore h g = true → (s.lane l).sampleDue h now = false)
    (ha : ((s.lane l).group g).awaiting = false) (hc : ((s.lane l).group g).complete ≤ now) (hd : ((s.lane l).group g).delayed = false) :
    (((s.sampleInstant g now).lane l).group g).standing = (now / (100 * ((s.lane l).group g).period), now, none) ∧
      (((s.sampleInstant g now).lane l).group g).awaiting = false ∧
      (((s.sampleInstant g now).lane l).group g).frames.isSome = true := by
  rw [State.sampleInstant_of_due hact hg hx hdue hfirst, hd, State.meetBoth_alone _ hx hy ha hc]
  generalize now / (100 * ((s.lane l).group g).period) = k
  dsimp only
  rw [if_neg Bool.false_ne_true]
  generalize ht : s.onLane l (fun y => y.onGroup g (fun o => o.meets k now)) = t
  have halone : (t.lane l.other).inService = false := by rw [← ht, State.lane_onLane_other, hy]
  have hgroup : (t.lane l).group g = ((s.lane l).group g).meets k now := by rw [← ht, State.lane_onLane, Lane.group_onGroup]
  rw [State.sendSample, halone, if_neg Bool.false_ne_true]
  obtain ⟨-, hawaiting, hframes, hstanding⟩ := t.computeSample_computes l (t.sampleMsg l g now)
  change (((t.computeSample l (t.sampleMsg l g now)).lane l).group g).awaiting = false at hawaiting
  change (((t.computeSample l (t.sampleMsg l g now)).lane l).group g).frames = some _ at hframes
  change (((t.computeSample l (t.sampleMsg l g now)).lane l).group g).standing = ((t.lane l).group g).standing at hstanding
  rw [hgroup] at hstanding
  exact ⟨hstanding, hawaiting, by rw [hframes]; rfl⟩

/-- The sample of a pair: the other lane has the message and awaits the sample. -/
theorem State.sampleInstant_pair (hact : s.active = some l) (hg : g < 8) (hx : (s.lane l).inService = true)
    (hy : (s.lane l.other).inService = true) (hdue : (s.lane l).sampleDue g now = true)
    (hfirst : ∀ h, h < 8 → (s.lane l).servedBefore h g = true → (s.lane l).sampleDue h now = false)
    (ha : ((s.lane l).group g).awaiting = false) (hc : ((s.lane l).group g).complete ≤ now) (hd : ((s.lane l).group g).delayed = false)
    (ha' : ((s.lane l.other).group g).awaiting = false) (hc' : ((s.lane l.other).group g).complete ≤ now) :
    ∃ m, ((s.sampleInstant g now).lane l.other).inbox = (s.lane l.other).inbox ++ [.sample m] ∧ m.group = g ∧
      m.sample = now / (100 * ((s.lane l).group g).period) ∧ m.instant = now ∧ m.pick = (s.lane l).blk.pick.released ∧
      (((s.sampleInstant g now).lane l.other).group g).awaiting = true := by
  rw [State.sampleInstant_of_due hact hg hx hdue hfirst, hd, State.meetBoth_pair _ hx hy ha hc ha' hc']
  generalize hk : now / (100 * ((s.lane l).group g).period) = k
  dsimp only
  rw [if_neg Bool.false_ne_true]
  generalize ht : (s.onLane l (fun y => y.onGroup g (fun o => o.meets k now))).onLane l.other
    (fun y => y.onGroup g (fun o => o.meets k now)) = t
  have hown : t.lane l = (s.lane l).onGroup g (fun o => o.meets k now) := by rw [← ht, State.lane_other_onLane, State.lane_onLane]
  have hother : t.lane l.other = (s.lane l.other).onGroup g (fun o => o.meets k now) := by
    rw [← ht, State.lane_onLane, State.lane_onLane_other]
  have hserves : (t.lane l.other).inService = true := by rw [hother]; exact hy
  have hsent : (t.sendSample l (t.sampleMsg l g now)).lane l.other = _ :=
    (t.sendSample_other l (t.sampleMsg l g now)).trans ((congrArg (fun u : State => u.lane l.other) (if_pos hserves)).trans
      (State.lane_send_other ..))
  rw [hsent, hother]
  refine ⟨t.sampleMsg l g now, rfl, rfl, ?_, rfl, ?_, ?_⟩
  · show now / (100 * ((t.lane l).group g).period) = k
    rw [hown, Lane.group_onGroup]
    exact hk
  · show (t.lane l).blk.pick.released = _
    rw [hown]
    rfl
  · show (((s.lane l.other).onGroup g (fun o => o.meets k now)).group g).awaiting = true
    rw [Lane.group_onGroup]
    rfl

/-- A partner that was not ready at the instant has the bit of a late sample. -/
theorem State.sampleInstant_late (hact : s.active = some l) (hg : g < 8) (hx : (s.lane l).inService = true)
    (hy : (s.lane l.other).inService = true) (hdue : (s.lane l).sampleDue g now = true)
    (hfirst : ∀ h, h < 8 → (s.lane l).servedBefore h g = true → (s.lane l).sampleDue h now = false)
    (hlate : ((s.lane l.other).group g).awaiting = true ∨ now < ((s.lane l.other).group g).complete) :
    ((s.sampleInstant g now).lane l.other).hasBit 170 = true := by
  have hbit := State.meetBoth_hasBit (now / (100 * ((s.lane l).group g).period)) hx hy hlate
  rw [State.sampleInstant_of_due hact hg hx hdue hfirst]
  generalize s.meetBoth g (now / (100 * ((s.lane l).group g).period)) now = t at hbit
  dsimp only
  have hdelayed : ∀ d : Bool, (((if d then t.onLane l (fun y => y.writeOutputs g now) else t).lane l.other).hasBit 170) = true := by
    intro d
    split
    · rw [State.lane_onLane_other]
      exact hbit
    · exact hbit
  have hu := hdelayed ((s.lane l).group g).delayed
  generalize (if ((s.lane l).group g).delayed then t.onLane l (fun y => y.writeOutputs g now) else t) = u at hu
  rw [State.sendSample_other]
  split
  · rw [State.hasBit_send]
    exact hu
  · exact hu

/-! ### SAMPLE_MESSAGE and SAMPLE_COMPUTATION -/

theorem State.sampleMessage_of_sample {m : SampleMsg} (hm : (s.lane l).inbox.find? (groupMsg g) = some (.sample m))
    (hx : (s.lane l).inService = true) (hd : ((s.lane l).group g).delayed = false) :
    s.sampleMessage l g = (s.onLane l (fun x => { x with inbox := x.inbox.erase (.sample m) })).onLane l
      (fun x => x.onGroup g (fun o => { o with msgs := o.msgs ++ [m] })) := by
  unfold State.sampleMessage
  rw [hm]
  dsimp only
  rw [if_neg (by rw [hx]; decide)]
  refine State.onLane_congr ?_
  rw [State.lane_onLane]
  exact if_neg (fun h => Bool.false_ne_true (hd.symm.trans h))

theorem Lane.pendingSample_of_head {x : Lane} {m : SampleMsg} (hm : (x.group g).msgs.head? = some m) :
    x.pendingSample g = if x.canCompute m then some m else none := by
  unfold Lane.pendingSample
  rw [hm]

theorem State.sampleComputation_of_first {m : SampleMsg} (hm : ((s.lane l).group g).msgs.head? = some m)
    (hx : (s.lane l).inService = true) (hc : (s.lane l).canCompute m = true)
    (hfirst : ∀ h, h < 8 → (s.lane l).servedBefore h g = true → (s.lane l).pendingSample h = none) :
    s.sampleComputation l g = s.computeSample l m := by
  have hpend : (s.lane l).pendingSample g = some m := (Lane.pendingSample_of_head hm).trans (if_pos hc)
  have hall : (List.range 8).all (fun h => !((s.lane l).servedBefore h g && ((s.lane l).pendingSample h).isSome)) = true := by
    rw [List.all_eq_true]
    intro h hh
    by_cases hs : (s.lane l).servedBefore h g = true
    · rw [hfirst h (List.mem_range.1 hh) hs, Option.isSome_none, Bool.and_false]
      rfl
    · rw [Bool.eq_false_iff.2 hs, Bool.false_and]
      rfl
  unfold State.sampleComputation
  dsimp only
  rw [hpend]
  exact if_pos (by rw [hx, hall]; rfl)

theorem State.sampleComputation_of_waiting {m : SampleMsg} (hm : ((s.lane l).group g).msgs.head? = some m)
    (hc : (s.lane l).canCompute m = false) : s.sampleComputation l g = s := by
  have hpend : (s.lane l).pendingSample g = none := (Lane.pendingSample_of_head hm).trans (if_neg (by rw [hc]; decide))
  unfold State.sampleComputation
  dsimp only
  rw [hpend]

end

theorem sampleRowsComplete : Claims.SampleRowsComplete := by
  intro s l g beat hg now o first
  have hlane : ∀ k, (s.at_ beat).lane k = s.lane k := State.lane_at s beat
  refine ⟨?_, ?_, ?_, ?_, ?_, ?_⟩
  · intro hact hx hy hlive hmod hne ha hc hd hfirst
    have hdue : (s.lane l).sampleDue g now = true := Lane.sampleDue_of_instant hlive hmod hne
    obtain ⟨hstanding, hawaiting, hframes⟩ := State.sampleInstant_alone (s := s.at_ beat) (l := l) (g := g) (now := now) hact hg
      (by rw [hlane]; exact hx) (by rw [hlane]; exact hy) (by rw [hlane]; exact hdue) (by rw [hlane]; exact hfirst)
      (by rw [hlane]; exact ha) (by rw [hlane]; exact hc) (by rw [hlane]; exact hd)
    rw [hlane] at hstanding
    simp only [GroupSt.standing, Prod.mk.injEq] at hstanding
    obtain ⟨hsample, hinstant, hjudged⟩ := hstanding
    exact ⟨(s.at_ beat).sampleInstant g now, rfl, hsample, hinstant, hawaiting, hjudged, hframes⟩
  · intro hact hx hy hlive hmod hne ha hc hd hfirst ha' hc'
    have hdue : (s.lane l).sampleDue g now = true := Lane.sampleDue_of_instant hlive hmod hne
    obtain ⟨m, hinbox, hgroup, hsample, hinstant, hpick, hawaiting⟩ := State.sampleInstant_pair (s := s.at_ beat) (l := l) (g := g)
      (now := now) hact hg (by rw [hlane]; exact hx) (by rw [hlane]; exact hy) (by rw [hlane]; exact hdue) (by rw [hlane]; exact hfirst)
      (by rw [hlane]; exact ha) (by rw [hlane]; exact hc) (by rw [hlane]; exact hd) (by rw [hlane]; exact ha') (by rw [hlane]; exact hc')
    rw [hlane] at hinbox hsample hpick
    exact ⟨(s.at_ beat).sampleInstant g now, m, rfl, hinbox, hgroup, hsample, hinstant, hpick, hawaiting⟩
  · intro hact h
    exact congrArg Host.Outcome.next (State.sampleInstant_of_not_due (s := s.at_ beat) (l := l) hact
      (by rw [hlane]; exact Lane.sampleDue_of_idle h))
  · intro h hact hh hs hdue
    exact congrArg Host.Outcome.next (State.sampleInstant_of_earlier (s := s.at_ beat) (l := l) hact hh (by rw [hlane]; exact hs)
      (by rw [hlane]; exact hdue))
  · exact fun m hm hx hd => congrArg Host.Outcome.next (State.sampleMessage_of_sample hm hx hd)
  · intro m hm hx
    refine ⟨fun hc hfirst => ?_, fun hc => ?_⟩
    · exact congrArg Host.Outcome.next (State.sampleComputation_of_first (s := s.at_ beat) (by rw [hlane]; exact hm)
        (by rw [hlane]; exact hx) (by rw [hlane]; exact hc) (by rw [hlane]; exact hfirst))
    · exact congrArg Host.Outcome.next (State.sampleComputation_of_waiting (s := s.at_ beat) (by rw [hlane]; exact hm)
        (by rw [hlane]; exact hc))

/-! ### Judgements and outputs -/

section
variable {s : State} {l : LaneId} {g now : Nat}

theorem State.onTimeJudgement_of_due (n : Nat) (hact : s.active = some l) (hg : g < 8) (hx : (s.lane l).inService = true)
    (hf : ((s.lane l).group g).frames.isSome = true) (hj : ((s.lane l).group g).judged = none)
    (hdue : ((s.lane l).group g).instant + ((s.lane l).group g).phaseNow ≤ now + 2) :
    s.onTimeJudgement g n now =
      (let o := (s.lane l).group g
       let onTime := decide (n + 2 ≤ o.phaseNow) && !o.awaiting
       let t := s.onLane l (fun x => (x.judge l g now o.sample onTime ((o.phaseNow : Int) - n)).onGroup g
         (fun q => { q with complete := q.instant + n }))
       if (s.lane l.other).inService then t.send l (.judgement g o.sample onTime ((o.phaseNow : Int) - n)) else t) := by
  unfold State.onTimeJudgement
  rw [hact]
  dsimp only
  rw [if_pos (by simp [hg, hx, hf, hj, hdue]), State.lane_onLane_other]

theorem State.onTimeJudgement_of_early (n : Nat) (hact : s.active = some l)
    (h : now + 2 < ((s.lane l).group g).instant + ((s.lane l).group g).phaseNow) : s.onTimeJudgement g n now = s := by
  unfold State.onTimeJudgement
  rw [hact]
  exact if_neg (by simp [Nat.not_le.2 h])

theorem State.judgementMessage_of_ready {k : Nat} {onTime : Bool} {slack : Int}
    (hm : (s.lane l).inbox.find? (groupMsg g) = some (.judgement g k onTime slack)) (hx : (s.lane l).inService = true)
    (ha : ((s.lane l).group g).awaiting = false ∨ ((s.lane l).group g).sample ≠ k)
    (hj : ((s.lane l).group g).sample ≠ k ∨ ((s.lane l).group g).judged = none) :
    s.judgementMessage l g = (s.onLane l (fun x => { x with inbox := x.inbox.erase (.judgement g k onTime slack) })).onLane l
      (fun x => x.judge l g s.pkg.beat k onTime slack) := by
  unfold State.judgementMessage
  rw [hm]
  dsimp only
  rw [if_neg (by rcases ha with ha | ha <;> simp [ha]), if_pos (by rcases hj with hj | hj <;> simp [hx, hj])]

theorem State.judgementMessage_of_awaiting {k : Nat} {onTime : Bool} {slack : Int}
    (hm : (s.lane l).inbox.find? (groupMsg g) = some (.judgement g k onTime slack)) (hx : (s.lane l).inService = true)
    (ha : ((s.lane l).group g).awaiting = true) (hk : ((s.lane l).group g).sample = k) : s.judgementMessage l g = s := by
  unfold State.judgementMessage
  rw [hm]
  exact if_pos (by simp [hx, ha, hk])

theorem State.outputPhase_of_judged (hg : g < 8) (hx : (s.lane l).inService = true)
    (hj : ((s.lane l).group g).judged = some true) (hd : ((s.lane l).group g).delayed = false)
    (ha : ((s.lane l).group g).awaiting = false) :
    s.outputPhase l g now = if ((s.lane l).group g).instant + ((s.lane l).group g).phaseNow ≤ now then
      s.onLane l (fun x => x.writeOutputs g now) else s := by
  simp [State.outputPhase, hg, hx, hj, hd, ha]

theorem State.lateSample_of_awaiting (hg : g < 8) (hx : (s.lane l).inService = true) (hact : s.active ≠ some l)
    (ha : ((s.lane l).group g).awaiting = true) (hl : ((s.lane l).group g).late = none) (hf : (s.lane l).faultLine = false) :
    s.lateSample l g now = if ((s.lane l).group g).instant + 100000 ≤ now then
      s.onLane l (fun x => x.onGroup g (fun o => { o with late := some now })) else s := by
  simp [State.lateSample, hg, hx, hact, ha, hl, hf]

theorem State.lateSampleWindow_of_due {t : Nat} (hg : g < 8) (hx : (s.lane l).inService = true) (hact : s.active ≠ some l)
    (hl : ((s.lane l).group g).late = some t) (hdue : t + msBeats ≤ now) :
    s.lateSampleWindow l g now = (s.onLane l (fun x => x.onGroup g (fun o => { o with late := none }))).raise l 167 true := by
  unfold State.lateSampleWindow
  rw [hl]
  exact if_pos (by simp [hg, hx, hact, hdue])

end

theorem judgementRowsComplete : Claims.JudgementRowsComplete := by
  intro s l g beat hg hx now o
  have hlane : ∀ k, (s.at_ beat).lane k = s.lane k := State.lane_at s beat
  have hx' : ((s.at_ beat).lane l).inService = true := by rw [hlane]; exact hx
  refine ⟨?_, ?_, ?_, ?_, ?_, ?_, ?_⟩
  · intro n hact hf hj hdue onTime s1
    have heq := State.onTimeJudgement_of_due (s := s.at_ beat) (now := now) n hact hg hx' (by rw [hlane]; exact hf)
      (by rw [hlane]; exact hj) (by rw [hlane]; exact hdue)
    rw [hlane, hlane] at heq
    exact congrArg Host.Outcome.next heq
  · intro hact h n
    exact congrArg Host.Outcome.next (State.onTimeJudgement_of_early (s := s.at_ beat) (l := l) n hact (by rw [hlane]; exact h))
  · intro k on sl hm
    exact ⟨fun ha hj => congrArg Host.Outcome.next (State.judgementMessage_of_ready hm hx ha hj),
      fun ha hk => congrArg Host.Outcome.next (State.judgementMessage_of_awaiting hm hx ha hk)⟩
  · intro hact hy hlive hmod hne hfirst hlate
    have hdue : (s.lane l).sampleDue g now = true := Lane.sampleDue_of_instant hlive hmod hne
    exact ⟨(s.at_ beat).sampleInstant g now, rfl, State.sampleInstant_late (s := s.at_ beat) (l := l) hact hg hx'
      (by rw [hlane]; exact hy) (by rw [hlane]; exact hdue) (by rw [hlane]; exact hfirst) (by rw [hlane]; exact hlate)⟩
  · intro hj hd ha
    have heq := State.outputPhase_of_judged (s := s.at_ beat) (l := l) (now := now) hg hx' (by rw [hlane]; exact hj)
      (by rw [hlane]; exact hd) (by rw [hlane]; exact ha)
    rw [hlane] at heq
    exact ⟨fun h => congrArg Host.Outcome.next (heq.trans (if_pos h)),
      fun h => congrArg Host.Outcome.next (heq.trans (if_neg (Nat.not_le.2 h)))⟩
  · intro hact ha hl hf
    have heq := State.lateSample_of_awaiting (s := s.at_ beat) (l := l) (now := now) hg hx' hact (by rw [hlane]; exact ha)
      (by rw [hlane]; exact hl) (by rw [hlane]; exact hf)
    rw [hlane] at heq
    exact ⟨fun h => congrArg Host.Outcome.next (heq.trans (if_pos h)),
      fun h => congrArg Host.Outcome.next (heq.trans (if_neg (Nat.not_le.2 h)))⟩
  · intro t hact hl hdue
    exact congrArg Host.Outcome.next (State.lateSampleWindow_of_due (s := s.at_ beat) hg hx' hact (by rw [hlane]; exact hl) hdue)

/-- Settles O46: each row from its guard; that a group served first makes the others wait, and that a judgement of a sample not yet
computed stays in the inbox, are the choices of log 116. -/
theorem loopRowsComplete : Obligations.LoopRowsComplete :=
  ⟨sampleRowsComplete, judgementRowsComplete⟩

end Sys2Proof.Machine
end
